-- ==== Sys2Proof/Word.lean ====
section
/-! DEFINITION. The words of the LVA-9472 and the shapes of a register table: a word of the 32-bit bus,
a byte, a register field by its bits (R7), and a canonical sorted map from addresses to values. -/
namespace Sys2Proof

/-- One word of the 32-bit bus (R498, R500). -/
abbrev Word := BitVec 32

/-- One byte of a memory window. -/
abbrev Byte := BitVec 8

/-- A field of a register: the register's bus address and the bits `[hi:lo]`, inclusive. -/
structure Fld where
  addr : Nat
  hi : Nat
  lo : Nat
deriving DecidableEq, Repr

/-- The Type column of a register table (R7). -/
inductive FieldKind where
  | rw | ro | wo | w1c | rc | st | rl
deriving DecidableEq, Repr

/-- One row of a register table: its bits and its type. Reserved bits have no row (R9). -/
structure FieldRow where
  hi : Nat
  lo : Nat
  kind : FieldKind
deriving DecidableEq, Repr

/-- One register of R501, or one family of `count` registers `stride` bytes apart, with the staging group of its
staged fields (R503) where it has one. -/
structure RegRow where
  name : String
  base : Nat
  stride : Nat
  count : Nat
  group : Option Nat
  fields : List FieldRow
deriving DecidableEq, Repr

end Sys2Proof

namespace Sys2Proof.Machine

/-- A map from addresses to values, held as pairs whose addresses strictly rise and whose values differ from what an
unlisted address reads as. -/
abbrev AddrMap (β : Type) := List (Nat × β)

/-- Registers by bus address; an unlisted register reads 0. -/
abbrev RegMap := AddrMap Word

/-- Memory windows, byte by byte. -/
abbrev Memory := List Host.Cell

end Sys2Proof.Machine
end

