-- ==== Sys2Proof/Machine/Parts.lean ====
section
/-! DEFINITION. The state of the LVA-9472 block by block, as plain data: what each chapter gives a block beyond its
registers and memory windows. Machine/State.lean joins the parts. -/
namespace Sys2Proof.Machine

/-! ### The image and the plan (chapters 02, 03) -/

/-- A slot entry of a plan (R29). `rsv` says that a reserved bit of the entry is not zero. -/
structure SlotEntry where
  start : Nat
  phase : Nat
  length : Nat
  period : Nat
  resource : Nat
  kind : Nat
  index : Nat
  paramA : Nat
  rsv : Bool
deriving DecidableEq, Repr

/-- An image as it is in force or held as a candidate (R60, R61): PRODUCT, PATCH_LVL and the
section bodies by section type, in directory order. An absent section has no pair. -/
structure Image where
  product : Nat
  patchLvl : Nat
  secs : List (Nat × List Byte)
deriving DecidableEq, Repr

/-- Where an image was taken from (NVM_BOOTINFO.SRC, R70). -/
inductive ImageSrc where
  | slotA | slotB | romDefault | hostDownload
deriving DecidableEq, Repr

/-- A RECORD occurrence on its way through the record port (R321): its slot, epoch and START, its group, the entries with the records
cut by PARAM_A, and the entry at which the copies disagree. -/
structure Recording where
  slot : Nat
  epoch : Nat
  start : Nat
  group : Nat
  entries : List (List Word)
  cut : Nat
  bad : Option Nat
deriving DecidableEq, Repr

/-- A slot occurrence in progress (R38): the slot's index in the running plan and the epoch it started in. -/
structure OpenSlot where
  slot : Nat
  epoch : Nat
deriving DecidableEq, Repr

/-- A read cursor (R101): its stream, its next sample index, the ring offset recorded when that sample was written,
whether it reads the snapshot (R108), and how it ended. -/
structure Cursor where
  stream : Nat
  next : Nat
  offset : Option Nat
  snap : Bool
  waiting : Bool
  lost : Bool
  ovtk : Bool
deriving DecidableEq, Repr

/-- How far a job of the queue has come (R48 to R52). `done` keeps its status until its completion entry is read. -/
inductive JobPhase where
  | queued
  | running
  | cancelling
  | done (status : Nat)
deriving DecidableEq, Repr

/-- What one code of a Prism job has gathered in the block so far (R212, R213): the peak and second peak with their cells, the sum,
and the flags of the whole job. -/
structure PrismAcc where
  peak : Nat
  peakI : Nat
  peakF : Nat
  peakK : Int
  second : Nat
  secondI : Nat
  sum : Nat
  sat : Bool
  nocode : Bool
deriving DecidableEq, Repr

/-- A code as its CODE step leaves it (R204, R211): one period of its chips, none where the Hank entry was invalid, and f_code in
chips/s. -/
structure PrismCode where
  chips : List Int
  rate : Rat
deriving DecidableEq, Repr

/-- A block as its LOAD step leaves it for one fraction (R204, R211): the block's number, the increment of the mixing NCO, and the samples
mixed. -/
structure PrismMix where
  block : Nat
  inc : Nat
  samples : List Byte
deriving DecidableEq, Repr

/-- The progress of a Prism job (R204, R210 to R213): the resolved start sample, the next step, what each CODE step left, what the last
LOAD step left for each fraction, the grid, the accumulators, those of the last completed block, and the sample flags. -/
structure PrismRun where
  sidx0 : Nat
  begun : Bool
  next : Nat
  codes : List PrismCode
  mixes : List PrismMix
  grid : AddrMap Nat
  accs : List PrismAcc
  lastAccs : List PrismAcc
  nbdone : Nat
  zf : Bool
  tsg : Bool
deriving DecidableEq, Repr

/-- A job holding a tag of the job queue (R48): class 0 Prism, 1 Bobbin read-out, 2 snapshot export, 3 host transfer.
`desc` is a Prism descriptor, or a read-out's link, stream and HDR; `total` and `moved` count a transfer's bytes. -/
structure Job where
  tag : Nat
  cls : Nat
  seq : Nat
  prio : Nat
  phase : JobPhase
  desc : List Word
  cursor : Option Cursor
  prism : Option PrismRun
  total : Nat
  moved : Nat
deriving DecidableEq, Repr

/-- The plan block beyond its registers (chapter 02): the image in force and its source, the candidate under check or
checked, the slots in progress, the staging bookkeeping of R41 to R45 and the job queue of R48. -/
structure PlanSt where
  img : Image
  src : ImageSrc
  other : Image                       -- the image whose programs the other IMEM bank holds (R221)
  nextCat : Option (List Byte)        -- a catalogue waiting for the next HELLO (R73)
  cand : Option (Image × ImageSrc)
  switchAt : Option Nat               -- the armed switch epoch (R53)
  opened : List OpenSlot
  recs : List Recording               -- RECORD occurrences in progress
  commitAt : List (Nat × Nat)         -- group and the epoch its pending commit applies at (R41)
  dirty : List Nat                    -- dirty descriptor doublewords, 8 × strand + doubleword (R113)
  hankChg : List Nat                  -- Hank RAM directory entries written since group 1 applied
  plyChg : List Nat
  coefChg : List Nat
  lifeChg : List Nat
  modeChg : List Nat                  -- words of FOC_MODE written since group 6 applied
  touched : List Nat                  -- groups 5 to 14 with a staged change
  applied : List Nat                  -- groups applied at the last boundary and still sealed (R43)
  jobs : List Job
  doneFifo : List (Nat × Nat × Nat)   -- class, status, tag in completion order
  xdone : List (Nat × Nat × Nat)      -- link, tag and status of the read-outs ended and not yet reported (R457)
  nextSeq : Nat
deriving DecidableEq, Repr

/-- A customer key slot of the fuses (R64). -/
structure KeySlot where
  key : List Byte
  valid : Bool
  revoked : Bool
deriving DecidableEq, Repr

/-- The one-time-programmable fuses (R64): two customer key slots and KLDOFF. The Klodwen key is written at manufacture. -/
structure Otp where
  cks : List KeySlot
  kldoff : Bool
deriving DecidableEq, Repr

/-! ### Sample streams, Bobbin and the snapshot (chapter 04) -/

/-- Where an epoch of a stream was written: its ring position, whether its page still belongs to that position, the ranges of offsets
(first, end) that hold zero-filled samples, and whether its samples are the TSG's. -/
structure Wrote where
  epoch : Nat
  pos : Nat
  kept : Bool
  zf : List (Nat × Nat)
  tsg : Bool
deriving DecidableEq, Repr

/-- One sample stream (R82 to R86, R95): the trained taps of its four pairs, the elastic FIFO's fill, whether its strobe
is lost, its ring origin as a full epoch count, and the epochs its ring has written, newest first (R102). -/
structure StreamSt where
  taps : List Nat
  fifo : Nat
  strobeLost : Bool
  org : Nat
  wrote : List Wrote
deriving DecidableEq, Repr

/-- Chapter 04 beyond its registers: the eight streams, the samples at the pins in the half-epoch that runs, how many samples of the
epoch have passed and what they delivered in this half-epoch, the snapshot's start and latched settings, and the front-end pins
FE_PWR0 to FE_PWR3 and SCLK_OUT (R78, R79). -/
structure BobSt where
  streams : Vector StreamSt 8
  pins : List (Nat × List (Nat × Byte))
  taken : Nat
  half : Vector (List Byte) 8
  halfZf : List Nat                   -- the streams that delivered a zero-filled sample in this half-epoch
  snapStart : Nat
  snapMask : Nat
  snapNep : Nat
  snapFeoff : Bool
  releasePending : Bool
  feAt : Option Nat                   -- the epoch at which FEWAIT ends (R109)
  snapZf : List (Nat × Nat × Nat)     -- zero-filled samples captured: stream, first index, end
  snapTsgs : List (Nat × Nat)         -- captured epochs with TSG samples: stream, epoch
  snapSlip : Bool                     -- a captured stream slipped (R107)
  rxOff : Bool                        -- the LVDS receivers are powered down (R106)
  fePwr : List Bool
  sclk : Bool
deriving DecidableEq, Repr

/-! ### Strands (chapter 05) -/

/-- What a strand holds beyond its descriptor: the phases and counters at the sample now reached (R122, R132), its taps'
accumulators as 7 × (A.I, A.Q, B.I, B.Q) 36-bit values (R136, R138), the window's split and epochs, and its flags (R139). -/
structure StrandSt where
  cp : Nat
  kf : Nat
  ki : Nat
  cpc : Nat
  wpos : Nat
  acc : List Int
  edge : Bool                         -- a symbol edge falls on the next sample
  inB : Bool
  split : Nat
  seen : Nat                          -- samples of the window so far
  nep : Nat
  wipeOff : Bool                      -- wipe-off has ended for the rest of the window (R132)
  newcfg : Bool
  nocode : Bool
  wipex : Bool
  zf : Bool
  mism : Bool
  tsg : Bool
  cyc : Nat                           -- the carrier cycle counter, modulo 2^32 (R256)
  crWin : Int                         -- CR at the last dump (R184)
  cpcWin : Nat                        -- CPC at the last dump (R168, R169)
  cfgEra : Nat                        -- commits of D1, STREAM or EN so far (R258)
  dead : Bool                         -- accumulates nothing until the next epoch boundary (R319)
deriving DecidableEq, Repr

/-- A loop write-back queued for the next boundary (R116). -/
structure WriteBack where
  strand : Nat
  cr : Option Nat
  kr : Option Nat
deriving DecidableEq, Repr

/-! ### Loupe slices (chapter 09) -/

/-- What a result does when it lands (R225, R226): a register or an accumulator written, a product added, SST bits cleared and set,
words stored to DMEM or through the global port, a loop level set up. -/
inductive SliceEff where
  | reg (id : Nat) (w : Word)
  | acc (a v : Nat)
  | mac (a : Nat) (p : Int)
  | sst (clr set : Nat)
  | mem (ofs : Nat) (ws : List Word)
  | glob (addr : Nat) (w : Word)
  | loop (lvl start stop count : Nat) (act : Bool)
deriving DecidableEq, Repr

/-- A result in flight: the slice's fc at which it lands, and the field of its operation, 3 for C down to 0 for X. -/
structure Flight where
  due : Nat
  field : Nat
  eff : SliceEff
deriving DecidableEq, Repr

/-- What the bundle in issue does when it ends beyond its results. -/
inductive BundleEnd where
  | plain
  | skip (pc : Nat)                   -- a loop of count 0 (R234)
  | stop                              -- END (R230)
  | ret                               -- RETI (R240)
deriving DecidableEq, Repr

/-- What a slice of the replay context keeps beside (R326, R328): the doorbells logged for the occurrence, each with its issue count and
code, and the words of the replay overlay in use. -/
structure SliceRerun where
  bells : List (Nat × Nat)
  wrote : List Nat
deriving DecidableEq, Repr

/-- A Loupe slice (R220 to R223, R240): its registers by ID, the four accumulators, results in flight, the occurrence's START as an fc
counted from epoch 0 with the slice's own fc since and the bundles issued, the bundle in issue with its length and end, a branch whose
delay slots are running (the bundles left and the target), the program, the slot KIND, the interrupts taken in the occurrence, a
pending FLAG, CTX's doorbell code and EPO, and what a slice of the replay context keeps beside. -/
structure SliceSt where
  regs : AddrMap Word
  accs : Vector Nat 4
  flight : List Flight
  t0 : Nat
  now : Nat
  issued : Nat
  width : Nat
  ends : BundleEnd
  pc : Nat
  branch : Nat
  target : Option Nat
  prog : Nat
  kind : Nat
  irqs : Nat
  flagPend : Bool
  dbCode : Nat
  epo : Nat
  rerun : Option SliceRerun
deriving DecidableEq, Repr

/-! ### Plies (chapters 06, 07, 08) -/

/-- The three loop integrators of a ply (R157): Hz, Hz/s, chips/s. -/
structure Integ where
  x2 : Rat
  x3 : Rat
  xd : Rat
deriving DecidableEq, Repr

/-- The sums of the window discriminators since the last filter update (R154): phase, frequency, code, windows. -/
structure DiscSum where
  phi : Rat
  f : Rat
  k : Rat
  n : Nat
deriving DecidableEq, Repr

/-- A ply's status record (chapter 06) with what the kernel keeps behind it: the integrators, metrics and histories of R153 to
R169, the running verification of R217 and the effective Focus mode of R193. Epochs are full counts. -/
structure PlySt where
  state : Nat
  mode : Nat
  wcset : Nat
  hcp : Bool
  hcu : Bool
  bsync : Bool
  msync : Bool
  slipf : Bool
  missed : Nat
  slips : Nat
  slipsIn : Nat                       -- slips since entry to the state (R173)
  slipTotal : Nat                     -- slips declared, without saturation, for the record flag SLIP (chapter 10)
  lockt : Nat
  tentry : Nat
  lastEp : Nat
  lastUpd : Nat
  fresh : Bool                        -- entered from HOLD: the next processed window is a due update (R154)
  integ : Integ
  ek : Rat
  ef : Rat
  ephi : Rat
  pli : Rat
  fli : Rat
  ps : Rat
  pn : Rat
  cn0 : Rat
  cn0Lin : Rat                        -- C/N0 as a ratio, in Hz
  cn0Ok : Bool                        -- the last C/N0 was formed with the noise tap on and P_n not 0
  nwin : Nat                          -- MAIN's windows since HOLD was left (R164)
  prev : List (Nat × (Int × Int))     -- each member's carrier-tap sum in its previous window (R155)
  sums : DiscSum
  bsofs : Nat
  bsFound : Bool                      -- a bit-sync result that Distaff has still to stage (R168)
  bins : List (Nat × Nat)             -- transitions counted by bin (R168)
  binsFrom : Option Nat               -- the epoch the histogram was started
  prevData : Option Int               -- I of the data tap in the previous window
  sym : Option (Int × Bool)           -- the running symbol sum and whether it is partial (R169)
  symMean : Option Rat
  vsp : Nat                           -- ΣP and ΣN of a verification (R217)
  vsn : Nat
  vx : List (Int × Int)
  verEnd : Nat                        -- the end of the last window counted by a verification that passed
  fmode : Nat                         -- the effective Focus mode (R193)
  fpend : Bool
  phaseEra : Nat                      -- entries to FLLPLL or PLL and slips so far (R258)
  gateRej : Nat                       -- consecutive rejected code rows (R187)
  resumed : Bool                      -- the next processing is the first in a DOZE burst (R353)
deriving DecidableEq, Repr

/-- A member's phase accumulation at the record port (R258): the start boundary, K, the unwrapped cycle count when it was last
read and at the start, CP at the start, ΣΔRXBASE at the start, the eras it began in, and the slips already reported. -/
structure PhaseAcc where
  run : Bool
  e0 : Nat
  k : Int
  cyc : Int
  cyc0 : Int
  cp0 : Nat
  rx0 : Int
  plyEra : Nat
  strandEra : Nat
  slipsSeen : Nat
deriving DecidableEq, Repr

/-- The output side of chapter 10 outside the pairs: ΣΔRXBASE in ms, the boundary of the last RXBASE jump, and per group the last
occurrence's epoch, the occurrences written and a dropped one not yet reported. -/
structure OutSt where
  rxSum : Int
  clkj : Option Nat
  last : Vector (Option Nat) 16
  occ : Vector Nat 16
  gap : Vector Bool 16
  sols : List (List Byte × Bool)      -- solution records given to Distaff, with whether they were replayed (R201, R327)
  lastSol : Option (List Byte)        -- the newest of them, which the sentences show (R267)
deriving DecidableEq, Repr

/-- The Focus filter's numbers: 40 states in the units of R181 and the 40 × 40 covariance, row by row. -/
structure FocNum where
  x : List Rat
  cov : List Rat
deriving DecidableEq, Repr, Inhabited

/-- A measurement row (R181, R183, R184): 0 heading, 1 pitch, 2 code, 3 rate; its baseline or ply, value and variance; the satellite's
position and velocity and c times its clock correction with its rate, all at t_u; the offset states that it uses; and a
baseline's body vector in mm. -/
structure FocRow where
  kind : Nat
  idx : Nat
  z : Rat
  var : Rat
  pos : Rat × Rat × Rat
  vel : Rat × Rat × Rat
  clk : Rat
  clkRate : Rat
  slots : List Nat
  body : List Int
deriving DecidableEq, Repr

/-- Focus (chapter 07) as its pair holds it: the mode entries in force, the filter state and numbers, the restart asked for, the fc of the
last FOCUS slot, the last non-coast update, the last update's counts and t_u, t_u of an update whose slot still runs, and the last
accepted aiding sample's time of validity and the fc of its acceptance. -/
structure FocSt where
  modes : AddrMap Nat
  state : Nat
  num : FocNum
  restart : Bool
  lastFc : Option Nat
  lastGood : Nat
  coasted : Bool                      -- the last update was a coast update
  rows : Nat
  rej : Nat
  mdrop : Nat
  upd : Nat
  due : Option Nat
  lastAid : Option Nat
  aidAt : Option Nat
  aidLost : Bool
  products : List (Option Nat)        -- the EPOCH of the heading product last taken from each baseline (R265)
  back : Memory                       -- the feed-forward back buffer as a custom program has written it (R237)
deriving DecidableEq, Repr

/-- Focus outside its pair: the aiding FIFO, the samples taken in the half-epoch that runs, the shadow copy of the satellite table and the
copy in effect (R183, R198, R320). -/
structure FocOut where
  fifo : List (List Word)
  taken : List (List Word)
  shadow : Memory
  effect : Memory
deriving DecidableEq, Repr

/-! ### Flywheel (chapter 11) -/

/-- The four states of the oscillator model in ns and seconds, and their 4 × 4 covariance row by row (R270, R271). -/
structure FlyModel where
  x : Rat
  y : Rat
  z : Rat
  kt : Rat
  cov : List Rat
deriving DecidableEq, Repr

/-- What a pulse output's grid is built from (R281): MODE, POL, the period code, OFFSET in ps and the scale. -/
structure TpAct where
  mode : Nat
  pol : Bool
  period : Nat
  ofs : Int
  scale : Nat
  fb : Bool
deriving DecidableEq, Repr

/-- A step pending on an output (R285): Δ in ns, the instant of its decision, and whether pulse k has passed. -/
structure TpStep where
  delta : Rat
  since : Rat
  armed : Bool
deriving DecidableEq, Repr

/-- A pulse output (R277 to R285): the configuration that its grid follows, whether pulses run, the target instant of the next active
edge in ns of M, E_n, the part of E_n held back until LOCKED, the level as active or not, the instants of the inactive edge and of
the last active edge in ns of device time, a pending step, whether the next pulse is announced as a step, whether a change waits for
the first edge of its grid, and MODE LOCK and POL as the pin has them. -/
structure TpSt where
  act : TpAct
  on : Bool
  tgt : Rat
  err : Rat
  held : Rat
  active : Bool
  offAt : Option Rat
  last : Option Rat
  step : Option TpStep
  first : Bool
  turn : Bool
  lock : Bool
  pol : Bool
deriving DecidableEq, Repr

/-- An entry of the event FIFO (R290): its words and M at the edge in ns, unknown in NOTIME. -/
structure EventTag where
  words : List Word
  time : Option Rat
deriving DecidableEq, Repr

/-- Flywheel beyond its registers: the model and its prior, the oscillator class, the last accepted record's epoch, the die
temperature then and the integrals since, consecutive acceptances, the records waiting for their check point, a copy to reload, the
outputs, the scale offsets held in ns × 2^16, the event FIFO, each channel's count and last tagged fc, the Ts of the last write of
FLY_EVCFG with the selects that stand until it ends, and the fc of the last anchor written in this LOCKED state (R382). -/
structure FlySt where
  model : FlyModel
  prior : List Int
  ocxo : Bool
  lastAcc : Option Nat
  temp : Int
  tHold : Int
  tInt : Rat
  tRef : Rat
  consec : Nat
  sol : List (Nat × Int × Nat)
  badCopy : Bool
  tps : Vector TpSt 4
  scales : Vector (Option Int) 8
  evq : List EventTag
  evCount : Vector Nat 8
  evLast : Vector (Option Nat) 8
  evWas : Option (Nat × Word)
  anchored : Option Nat
deriving DecidableEq, Repr

/-! ### Reel (chapter 12) -/

/-- A Reel counter (R295 to R305): the count it held at sample index `since`, whether it runs, the compare, the increment, the newest
capture, the fc at which it came with the value held before that cycle, the output register, the level that it takes at the end of a
Ts, and a release waiting for an epoch boundary with its SYNCIDX. -/
structure ReelCnt where
  base : Nat
  since : Nat
  run : Bool
  cmp : Nat
  inc : Nat
  cap : Nat
  capAt : Option (Nat × Nat)
  out : Bool
  want : Option (Nat × Bool)
  release : Option (Nat × Bool)
deriving DecidableEq, Repr

/-- Reel beyond its registers: the counters, the last sample index whose matches are taken, the driven edges on their way to their balls
with the fc of their arrival, and the amount of the last make-up. -/
structure ReelSt where
  cnts : Vector ReelCnt 8
  seen : Nat
  moving : List (Nat × Nat × Bool)
  amount : Nat
deriving DecidableEq, Repr

/-! ### Mirror (chapter 13) -/

/-- What a replay correlator brings to one open window (R322, R323): the strand, its contribution of the lost half-epoch, that
half-epoch's flags, and the samples the window held at the rollback. -/
structure MergeItem where
  strand : Nat
  acc : List Int
  nocode : Bool
  wipex : Bool
  zf : Bool
  mism : Bool
  tsg : Bool
  seen : Nat
deriving DecidableEq, Repr

/-- A slot occurrence of the half-epoch in progress (R325): its slot with the plan's entry, its epoch, and whether its output was
suppressed. -/
structure Occurrence where
  slot : Nat
  epoch : Nat
  entry : SlotEntry
  supp : Bool
deriving DecidableEq, Repr

/-- A doorbell taken (R328): the slice, the epoch and START of the slot occurrence, the bundles issued before it, and the code. -/
structure BellLog where
  slice : Nat
  epoch : Nat
  start : Nat
  issued : Nat
  code : Nat
deriving DecidableEq, Repr

/-- Mirror beyond its registers and checkpoints (R315 to R333): the half-epoch is lost; an injected state-bit fault with the check
points still to pass; an injected output fault; the pairs of running occurrences whose copies will disagree, each with the output
words still to come before it; a disagreement met and not yet registered (pair, injected); whether an output of the half-epoch was
suppressed; the occurrences so far; the doorbells taken; a reseed due; when Distaff's restart ends and when it
last restarted warm; the fault reports Distaff has still to send and to file (R336): source (16 + REASON for an abandonment, 32 for a
reseed, 48 for a cold restart), pair, copy and epoch; and the words of Hank that cannot be read in the half-epoch being taken (R334). -/
structure MirSt where
  lost : Bool
  inj : Option (Nat × Nat)
  injOut : Option Nat
  badOut : List (Nat × Nat)
  caught : Option (Nat × Bool)
  cut : Bool
  occs : List Occurrence
  bells : List BellLog
  reseedDue : Bool
  dstUntil : Option Nat
  lastWarm : Option Nat
  reports : List (List Nat)
  hankBad : List Nat
deriving DecidableEq, Repr

/-- A Prism step in progress: its job's tag, and the fc at which it ends. -/
structure PrismBusy where
  tag : Nat
  ends : Nat
deriving DecidableEq, Repr

/-- Prism (chapter 08): the open slot's last fc, the fc up to which its time is accounted for, the step in progress, and how often working
RAM may have changed (R212). -/
structure PrismSt where
  slot : Option Nat
  seen : Nat
  busy : Option PrismBusy
  era : Nat
deriving DecidableEq, Repr

/-! ### Power (chapter 14) -/

/-- The power controller beyond its registers: the epoch of entry to DOZE and the first epoch of the off phase, the boundary at which
DOZE is left, whether the strands are already projected for the coming burst, the islands being powered up, the armed wake
compare, the fc of the last activity counted from epoch 0, the steps of R358 that a HIBERNATE entry has come to (0 none is asked for, 1 NVM
is still busy, 2 step 1 is done, 3 step 2 is), whether the epoch runs that step 2 costs its slots and pins (R359), and CORE_EN. -/
structure PwrSt where
  dozeAt : Nat
  offAt : Nat
  dozeExit : Option Nat
  projected : Bool
  powering : List Nat
  tick : Option Nat
  actAt : Nat
  hib : Nat
  still : Bool
  coreEn : Bool
deriving DecidableEq, Repr

/-! ### Whorl (chapter 15) -/

/-- The Whorl domain (R369 to R385): the two copies of the count, ACC, the correction in force, the weekday, the values in force of its
settings and curve (a curve sent and not yet used in `curveNext`), writes waiting with the edges they still wait for, the crystal
edges since the last update, whether an edge has come since OSF was set, VBAT in mV, and the shadow set. -/
structure WhlSt where
  cntA : Nat
  cntB : Nat
  acc : Int
  k : Int
  wday : Nat
  phase : Nat
  lbth : Nat
  chg : Nat
  offset : Int
  curve : List Int
  curveNext : Option (List Int)
  pend : List (Nat × Nat × Nat)
  edges : Nat
  alive : Bool
  vbat : Nat
  shCnt : Nat
  shTs : Nat
  shWday : Nat
deriving DecidableEq, Repr

/-! ### Distaff, NVM and Spool (chapter 16) -/

/-- Where an acknowledgement on completion goes: the link, the request's SEQ and frame CRC, its class and ID. -/
structure AckTo where
  link : Nat
  seq : Nat
  crc : Word
  cls : Nat
  id : Nat
deriving DecidableEq, Repr

/-- A record waiting to be written to Spool (R401, R404, R406). `ack` is the Twine request that waits for it, `olds` those of the records
that it replaced while they waited. -/
structure SpoolReq where
  key : Nat
  batch : Bool
  fin : Bool
  payload : List Byte
  urgent : Bool
  ack : Option AckTo
  olds : List AckTo := []
deriving DecidableEq, Repr

/-- NVM beyond its registers and contents: the words programmed since the slot's erase in a WRITING session as (offset, bytes),
the Spool half's tail, the SEQ last used in it, whether it is dirty, records waiting, consecutive verify failures, a compaction's
target half, the flash operations in progress as (1 program or 2 erase, sector, words or sectors left), and the fc at which the
cache was last due. -/
structure NvmSt where
  written : List (Nat × Nat)
  tail : Nat
  queue : List SpoolReq
  fails : Nat
  compactTo : Option Nat
  ops : List (Nat × Nat × Nat)
  lastSeq : Nat
  dirty : Bool
  cacheAt : Option Nat
deriving DecidableEq, Repr

/-- A ply handed over with VSEC whose verification is awaited (R218): the ply and, per member strand, SEN and ASEN as they are to be. -/
structure Handed where
  ply : Nat
  members : List (Nat × Nat)
deriving DecidableEq, Repr

/-- A leap second of UTC (R262, R286): the day at whose end it comes, counted from the GPS time origin, GPST − UTC in s before it, and
whether a second is inserted, else deleted. -/
structure LeapSecond where
  day : Nat
  before : Int
  inserted : Bool
deriving DecidableEq, Repr

/-- Distaff: its settings by number, the frames in which its load has stayed low, the patch comparators, whether the patch area is
locked, how many of Mirror's reports are filed in Spool, the weeks' rollover anchor W_R, the week last decoded from Galileo or
BeiDou, the signal code and satellite number that it holds for a ply (R451), the accepted integers of baseline b and ply p at
1,024 × b + p (R264), the plies handed over with VSEC, the Galileo satellites in FAIL that have not returned to AUTH (R266), the t_u of
the record for which each sentence was last due (R269), the SLIPS of each ply in the last MSM (R268), and the leap second that it knows
of. -/
structure DstSt where
  sets : AddrMap (List Byte)
  low : Nat
  patches : List (Nat × Nat)
  locked : Bool
  filed : Nat
  wroll : Nat
  week : Option Nat
  sigs : AddrMap (Nat × Nat)
  amb : List (Nat × Int)
  handed : List Handed
  osnFail : List Nat
  nmeaAt : Vector (Option Nat) 7
  msmSlips : AddrMap Nat
  leap : Option LeapSecond
deriving DecidableEq, Repr

/-! ### Serial ports and Twine (chapters 17, 18) -/

/-- A UART (R415 to R426): the receive FIFO as the low 12 bits UARTn_DATA returns, the transmit FIFO, the character in the shifter, which
directions have still to load a new rate or framing, the framing the receiver works with, the wake receiver's buffer and its glitches not
yet counted. After a low stop bit the receiver waits for the line to be high: the next character given is one whose start edge it has seen
(R421). -/
structure UartSt where
  rx : List Nat
  tx : List Byte
  shift : Option Byte
  rxPend : Bool
  txPend : Bool
  rxCfg : Nat
  wake : List Nat
  glitches : Nat
deriving DecidableEq, Repr

/-- The QSPI slave (R428 to R435): the output stream, whether its first byte has waited 1 ms, the window buffer, a window operation
whose end is still to come with its code, the bytes the last read function drove, and a host download in progress. -/
structure QspSt where
  out : List Byte
  waited : Bool
  win : Memory
  op : Option Nat
  resp : List Byte
  image : List Byte
  awaiting : Bool
deriving DecidableEq, Repr

/-- A Twine link (R439 to R447): its session with version, HOSTID and the device's SEQ; the last four executed requests with SEQ, CRC and
response; requests whose response comes on completion; CRCERR since HELLO; frames lost and not yet reported; the bytes received and
not yet taken as frames, and whether the rest of a truncated transaction is skipped; for UART0 the queue to the transmitter; the
catalogue of the session, none for the ROM default's; whether a restored session stands; the fuse nonce with the fc it was given at;
and the notices waiting, each with its code and DETAIL (R455). UART1, which carries no Twine, has the queue alone. -/
structure LinkSt where
  opened : Bool
  major : Nat
  minor : Nat
  hostId : Nat
  seq : Nat
  memory : List (Nat × Word × List Byte)
  waiting : List AckTo
  crcErr : Nat
  lost : Nat
  rx : List Byte
  skip : Bool
  outq : List Byte
  cat : Option (List Byte)
  restored : Bool
  nonce : Option (Nat × Nat)
  notices : List (Nat × List Byte)
deriving DecidableEq, Repr

/-- The head of a request: its link, 0 UART0 or 1 QSPI, its SEQ, and for a retired message the class and ID that the host sends in
place of its successor's (R444). -/
structure TwineHead where
  link : Fin 2
  seq : BitVec 16
  old : Option (Byte × Byte)
deriving DecidableEq, Repr

/-! ### Service and field test (chapter 19) -/

/-- A console reply (R458): the command by its place in the table of commands, tests from 32 on, the code of an ERR line or 0 for OK, and
the readings. -/
structure ConReply where
  cmd : Nat
  err : Nat
  vals : List Nat
deriving DecidableEq, Repr

/-- A self-test in progress (R459, R465): its number, its argument, the fc it began at, what was read at its start, the job tag
it holds, and the registers of group 13 as they were in force. -/
structure RunTest where
  kind : Nat
  arg : Nat
  start : Nat
  base : Nat
  tag : Option Nat
  kept : List (Nat × Word)
deriving DecidableEq, Repr

/-- The console and service mode (R458 to R467): the fc of a "service on" not yet confirmed, that of the last input, the balls that the
board last held high, the line being typed, whether the last character was a CR, whether the line is too long, the running
self-test, the replies, and the sample index at which the TSG's signals in force began. -/
structure SvcSt where
  armed : Option Nat
  lastInput : Nat
  pins : List Nat
  line : List Byte
  afterCr : Bool
  tooLong : Bool
  test : Option RunTest
  out : List ConReply
  tsgFrom : Nat
deriving DecidableEq, Repr

/-! ### Start-up and sets (chapter 20) -/

/-- What the tap sweep found on one data pair: its transitions, and the first tap and width of its widest stable run (R82). -/
structure PairSweep where
  transitions : Nat
  first : Nat
  width : Nat
deriving DecidableEq, Repr

/-- What the board and the silicon bring to a start-up: the straps as SET_STRAP holds them, the listed REFCLK frequency that the count
found, whether PLL-A and PLL-B lock, the sweep of each stream that has a strobe, the self-tests that fail (bits 0 to 7 skeins, 8 Loupe, 9
Prism), the image slots in which an uncorrectable NVM error is met, an error in the anchors' bytes, the die temperature in 0.01 °C, the
samples that come to the pins in the first half-epoch, and the errors that the restore of a wake corrects. -/
structure BootEnv where
  straps : Nat
  ref : Option Nat
  lockA : Bool
  lock : Bool
  sweeps : List (Nat × List PairSweep)
  fails : Nat
  ecc : Nat
  anchorBad : Bool
  temp : Int
  pins : List (Nat × List (Nat × Byte))
  corrected : Nat
deriving DecidableEq, Repr

/-- Start-up and the set: the start-up's surroundings, the image chosen, the epoch at which a master's first epoch comes, the epochs from
a wake's make-up to it, the sample index at which a wake resumed, consecutive frames seen in ALIGN with the count expected
next, epochs without a valid frame, whether a valid frame came in this epoch, and the bits of the frame that the master
drives on EPOCH_SYNC in this epoch. -/
structure BootSt where
  env : BootEnv
  cand : Option (Image × ImageSrc)
  first : Nat
  wait : Nat
  woke : Nat
  frames : Nat
  expect : Nat
  miss : Nat
  heard : Bool
  sent : List Bool
deriving DecidableEq, Repr

/-- A ply's command latches (R176). `hc` is 0 for none, 1 for HCOK, 2 for HCINV. -/
structure Latch where
  arm : Bool
  stop : Bool
  bsok : Bool
  hc : Nat
deriving DecidableEq, Repr

/-- The loop kernel's state outside the pairs: the latches, those consumed in the running half-epoch, and the event and symbol
queues as the words their registers return (R171, R174, R176). -/
structure LpeSt where
  latches : AddrMap Latch
  consumed : List (Nat × Latch)
  evq : List (Word × Word)
  symq : List (Word × Word)
deriving DecidableEq, Repr

/-! ### Operands of the commands -/

/-- What the outside world and chance bring to a boundary (R24, R80, R312): the samples that come to the pins in the half-epoch that
begins there, of the streams that have any, as runs of (length, byte); the pairs whose copies' digests differ; an error in the checkpoint
memory; a Flywheel copy that disagrees; the die temperature in 0.01 °C; the 64-chip words of Hank whose fetch meets an uncorrectable error
(R334), the RAM's after the 24,576 of the ROM. -/
structure HalfInput where
  pins : List (Nat × List (Nat × Byte))
  mism : List Nat
  ckptErr : Bool
  flyBad : Bool
  temp : Int
  hank : List Nat
deriving DecidableEq, Repr

/-- The ECC errors of a Prism step (R215, R334): how many were corrected in it, and one that could not be, true for one in Bobbin. -/
structure StepErrors where
  corrected : Nat
  lost : Option Bool
deriving DecidableEq, Repr

/-- What Distaff brings to a handoff (R218): the ply, E_h, the detection's FD in Hz × 2^4, CPH in chips × 2^16 and SIDX0, CPC₀ (0 when no
phase is known), the ply's new binding where it changes, word 0 of the verification entry, and the signal code and satellite number
that Distaff holds for the ply from now on (R257, R451). -/
structure HandoffReq where
  ply : Nat
  eh : Nat
  fd : Int
  cph : Nat
  sidx0 : Nat
  cpc0 : Nat
  binding : Option (List Word)
  verify : Word
  sigid : Nat
  svid : Nat
deriving DecidableEq, Repr

/-- What the receiver samples of one character, each bit once at its centre, false for a low line: the start bit, the data bits, the
parity bit, the first stop bit; inversion by UARTn_PINCFG is already taken (R425). -/
structure LineSample where
  start : Bool
  data : BitVec 8
  parity : Bool
  stop : Bool
deriving DecidableEq, Repr

/-- A fuse operation: program a customer key, revoke one, bar the Klodwen key. -/
inductive FuseOp where
  | program (slot : Nat) (key : List Byte)
  | revoke (slot : Nat)
  | kldoff
deriving DecidableEq, Repr

/-- A date and time of day in a scale. -/
structure CalDate where
  year : Nat
  month : Nat
  day : Nat
  hour : Nat
  minute : Nat
  second : Nat
  ns : Nat
deriving DecidableEq, Repr

/-! ### What messages show (R264, R266 to R268) -/

/-- A double difference of a baseline (R264): its ply, the reference ply, the band, the phase in 1/1,024 cycle, the wavelength in m, and
both satellites as seen from the receiver, in m. -/
structure DoubleDiff where
  ply : Nat
  ref : Nat
  band : Nat
  phase : Int
  lambda : Rat
  sight : List Rat
  refSight : List Rat
deriving DecidableEq, Repr

/-- OSNMA of a Galileo satellite (R266) as the public documents have it: the satellite, the status that its data give, the bound in ns
within which its chain requires receiver time, and whether its key is of type ECDSA P-521. -/
structure OsnmaSat where
  sv : Byte
  status : Byte
  bound : Nat
  p521 : Bool
deriving DecidableEq, Repr

/-- A field of an NMEA sentence (R267): empty, a text, the time of day of a label, a number, or a figure that the spec names without its
formula, by a number of its own. -/
inductive NmeaField where
  | empty
  | text (b : List Byte)
  | time (d : CalDate)
  | number (q : Rat)
  | unstated (k : Nat)
deriving DecidableEq, Repr

/-- A sentence: the talker, the bit of OUT_NMEA_MASK, the fields in their order. -/
structure NmeaSentence where
  talker : List Byte
  kind : Nat
  fields : List NmeaField
deriving DecidableEq, Repr

/-- A satellite in view on one signal ID (R267): the talker's place, its ID, the signal ID, elevation and azimuth in degrees where they
are known, and C/N0 in dB-Hz where it is tracked. -/
structure SatView where
  group : Nat
  id : Nat
  signal : Nat
  dir : Option (Rat × Rat)
  cn0 : Option Rat
deriving DecidableEq, Repr

/-- A cell of an MSM (R267, R268): the signal ID, pseudorange and phase-range in m, the lock time in ms, HCU, C/N0 in 0.01 dB-Hz, and the
phase-range rate in m/s; none is the standard's invalid value. -/
structure RtcmCell where
  signal : Nat
  pr : Option Rat
  ph : Option Rat
  lock : Nat
  half : Bool
  cn0 : Nat
  rate : Rat
deriving DecidableEq, Repr

/-- A satellite of an MSM with its extended information. -/
structure RtcmSat where
  id : Nat
  ext : Nat
  cells : List RtcmCell
deriving DecidableEq, Repr

/-- An RTCM message (R267): an MSM7 with its number, station ID, day (GLONASS) and time in ms, multiple-message bit, external clock
indicator and satellites, IODS, clock steering and smoothing being 0; 1005 with the reference point; 1230 without bias values. -/
inductive RtcmMsg where
  | msm (number station day time : Nat) (more : Bool) (extclk : Nat) (sats : List RtcmSat)
  | arp (station : Nat) (point : List Byte)
  | bias (station : Nat)
deriving DecidableEq, Repr

/-- The three registers that a _LO write commits (R297). -/
inductive ReelReg where
  | cnt | cmp | inc
deriving DecidableEq, Repr

/-! ### The device -/

/-- The epoch counter and the fc offset in the epoch (R24 to R27). -/
structure Clock where
  epoch : Nat
  fc : Nat
deriving DecidableEq, Repr

/-- What the pairs hold (R309, R320): the windows of strands, plies and slices, the strands, the write-backs queued, the plies, the
phase accumulations, the Loupe slices and Focus. -/
@[ext] structure Hot where
  mem : Memory
  strands : AddrMap StrandSt
  wbq : List WriteBack
  plies : AddrMap PlySt
  phases : AddrMap PhaseAcc
  slices : AddrMap SliceSt
  foc : FocSt
deriving DecidableEq, Repr

/-- A replay under way (R322 to R329): the fc of C_b counted from epoch 0, whether the replay correlators still run, the merges
outstanding, the replay context with the image, the staged values, Focus's inputs and the doorbells of H, the occurrences to rerun and
whether one runs. -/
structure Replay where
  cb : Nat
  corr : Bool
  merges : List MergeItem
  base : Hot
  img : Image
  force : RegMap
  foc : FocOut
  bells : List BellLog
  reruns : List Occurrence
  running : Bool
deriving DecidableEq, Repr

/-- What a HIBERNATE entry latches (R358, R360): the count of Whorl, the sample index, and the staged registers of the save list as
they were in force. The rest of the list stays where it was. -/
structure Saved where
  tick : Nat
  sidx : Nat
  staged : List (Nat × Word)
deriving DecidableEq, Repr

/-- The device but its clock and the commands waiting: registers as a read shows them and staged values in force (R7); memory windows;
what the pairs hold, live and at the last checkpoint (R312, R320); then block by block. `pinOver` is the balls overridden with their
mode (R462), `readData` the words that the last read returned, `free` the number of free values taken (log entry 5). -/
@[ext] structure Core where
  regs : RegMap
  force : RegMap
  mem : Memory
  hot : Hot
  ckpt : Hot
  plan : PlanSt
  bob : BobSt
  lpe : LpeSt
  out : OutSt
  foc : FocOut
  prm : PrismSt
  fly : FlySt
  reel : ReelSt
  mir : MirSt
  replay : Option Replay
  pwr : PwrSt
  whl : WhlSt
  nvm : NvmSt
  dst : DstSt
  otp : Otp
  uarts : Vector UartSt 2
  qsp : QspSt
  links : Vector LinkSt 3
  pinOver : List (Nat × Nat)
  svc : SvcSt
  boot : BootSt
  saved : Option Saved
  readData : List Word
  free : Nat
deriving DecidableEq, Repr

end Sys2Proof.Machine
end

