-- ==== Sys2Proof/Syntax.lean ====
section
/-! DEFINITION. The commands of the LVA-9472, one constructor per row of the command table: a write or a read of a register, an
operation of a protocol or of the console, an operation that a Loupe slice issues, an event at a pin, in time or inside the device.
Operands are what the row's rule lets vary; what chance or the outside world decides is an operand too. -/
namespace Sys2Proof

open Machine

inductive Instr where
  | epochBoundary (inp : HalfInput)
  | checkPoint (inp : HalfInput)
  | slotStart (slot : Nat) (bad : Option Nat)
  | slotOverrun (slot : Nat)
  | planCommit (mask : BitVec 15)
  | stagedWrite (addr : Word) (value : Word)
  | jqCancel (tag : BitVec 8)
  | prismStepStart (fc : Fin 655360)
  | prismStepComplete (ecc : StepErrors)
  | transferComplete (tag : BitVec 8)
  | cursorResume (tag : BitVec 8)
  | cursorOvertaken (tag : BitVec 8)
  | imageVerifyComplete (ecc : Bool)
  | train (mask : BitVec 8)
  | trainingComplete (n : Fin 8) (sweep : List PairSweep)
  | nostbTimeout (n : Fin 8)
  | strobeLoss (n : Fin 8)
  | strobeReturn (n : Fin 8)
  | fifoSlip (n : Fin 8)
  | eyewarn (n : Fin 8)
  | hankRamWrite (o : Fin 32768) (w : Word)
  | plyArm (p : Fin 1024)
  | plyStop (p : Fin 1024)
  | hcok (p : Fin 1024)
  | hcinv (p : Fin 1024)
  | bsok (p : Fin 1024)
  | satelliteEntryPublish (p : Fin 1024) (ws : List Word)
  | aidingPush (w : Word)
  | verificationEntryWrite (p : Fin 1024) (k : Fin 4) (w : Word)
  | handoff (h : HandoffReq)
  | nop (k : Fin 9) (f : Fin 4) (w : BitVec 24) (last : Bool)
  | add (k : Fin 9) (f : Fin 4) (w : BitVec 24) (last : Bool)
  | adds (k : Fin 9) (f : Fin 4) (w : BitVec 24) (last : Bool)
  | sub (k : Fin 9) (f : Fin 4) (w : BitVec 24) (last : Bool)
  | addi (k : Fin 9) (f : Fin 4) (w : BitVec 24) (last : Bool)
  | andOp (k : Fin 9) (f : Fin 4) (w : BitVec 24) (last : Bool)
  | orOp (k : Fin 9) (f : Fin 4) (w : BitVec 24) (last : Bool)
  | xorOp (k : Fin 9) (f : Fin 4) (w : BitVec 24) (last : Bool)
  | shl (k : Fin 9) (f : Fin 4) (w : BitVec 24) (last : Bool)
  | shra (k : Fin 9) (f : Fin 4) (w : BitVec 24) (last : Bool)
  | shrl (k : Fin 9) (f : Fin 4) (w : BitVec 24) (last : Bool)
  | movi (k : Fin 9) (f : Fin 4) (w : BitVec 24) (last : Bool)
  | movhi (k : Fin 9) (f : Fin 4) (w : BitVec 24) (last : Bool)
  | minOp (k : Fin 9) (f : Fin 4) (w : BitVec 24) (last : Bool)
  | maxOp (k : Fin 9) (f : Fin 4) (w : BitVec 24) (last : Bool)
  | absOp (k : Fin 9) (f : Fin 4) (w : BitVec 24) (last : Bool)
  | cmp (k : Fin 9) (f : Fin 4) (w : BitVec 24) (last : Bool)
  | sel (k : Fin 9) (f : Fin 4) (w : BitVec 24) (last : Bool)
  | mov (k : Fin 9) (f : Fin 4) (w : BitVec 24) (last : Bool)
  | mul (k : Fin 9) (f : Fin 4) (w : BitVec 24) (last : Bool)
  | mulh (k : Fin 9) (f : Fin 4) (w : BitVec 24) (last : Bool)
  | mac (k : Fin 9) (f : Fin 4) (w : BitVec 24) (last : Bool)
  | msu (k : Fin 9) (f : Fin 4) (w : BitVec 24) (last : Bool)
  | clra (k : Fin 9) (f : Fin 4) (w : BitVec 24) (last : Bool)
  | sta (k : Fin 9) (f : Fin 4) (w : BitVec 24) (last : Bool)
  | stah (k : Fin 9) (f : Fin 4) (w : BitVec 24) (last : Bool)
  | rda (k : Fin 9) (f : Fin 4) (w : BitVec 24) (last : Bool)
  | wra (k : Fin 9) (f : Fin 4) (w : BitVec 24) (last : Bool)
  | clrf (k : Fin 9) (f : Fin 4) (w : BitVec 24) (last : Bool)
  | fadd (k : Fin 9) (f : Fin 4) (w : BitVec 24) (last : Bool)
  | fsub (k : Fin 9) (f : Fin 4) (w : BitVec 24) (last : Bool)
  | fmul (k : Fin 9) (f : Fin 4) (w : BitVec 24) (last : Bool)
  | fma (k : Fin 9) (f : Fin 4) (w : BitVec 24) (last : Bool)
  | fcvt (k : Fin 9) (f : Fin 4) (w : BitVec 24) (last : Bool)
  | ftoi (k : Fin 9) (f : Fin 4) (w : BitVec 24) (last : Bool)
  | ldw (k : Fin 9) (f : Fin 4) (w : BitVec 24) (last : Bool)
  | ldwp (k : Fin 9) (f : Fin 4) (w : BitVec 24) (last : Bool)
  | stw (k : Fin 9) (f : Fin 4) (w : BitVec 24) (last : Bool)
  | stwp (k : Fin 9) (f : Fin 4) (w : BitVec 24) (last : Bool)
  | ldd (k : Fin 9) (f : Fin 4) (w : BitVec 24) (last : Bool)
  | std (k : Fin 9) (f : Fin 4) (w : BitVec 24) (last : Bool)
  | padd (k : Fin 9) (f : Fin 4) (w : BitVec 24) (last : Bool)
  | gld (k : Fin 9) (f : Fin 4) (w : BitVec 24) (last : Bool)
  | gst (k : Fin 9) (f : Fin 4) (w : BitVec 24) (last : Bool)
  | br (k : Fin 9) (f : Fin 4) (w : BitVec 24) (last : Bool)
  | loopi (k : Fin 9) (f : Fin 4) (w : BitVec 24) (last : Bool)
  | loopr (k : Fin 9) (f : Fin 4) (w : BitVec 24) (last : Bool)
  | wait (k : Fin 9) (f : Fin 4) (w : BitVec 24) (last : Bool)
  | endOp (k : Fin 9) (f : Fin 4) (w : BitVec 24) (last : Bool)
  | ei (k : Fin 9) (f : Fin 4) (w : BitVec 24) (last : Bool)
  | di (k : Fin 9) (f : Fin 4) (w : BitVec 24) (last : Bool)
  | reti (k : Fin 9) (f : Fin 4) (w : BitVec 24) (last : Bool)
  | atn2 (k : Fin 9) (f : Fin 4) (w : BitVec 24) (last : Bool)
  | div (k : Fin 9) (f : Fin 4) (w : BitVec 24) (last : Bool)
  | rsq (k : Fin 9) (f : Fin 4) (w : BitVec 24) (last : Bool)
  | log2 (k : Fin 9) (f : Fin 4) (w : BitVec 24) (last : Bool)
  | prd (k : Fin 9) (f : Fin 4) (w : BitVec 24) (last : Bool)
  | pwb (k : Fin 9) (f : Fin 4) (w : BitVec 24) (last : Bool)
  | qpush (k : Fin 9) (f : Fin 4) (w : BitVec 24) (last : Bool)
  | interruptEntry (k : Fin 9)
  | lpeDbellWrite (k : Fin 9) (code : BitVec 8)
  | rangeAnchorWrite (p : Fin 1024) (sys : BitVec 3) (ea : Word) (txa : BitVec 64)
  | headingSearch (b : Fin 3)
  | tpActiveEdge (n : Fin 4)
  | tpInactiveEdge (n : Fin 4)
  | stepApply (n : Fin 4)
  | eventTag (n : Fin 8) (falling : Bool)
  | reelStart (mask : BitVec 8) (atEpoch : Bool) (sync : Bool)
  | reelStop (mask : BitVec 8)
  | reelLoWrite (g : ReelReg) (n : Fin 8) (w : Word)
  | compareMatch (n : Fin 8)
  | pinset (n : Fin 8) (v : BitVec 2)
  | capsw (n : Fin 8)
  | captureEdge (ch : Fin 8) (falling : Bool)
  | reelCntLoRead (n : Fin 8)
  | reelCmpLoRead (n : Fin 8)
  | reelCapLoRead (n : Fin 8)
  | mirInj (w : Word)
  | scrub (row : Fin 16) (pair : Fin 12) (unc : Bool) (alt : Bool) (index : Nat)
  | vioLow (bankB : Bool)
  | wake (mask : BitVec 6) (env : BootEnv) (wait : Nat) (retfail : Bool)
  | biasChange (temp : Int)
  | whorlTick (hitA : BitVec 48) (hitB : BitVec 48)
  | compensationUpdate (temp : Int) (vbat : Nat)
  | dayBoundary (hitA : BitVec 48) (hitB : BitVec 48)
  | whlTrustClear (w : Word)
  | whlWdaySet (day : BitVec 3)
  | whlChgWrite (w : Word)
  | backupRamAccess (n : Fin 64) (put : Option Word) (bad : Bool)
  | distaffFrameStart (load : Nat) (util : Nat)
  | patchAreaWrite (o : Fin 15872) (w : Word)
  | spoolRecordWrite (good : Bool) (week : Option (Fin 4 × Nat)) (stats : Option (List Byte))
  | cacheWrite (body : List Byte)
  | uartCharacterReceived (n : Fin 2) (x : LineSample)
  | uartTransmitCharacter (n : Fin 2)
  | uartDataWrite (n : Fin 2) (b : Byte)
  | uartDataRead (n : Fin 2)
  | uartRateWrite (n : Fin 2) (w : Word)
  | uartCfgWrite (n : Fin 2) (w : Word)
  | txflush (n : Fin 2)
  | rxflush (n : Fin 2)
  | rxTimeout (n : Fin 2)
  | uartGlitchRead (n : Fin 2)
  | wakeCharacter (n : Fin 2) (x : LineSample)
  | rdsr (lanes : Fin 4)
  | rdstm (lanes : Fin 4) (n : Nat)
  | wrstm (lanes : Fin 4) (bs : List Byte)
  | rdwin (lanes : Fin 4) (ofs : BitVec 16) (n : Nat)
  | wrwin (lanes : Fin 4) (ofs : BitVec 16) (bs : List Byte)
  | wsetupRead (lanes : Fin 4) (addr : Word) (len : BitVec 16) (rsv : Bool) (badAt : Nat)
  | wsetupWrite (lanes : Fin 4) (addr : Word) (len : BitVec 16) (rsv : Bool)
  | wsetupImage (lanes : Fin 4) (addr : Word) (len : BitVec 16) (rsv : Bool)
  | rdid (lanes : Fin 4)
  | eqpi (lanes : Fin 4)
  | xqpi (lanes : Fin 4)
  | ifrst (lanes : Fin 4)
  | badFrame (l : Fin 2)
  | hello (h : TwineHead) (p : List Byte)
  | bye (h : TwineHead) (p : List Byte)
  | ping (h : TwineHead) (p : List Byte)
  | regRd (h : TwineHead) (p : List Byte) (badAt : Nat)
  | regWr (h : TwineHead) (p : List Byte)
  | aidImu (h : TwineHead) (p : List Byte)
  | acqSubmit (h : TwineHead) (p : List Byte)
  | acqCancel (h : TwineHead) (p : List Byte)
  | cfgSet (h : TwineHead) (p : List Byte)
  | cfgGet (h : TwineHead) (p : List Byte)
  | store (h : TwineHead) (p : List Byte)
  | factory (h : TwineHead) (p : List Byte)
  | calSet (h : TwineHead) (crc : Word) (d : CalDate) (scale : Nat) (unc : Nat)
  | calGet (h : TwineHead) (crc : Word) (tick : BitVec 48) (scale : Nat)
  | imgWr (h : TwineHead) (p : List Byte)
  | spoolWr (h : TwineHead) (p : List Byte)
  | spoolRd (h : TwineHead) (p : List Byte)
  | provWr (h : TwineHead) (crc : Word) (kind : Fin 3) (data : List Byte)
  | fuseArm (h : TwineHead) (crc : Word) (op : FuseOp)
  | fuseProg (h : TwineHead) (crc : Word) (nonce : BitVec 16) (op : FuseOp)
  | readout (h : TwineHead) (p : List Byte)
  | xdata (tag : BitVec 8) (bad : Bool)
  | tp (n : Fin 4)
  | status (osnma : List OsnmaSat)
  | notice (l : Fin 2)
  | acqResult (tag : BitVec 8)
  | head (b : Fin 3)
  | nmeaSentence (kind : Fin 7)
  | rtcmMessage (kind : Fin 7)
  | faults (n : Nat)
  | mon (src : Nat) (mv : Int)
  | pinRead (n : Nat) (board : Bool)
  | pinHi (n : Nat)
  | pinLo (n : Nat)
  | pinZ (n : Nat)
  | pinRel (n : Nat)
  | rd (addr : Word) (n : Nat) (badAt : Nat)
  | wr (addr : Word) (w : Word)
  | testSupply (mv : List Nat)
  | testPll (lockA : Bool) (lockB : Bool) (mvA : Nat) (mvB : Nat) (ppm : Int)
  | testLvds (n : Fin 8) (fin : Bool)
  | testSkein (k : Fin 8) (fin : Bool) (good : Bool)
  | testLoupe (fin : Bool) (good : Bool)
  | testPrism (fin : Bool) (pidx : Nat) (pk : Int) (peak : Nat) (second : Nat)
  | testHank (same : Bool)
  | testNvm (corr : Nat) (unc : Nat)
  | testFacet (sha : Bool) (ecdsa : Bool)
  | testWhorl (fin : Bool) (rateOk : Bool)
  | testReel (n : Fin 8) (fin : Bool)
  | testUart0 (got : Nat) (errs : Bool)
  | testMirror (k : Nat) (fin : Bool)
  | testTsg (n : Fin 8) (fin : Bool) (good : Bool)
  | tsg (mask : Nat) (n : Nat) (ws : List Word)
  | svcPinctlWrite (w : Word)
  | startUp (env : BootEnv)
  | refclkDetectRetry (freq : Option Nat)
  | pllLockRetry (ok : Bool)
  | epochSyncFrame (count : BitVec 48) (crcOk : Bool) (phase : Int) (training : Bool)
  | registerWrite (addr : Word) (value : Word)
  | timeScaleTableWrite (k : Fin 8) (utc : Vector (Option (Int × Int)) 3) (bcast : Option Int) (leap : Option (Nat × Bool))
  | supplyReturn (rail : Fin 7)
  | planLoad
  | planCheckComplete
  | planArm
  | planDisarm
  | jqDoneRead
  | verify
  | confirm
  | select
  | snapshotArm
  | snapshotDisarm
  | captureEnd
  | snapshotRelease
  | fewaitExpiry
  | lpeEvqLoRead
  | lpeSymqLoRead
  | lpeEvqStatRead
  | lpeSymqStatRead
  | strWbovrRead
  | aidlost
  | focDemRead
  | focAidstatRead
  | prmSubmit
  | prmStatRead
  | prmIdleRead
  | planOstatRead
  | holdoverEntry
  | limitEntry
  | flyEvq3Read
  | flyEvstatRead
  | tmrFail
  | flyTmrRead
  | reelMkamtLoRead
  | replayCorrelationComplete (bad : Option (Fin 8)) (stopped : BitVec 8)
  | rerunStart
  | rerunComplete (bad : Bool)
  | replayDeadline
  | dstcmp
  | mirCntRead
  | mirEccRead
  | sysAccerrRead
  | vmainLow
  | vmainReturn
  | vcoreLow
  | vpllLow
  | vsampLow
  | pwrDoze
  | pwrRun
  | pwrHib
  | dozeIdleExpiry
  | hibIdleExpiry
  | dozeBurstStart
  | dozeOffPhase
  | dozeExit
  | hibernateSave
  | islandReady
  | oscillatorStop
  | whorlBrownOut
  | setosf
  | curvld
  | chargerClamp
  | whlCntLoRead
  | anchorWrite
  | compactionStart
  | compactionComplete
  | nvmProgramDone
  | nvmEraseDone
  | nvmStatRead
  | sysDstshedRead
  | pllLock
  | windowOpComplete
  | badcmd
  | qspCntRead
  | frameTimeout
  | meas
  | pvt
  | time
  | event
  | sym
  | plyev
  | help
  | sys
  | stream
  | track
  | eddeugStore
  | serviceOn
  | serviceConfirm
  | serviceOff
  | serviceTimeout
  | reboot
  | ctrlC
  | longLine
  | relall
  | rstNAssert
  | lateJoin
  | syncLoss
  | setStatRead
  | sysUnmapRead
  | planEpochLoRead
  | bobSidxLoRead
  | bobCurposLoRead
  | wakeNFallingEdge
  | outputByteWait
deriving DecidableEq, Repr

end Sys2Proof
end

