-- ==== Sys2Proof/Config.lean ====
section
/-! DEFINITION. What an implementation fixes and the spec leaves open: constants without a body. Nothing in Lean can
evaluate one or prove a value of it, so a statement holds whatever the values are (log entry 5). -/
namespace Sys2Proof.Config
open Sys2Proof.Machine

/-- A fresh free value: `n` counts the free values taken so far (log entry 5). -/
opaque freeValue : Nat → BitVec 64

/-- ECDSA P-256 verification over the SHA-256 of the covered bytes: key, bytes, r and s (R62). -/
opaque ecdsaOk : List Byte → List Byte → List Byte → List Byte → Bool

/-- The Klodwen public key, 64 bytes, written at manufacture (R64). -/
opaque klodwenKey : List Byte

/-- Chip `i` of a generator family's code (R125): family, index, chip; true for the binary value 1. -/
opaque genChip : Nat → Nat → Nat → Bool

/-- Chip `i` of an assigned Hank ROM entry (R127): Hank ID, chip. -/
opaque hankRomChip : Nat → Nat → Bool

/-- Where the assigned Hank ROM entries lie (R126: fixed on every device, not an interface): the place of an entry in their order, and
the free bits before it. -/
opaque hankRomKey : Nat → Nat
opaque hankRomGap : Nat → Nat

/-- What a 36-bit accumulator (R136) holds after a sum that its width cannot. -/
opaque accOver : Int → BitVec 36

/-- The byte of the Distaff ROM at an address (R498). -/
opaque romByte : Nat → Byte

/-- The two-argument arctangent in turns, as a rational approximation to the device's precision (log entry 6). -/
opaque atan2Turns : Int → Int → Rat

/-- The square root of a rational, to the device's precision. -/
opaque sqrtRat : Rat → Rat

/-- Ten times the decimal logarithm, to the device's precision; its value at 0 and below is not stated. -/
opaque db10 : Rat → Rat

/-- A ratio the spec leaves unstated where its denominator, or both arguments of its arctangent, are 0 (log entry 8): the site,
the ply and the epoch. -/
opaque openRatio : Nat → Nat → Nat → Rat

/-- π, to the device's precision. -/
opaque pi : Rat

/-- One Focus propagation (R178, R181, R200, log entry 9): the selected states, the parameters FOC_PAR0 to FOC_PAR23, the interval in s,
the aiding samples taken with their times in fc, whether aiding is active or the acceleration model holds, and the filter before it. -/
opaque focPropagate : Nat → List Rat → Rat → List (List Word × Nat) → Bool → FocNum → FocNum

/-- The filter after a row is applied (R187, log entry 9): the selected states, the filter, the row's partial derivatives by state, its
innovation and the innovation's variance. -/
opaque focApply : Nat → FocNum → List (Nat × Rat) → Rat → Rat → FocNum

/-- The azimuth (0) or elevation (1) that slots 20 to 22 give a body-frame vector, and its partial derivatives with respect to them (R265, log
entry 6). -/
opaque attitude : Nat → List Rat → List Int → Rat × List Rat

/-- The least-squares solution from rows, with its covariance and PDOP (R188). -/
opaque focSeed : Nat → List FocRow → Option (FocNum × Rat)

/-- The 40-bit magnitude of one correlation output of a SEARCH step (R203, R211, R212, log entry 10): N, the mixed block, the code, the
shift in bins and the point. -/
opaque prismMag : Nat → PrismMix → PrismCode → Int → Nat → BitVec 40

/-- A word of Prism's working RAM, whose layout is no interface (R212): how often the engine may have changed it, and its offset. -/
opaque workRam : Nat → Nat → Word

/-- The sign and payload of a NaN result (log entry 11): the operation and its operands. -/
opaque nanBits : Nat → Word → Word → Word → Word

/-- The special-function unit (R225, log entry 11), where no word holds the exact result: a / b, 1 / √a, log₂ a and atan2(a, b) / 2π. -/
opaque divF32 : Word → Word → Word
opaque rsqF32 : Word → Word
opaque log2F32 : Word → Word
opaque atn2F32 : Word → Word → Word

/-- The Reel pin delay of R302 within its range of 4.2 to 6.2 ns, as the fc of the following Ts in which the edge reaches the ball: this
value modulo 3, after fc 2 (log entry 12). -/
opaque reelDelay : Nat → Nat

/-- A sample of a substituted stream as it is delivered (R466, log entry 14): the signal entries in force, the stream, its format word and
intermediate frequency, and the sample's number since the signals began. -/
opaque tsgByte : List Word → Nat → Word → Word → Nat → Byte

/-- The signal entries of the self-test "test tsg" (R465, log entry 14): stream, entry and word; the entry's enable, stream and C/N0 are
stated and replace what stands here. -/
opaque tsgTestWord : Nat → Nat → Nat → Word

/-- The contents of what the ROM default image holds and the spec does not give (R76, log entry 15), by section and byte. -/
opaque romImageByte : Nat → Nat → Byte

/-- A byte of a slice's IMEM bank (R221, log entry 16): the programs' section that fills the bank, the slice and the offset; where a
program lies in the bank is not stated. -/
opaque imemByte : List Byte → Nat → Nat → Byte

/-- The payload of CAL_VAL, whose layout is not stated (R448, log entry 17): the date, the weekday, the scale and U. -/
opaque calVal : CalDate → Nat → Nat → Nat → List Byte

/-- Latitude and longitude in degrees, height above the ellipsoid and geoid separation in m of an ECEF position, and north, east and
down of an ECEF velocity there, to the device's precision (R267, R452, log entry 6). -/
opaque geodetic : List Rat → List Rat
opaque northEastDown : List Rat → List Rat → List Rat

/-- The ambiguity search of a baseline (R264, log entry 6): its length and body vector in mm, the receiver's position, the integers kept
and the double differences. What comes back is each double difference's integer, the best and second-best residual sums, the length in
mm, and HEAD, PITCH, SHEAD and SPITCH as the product holds them. -/
opaque headingSearch : List Int → List Rat → List (Nat × Int) → List DoubleDiff → List (Nat × Int) × Rat × Rat × Rat × List Int

/-- The signal ID that NMEA 0183 4.11 gives a signal code, where it has one, and what a sentence of a solution record carries between `$`
and `*` under that standard (R267, log entry 18). -/
opaque nmeaSignal : Nat → Option Nat
opaque nmeaBody : List Byte → NmeaSentence → List Byte

/-- The signal ID that RTCM 10403.3 assigns to an observation code in a message, where there is one, and a message as that standard
encodes it (R268, log entry 18). -/
opaque rtcmSignal : Nat → List Byte → Option Nat
opaque rtcmFrame : RtcmMsg → List Byte

end Sys2Proof.Config
end

