-- ==== Sys2Proof/Machine/Regs.lean ====
section
/-! DEFINITION. The register map of chapter 22 (R498 to R505) with the field tables of every owning chapter:
register addresses (`R.<REGISTER>`), fields (`F.<REGISTER>.<FIELD>`) and the table of field types (R7)
that a register access consults. A register with an index takes it as an argument. -/
namespace Sys2Proof.Machine

/-- PLAN_EPOCH_LO (R27, 02). -/
abbrev R.PLAN_EPOCH_LO : Nat := 0x40001020
/-- PLAN_EPOCH_HI (R27, 02). -/
abbrev R.PLAN_EPOCH_HI : Nat := 0x40001024
/-- PLAN_PHASE (R27, 02). -/
abbrev R.PLAN_PHASE : Nat := 0x40001028
/-- PLAN_CTRL (R40, 02). -/
abbrev R.PLAN_CTRL : Nat := 0x40001000
/-- PLAN_STAT (R40, 02). -/
abbrev R.PLAN_STAT : Nat := 0x40001004
abbrev F.PLAN_STAT.CODE : Fld := ⟨R.PLAN_STAT, 15, 8⟩
abbrev F.PLAN_STAT.LOADERR : Fld := ⟨R.PLAN_STAT, 7, 7⟩
abbrev F.PLAN_STAT.ARMERR : Fld := ⟨R.PLAN_STAT, 6, 6⟩
abbrev F.PLAN_STAT.OVRUN : Fld := ⟨R.PLAN_STAT, 5, 5⟩
abbrev F.PLAN_STAT.SWSEAL : Fld := ⟨R.PLAN_STAT, 4, 4⟩
abbrev F.PLAN_STAT.ACTSLOT : Fld := ⟨R.PLAN_STAT, 3, 3⟩
abbrev F.PLAN_STAT.STATE : Fld := ⟨R.PLAN_STAT, 2, 0⟩
/-- PLAN_ERRINFO (R40, 02). -/
abbrev R.PLAN_ERRINFO : Nat := 0x40001008
abbrev F.PLAN_ERRINFO.SLOT2 : Fld := ⟨R.PLAN_ERRINFO, 23, 12⟩
abbrev F.PLAN_ERRINFO.SLOT1 : Fld := ⟨R.PLAN_ERRINFO, 11, 0⟩
/-- PLAN_ERRPHASE (R40, 02). -/
abbrev R.PLAN_ERRPHASE : Nat := 0x4000100C
abbrev F.PLAN_ERRPHASE.HALF : Fld := ⟨R.PLAN_ERRPHASE, 10, 10⟩
abbrev F.PLAN_ERRPHASE.EPHASE : Fld := ⟨R.PLAN_ERRPHASE, 9, 0⟩
/-- PLAN_IDACT (R40, 02). -/
abbrev R.PLAN_IDACT : Nat := 0x40001010
abbrev F.PLAN_IDACT.PLAN_ID : Fld := ⟨R.PLAN_IDACT, 31, 0⟩
/-- PLAN_IDCAND (R40, 02). -/
abbrev R.PLAN_IDCAND : Nat := 0x40001014
abbrev F.PLAN_IDCAND.PLAN_ID : Fld := ⟨R.PLAN_IDCAND, 31, 0⟩
/-- PLAN_SWEPOCH_LO (R40, 02). -/
abbrev R.PLAN_SWEPOCH_LO : Nat := 0x40001018
abbrev F.PLAN_SWEPOCH_LO.SWEPOCH_LO : Fld := ⟨R.PLAN_SWEPOCH_LO, 31, 0⟩
/-- PLAN_SWEPOCH_HI (R40, 02). -/
abbrev R.PLAN_SWEPOCH_HI : Nat := 0x4000101C
abbrev F.PLAN_SWEPOCH_HI.SWEPOCH_HI : Fld := ⟨R.PLAN_SWEPOCH_HI, 15, 0⟩
/-- PLAN_IRQ (R40, 02). -/
abbrev R.PLAN_IRQ : Nat := 0x40001030
abbrev F.PLAN_IRQ.OVRUN : Fld := ⟨R.PLAN_IRQ, 7, 7⟩
abbrev F.PLAN_IRQ.JQ : Fld := ⟨R.PLAN_IRQ, 6, 6⟩
abbrev F.PLAN_IRQ.SEALWR : Fld := ⟨R.PLAN_IRQ, 5, 5⟩
abbrev F.PLAN_IRQ.CMT : Fld := ⟨R.PLAN_IRQ, 4, 4⟩
abbrev F.PLAN_IRQ.SWITCH : Fld := ⟨R.PLAN_IRQ, 3, 3⟩
abbrev F.PLAN_IRQ.CHK : Fld := ⟨R.PLAN_IRQ, 2, 2⟩
abbrev F.PLAN_IRQ.HALF : Fld := ⟨R.PLAN_IRQ, 1, 1⟩
abbrev F.PLAN_IRQ.EPOCH : Fld := ⟨R.PLAN_IRQ, 0, 0⟩
/-- PLAN_IRQEN (R40, 02). -/
abbrev R.PLAN_IRQEN : Nat := 0x40001034
/-- PLAN_COMMIT (R47, 02). -/
abbrev R.PLAN_COMMIT : Nat := 0x40001040
/-- PLAN_CMTSTAT (R47, 02). -/
abbrev R.PLAN_CMTSTAT : Nat := 0x40001044
abbrev F.PLAN_CMTSTAT.SEAL : Fld := ⟨R.PLAN_CMTSTAT, 30, 16⟩
abbrev F.PLAN_CMTSTAT.PEND : Fld := ⟨R.PLAN_CMTSTAT, 14, 0⟩
/-- PLAN_CMTERR (R47, 02). -/
abbrev R.PLAN_CMTERR : Nat := 0x40001048
abbrev F.PLAN_CMTERR.SEALGRP : Fld := ⟨R.PLAN_CMTERR, 11, 8⟩
abbrev F.PLAN_CMTERR.DROP : Fld := ⟨R.PLAN_CMTERR, 1, 1⟩
abbrev F.PLAN_CMTERR.SEALWR : Fld := ⟨R.PLAN_CMTERR, 0, 0⟩
/-- PLAN_CMTEPOCH (R47, 02). -/
abbrev R.PLAN_CMTEPOCH : Nat := 0x4000104C
abbrev F.PLAN_CMTEPOCH.EPOCH : Fld := ⟨R.PLAN_CMTEPOCH, 31, 0⟩
/-- PLAN_JQ_STAT (R52, 02). -/
abbrev R.PLAN_JQ_STAT : Nat := 0x40001080
abbrev F.PLAN_JQ_STAT.PRMUSE : Fld := ⟨R.PLAN_JQ_STAT, 17, 9⟩
abbrev F.PLAN_JQ_STAT.FREE : Fld := ⟨R.PLAN_JQ_STAT, 8, 0⟩
/-- PLAN_JQ_PRMMAX (R52, 02). -/
abbrev R.PLAN_JQ_PRMMAX : Nat := 0x40001084
abbrev F.PLAN_JQ_PRMMAX.PRMMAX : Fld := ⟨R.PLAN_JQ_PRMMAX, 8, 0⟩
/-- PLAN_JQ_DONE (R52, 02). -/
abbrev R.PLAN_JQ_DONE : Nat := 0x40001088
/-- PLAN_JQ_CANCEL (R52, 02). -/
abbrev R.PLAN_JQ_CANCEL : Nat := 0x4000108C
/-- FACET_KEYSTAT (R65, 03). -/
abbrev R.FACET_KEYSTAT : Nat := 0x40014040
/-- SYS_FWVER (R67, 03). -/
abbrev R.SYS_FWVER : Nat := 0x40013004
abbrev F.SYS_FWVER.PATCH_LVL : Fld := ⟨R.SYS_FWVER, 15, 0⟩
/-- NVM_IMG_CTRL (R69, 03). -/
abbrev R.NVM_IMG_CTRL : Nat := 0x4000C100
abbrev F.NVM_IMG_CTRL.TARGET : Fld := ⟨R.NVM_IMG_CTRL, 4, 4⟩
/-- NVM_IMG_STAT (R69, 03). -/
abbrev R.NVM_IMG_STAT : Nat := 0x4000C104
abbrev F.NVM_IMG_STAT.SKIP : Fld := ⟨R.NVM_IMG_STAT, 23, 16⟩
abbrev F.NVM_IMG_STAT.CODE : Fld := ⟨R.NVM_IMG_STAT, 15, 8⟩
abbrev F.NVM_IMG_STAT.WRPROT : Fld := ⟨R.NVM_IMG_STAT, 1, 1⟩
abbrev F.NVM_IMG_STAT.BUSY : Fld := ⟨R.NVM_IMG_STAT, 0, 0⟩
/-- NVM_IMG_SLOTA (R69, 03). -/
abbrev R.NVM_IMG_SLOTA : Nat := 0x4000C108
abbrev F.NVM_IMG_SLOTA.PRODUCT : Fld := ⟨R.NVM_IMG_SLOTA, 31, 16⟩
abbrev F.NVM_IMG_SLOTA.CODE : Fld := ⟨R.NVM_IMG_SLOTA, 15, 8⟩
abbrev F.NVM_IMG_SLOTA.STATE : Fld := ⟨R.NVM_IMG_SLOTA, 2, 0⟩
/-- NVM_IMG_SLOTB (R69, 03). -/
abbrev R.NVM_IMG_SLOTB : Nat := 0x4000C10C
abbrev F.NVM_IMG_SLOTB.PRODUCT : Fld := ⟨R.NVM_IMG_SLOTB, 31, 16⟩
abbrev F.NVM_IMG_SLOTB.CODE : Fld := ⟨R.NVM_IMG_SLOTB, 15, 8⟩
abbrev F.NVM_IMG_SLOTB.STATE : Fld := ⟨R.NVM_IMG_SLOTB, 2, 0⟩
/-- NVM_BOOTINFO (R71, 03). -/
abbrev R.NVM_BOOTINFO : Nat := 0x4000C110
abbrev F.NVM_BOOTINFO.FAILCODE : Fld := ⟨R.NVM_BOOTINFO, 15, 8⟩
abbrev F.NVM_BOOTINFO.FALLBACK : Fld := ⟨R.NVM_BOOTINFO, 7, 7⟩
abbrev F.NVM_BOOTINFO.TRY : Fld := ⟨R.NVM_BOOTINFO, 6, 5⟩
abbrev F.NVM_BOOTINFO.ACTIVE : Fld := ⟨R.NVM_BOOTINFO, 3, 2⟩
abbrev F.NVM_BOOTINFO.SRC : Fld := ⟨R.NVM_BOOTINFO, 1, 0⟩
/-- BOB_LVDS_CTRL (R88, 04). -/
abbrev R.BOB_LVDS_CTRL : Nat := 0x400020C0
/-- BOB_LVDS_STATn (R88, 04). -/
abbrev R.BOB_LVDS_STAT (n : Nat) : Nat := 0x400020E0 + 4 * n
abbrev F.BOB_LVDS_STAT.EYEMIN (n : Nat) : Fld := ⟨R.BOB_LVDS_STAT n, 23, 16⟩
abbrev F.BOB_LVDS_STAT.FPAIR (n : Nat) : Fld := ⟨R.BOB_LVDS_STAT n, 10, 8⟩
abbrev F.BOB_LVDS_STAT.FCODE (n : Nat) : Fld := ⟨R.BOB_LVDS_STAT n, 7, 4⟩
abbrev F.BOB_LVDS_STAT.STATE (n : Nat) : Fld := ⟨R.BOB_LVDS_STAT n, 1, 0⟩
/-- BOB_SIDX_LO (R89, 04). -/
abbrev R.BOB_SIDX_LO : Nat := 0x40002100
/-- BOB_SIDX_HI (R89, 04). -/
abbrev R.BOB_SIDX_HI : Nat := 0x40002104
/-- BOB_STRCFGn (R93, 04). -/
abbrev R.BOB_STRCFG (n : Nat) : Nat := 0x40002000 + 4 * n
abbrev F.BOB_STRCFG.INV (n : Nat) : Fld := ⟨R.BOB_STRCFG n, 3, 3⟩
abbrev F.BOB_STRCFG.FMT (n : Nat) : Fld := ⟨R.BOB_STRCFG n, 2, 1⟩
abbrev F.BOB_STRCFG.EN (n : Nat) : Fld := ⟨R.BOB_STRCFG n, 0, 0⟩
/-- BOB_IFn (R93, 04). -/
abbrev R.BOB_IF (n : Nat) : Nat := 0x400020A0 + 4 * n
/-- BOB_ALLOCw (R93, 04). -/
abbrev R.BOB_ALLOC (n : Nat) : Nat := 0x40002400 + 4 * n
/-- BOB_MAPSTAT (R93, 04). -/
abbrev R.BOB_MAPSTAT : Nat := 0x40002080
abbrev F.BOB_MAPSTAT.MISM : Fld := ⟨R.BOB_MAPSTAT, 31, 31⟩
abbrev F.BOB_MAPSTAT.MISMSTR : Fld := ⟨R.BOB_MAPSTAT, 26, 16⟩
abbrev F.BOB_MAPSTAT.CODE : Fld := ⟨R.BOB_MAPSTAT, 3, 0⟩
/-- BOB_CFGERR (R93, 04). -/
abbrev R.BOB_CFGERR : Nat := 0x40002084
abbrev F.BOB_CFGERR.REJ : Fld := ⟨R.BOB_CFGERR, 1, 1⟩
abbrev F.BOB_CFGERR.BADW : Fld := ⟨R.BOB_CFGERR, 0, 0⟩
/-- BOB_RINGn (R100, 04). -/
abbrev R.BOB_RING (n : Nat) : Nat := 0x40002020 + 4 * n
abbrev F.BOB_RING.RING (n : Nat) : Fld := ⟨R.BOB_RING n, 6, 0⟩
/-- BOB_STRSTATn (R100, 04). -/
abbrev R.BOB_STRSTAT (n : Nat) : Nat := 0x40002040 + 4 * n
abbrev F.BOB_STRSTAT.RINGACT (n : Nat) : Fld := ⟨R.BOB_STRSTAT n, 22, 16⟩
abbrev F.BOB_STRSTAT.TSG (n : Nat) : Fld := ⟨R.BOB_STRSTAT n, 6, 6⟩
abbrev F.BOB_STRSTAT.NORING (n : Nat) : Fld := ⟨R.BOB_STRSTAT n, 5, 5⟩
abbrev F.BOB_STRSTAT.EYEWARN (n : Nat) : Fld := ⟨R.BOB_STRSTAT n, 4, 4⟩
abbrev F.BOB_STRSTAT.STBLOSS (n : Nat) : Fld := ⟨R.BOB_STRSTAT n, 3, 3⟩
abbrev F.BOB_STRSTAT.SLIP (n : Nat) : Fld := ⟨R.BOB_STRSTAT n, 2, 2⟩
abbrev F.BOB_STRSTAT.ZFILL (n : Nat) : Fld := ⟨R.BOB_STRSTAT n, 1, 1⟩
abbrev F.BOB_STRSTAT.RUN (n : Nat) : Fld := ⟨R.BOB_STRSTAT n, 0, 0⟩
/-- BOB_ORGn (R100, 04). -/
abbrev R.BOB_ORG (n : Nat) : Nat := 0x40002060 + 4 * n
/-- BOB_PGMAPw (R100, 04). -/
abbrev R.BOB_PGMAP (n : Nat) : Nat := 0x40002200 + 4 * n
/-- BOB_CURSEL (R103, 04). -/
abbrev R.BOB_CURSEL : Nat := 0x40002110
abbrev F.BOB_CURSEL.TAG : Fld := ⟨R.BOB_CURSEL, 7, 0⟩
/-- BOB_CURSTAT (R103, 04). -/
abbrev R.BOB_CURSTAT : Nat := 0x40002114
/-- BOB_CURPOS_LO (R103, 04). -/
abbrev R.BOB_CURPOS_LO : Nat := 0x40002118
/-- BOB_CURPOS_HI (R103, 04). -/
abbrev R.BOB_CURPOS_HI : Nat := 0x4000211C
/-- BOB_SNAP_CTRL (R109, 04). -/
abbrev R.BOB_SNAP_CTRL : Nat := 0x40002140
/-- BOB_SNAP_CFG (R109, 04). -/
abbrev R.BOB_SNAP_CFG : Nat := 0x40002144
abbrev F.BOB_SNAP_CFG.FEWAIT : Fld := ⟨R.BOB_SNAP_CFG, 23, 16⟩
abbrev F.BOB_SNAP_CFG.FEOFF : Fld := ⟨R.BOB_SNAP_CFG, 15, 15⟩
abbrev F.BOB_SNAP_CFG.NEP : Fld := ⟨R.BOB_SNAP_CFG, 14, 8⟩
abbrev F.BOB_SNAP_CFG.MASK : Fld := ⟨R.BOB_SNAP_CFG, 7, 0⟩
/-- BOB_SNAP_START_LO (R109, 04). -/
abbrev R.BOB_SNAP_START_LO : Nat := 0x40002148
abbrev F.BOB_SNAP_START_LO.START : Fld := ⟨R.BOB_SNAP_START_LO, 31, 0⟩
/-- BOB_SNAP_START_HI (R109, 04). -/
abbrev R.BOB_SNAP_START_HI : Nat := 0x4000214C
abbrev F.BOB_SNAP_START_HI.START : Fld := ⟨R.BOB_SNAP_START_HI, 15, 0⟩
/-- BOB_SNAP_STAT (R109, 04). -/
abbrev R.BOB_SNAP_STAT : Nat := 0x40002150
abbrev F.BOB_SNAP_STAT.JOBS : Fld := ⟨R.BOB_SNAP_STAT, 23, 16⟩
abbrev F.BOB_SNAP_STAT.ZFILL : Fld := ⟨R.BOB_SNAP_STAT, 8, 8⟩
abbrev F.BOB_SNAP_STAT.RCODE : Fld := ⟨R.BOB_SNAP_STAT, 7, 4⟩
abbrev F.BOB_SNAP_STAT.REFUSED : Fld := ⟨R.BOB_SNAP_STAT, 3, 3⟩
abbrev F.BOB_SNAP_STAT.STATE : Fld := ⟨R.BOB_SNAP_STAT, 2, 0⟩
/-- FAB_SKSTAT (R111, 05). -/
abbrev R.FAB_SKSTAT : Nat := 0x40000000
abbrev F.FAB_SKSTAT.PWR : Fld := ⟨R.FAB_SKSTAT, 15, 8⟩
abbrev F.FAB_SKSTAT.USED : Fld := ⟨R.FAB_SKSTAT, 7, 0⟩
/-- STR_DESCERR (R121, 05). -/
abbrev R.STR_DESCERR : Nat := 0x40003000
abbrev F.STR_DESCERR.CODE : Fld := ⟨R.STR_DESCERR, 31, 28⟩
abbrev F.STR_DESCERR.COUNT : Fld := ⟨R.STR_DESCERR, 23, 16⟩
abbrev F.STR_DESCERR.STRAND : Fld := ⟨R.STR_DESCERR, 10, 0⟩
/-- STR_WBOVR (R121, 05). -/
abbrev R.STR_WBOVR : Nat := 0x40003008
abbrev F.STR_WBOVR.COUNT : Fld := ⟨R.STR_WBOVR, 23, 16⟩
abbrev F.STR_WBOVR.STRAND : Fld := ⟨R.STR_WBOVR, 10, 0⟩
/-- STR_ENCNT (R121, 05). -/
abbrev R.STR_ENCNT : Nat := 0x4000300C
abbrev F.STR_ENCNT.COUNT : Fld := ⟨R.STR_ENCNT, 11, 0⟩
/-- STR_IRQ (R121, 05). -/
abbrev R.STR_IRQ : Nat := 0x40003030
abbrev F.STR_IRQ.NOCODE : Fld := ⟨R.STR_IRQ, 4, 4⟩
abbrev F.STR_IRQ.SATD : Fld := ⟨R.STR_IRQ, 3, 3⟩
abbrev F.STR_IRQ.WBOVR : Fld := ⟨R.STR_IRQ, 2, 2⟩
abbrev F.STR_IRQ.CODEERR : Fld := ⟨R.STR_IRQ, 1, 1⟩
abbrev F.STR_IRQ.DESCERR : Fld := ⟨R.STR_IRQ, 0, 0⟩
/-- STR_IRQEN (R121, 05). -/
abbrev R.STR_IRQEN : Nat := 0x40003034
/-- STR_CODEERR (R130, 05). -/
abbrev R.STR_CODEERR : Nat := 0x40003004
abbrev F.STR_CODEERR.ENTRY : Fld := ⟨R.STR_CODEERR, 15, 8⟩
abbrev F.STR_CODEERR.HANKDEF : Fld := ⟨R.STR_CODEERR, 2, 2⟩
abbrev F.STR_CODEERR.DIRREF : Fld := ⟨R.STR_CODEERR, 1, 1⟩
abbrev F.STR_CODEERR.INUSE : Fld := ⟨R.STR_CODEERR, 0, 0⟩
/-- LPE_PLYCMD (R177, 06). -/
abbrev R.LPE_PLYCMD : Nat := 0x40005800
/-- LPE_BINDERR (R177, 06). -/
abbrev R.LPE_BINDERR : Nat := 0x40005804
abbrev F.LPE_BINDERR.CODE : Fld := ⟨R.LPE_BINDERR, 31, 28⟩
abbrev F.LPE_BINDERR.COUNT : Fld := ⟨R.LPE_BINDERR, 23, 16⟩
abbrev F.LPE_BINDERR.INDEX : Fld := ⟨R.LPE_BINDERR, 9, 0⟩
/-- LPE_COEFERR (R177, 06). -/
abbrev R.LPE_COEFERR : Nat := 0x40005808
abbrev F.LPE_COEFERR.CODE : Fld := ⟨R.LPE_COEFERR, 31, 28⟩
abbrev F.LPE_COEFERR.COUNT : Fld := ⟨R.LPE_COEFERR, 23, 16⟩
abbrev F.LPE_COEFERR.INDEX : Fld := ⟨R.LPE_COEFERR, 9, 0⟩
/-- LPE_LIFEERR (R177, 06). -/
abbrev R.LPE_LIFEERR : Nat := 0x4000580C
abbrev F.LPE_LIFEERR.CODE : Fld := ⟨R.LPE_LIFEERR, 31, 28⟩
abbrev F.LPE_LIFEERR.COUNT : Fld := ⟨R.LPE_LIFEERR, 23, 16⟩
abbrev F.LPE_LIFEERR.INDEX : Fld := ⟨R.LPE_LIFEERR, 9, 0⟩
/-- LPE_EVQ_LO (R177, 06). -/
abbrev R.LPE_EVQ_LO : Nat := 0x40005810
/-- LPE_EVQ_HI (R177, 06). -/
abbrev R.LPE_EVQ_HI : Nat := 0x40005814
/-- LPE_SYMQ_LO (R177, 06). -/
abbrev R.LPE_SYMQ_LO : Nat := 0x40005820
/-- LPE_SYMQ_HI (R177, 06). -/
abbrev R.LPE_SYMQ_HI : Nat := 0x40005824
/-- LPE_EVQ_STAT (R177, 06). -/
abbrev R.LPE_EVQ_STAT : Nat := 0x40005818
abbrev F.LPE_EVQ_STAT.DROP : Fld := ⟨R.LPE_EVQ_STAT, 31, 16⟩
abbrev F.LPE_EVQ_STAT.COUNT : Fld := ⟨R.LPE_EVQ_STAT, 12, 0⟩
/-- LPE_SYMQ_STAT (R177, 06). -/
abbrev R.LPE_SYMQ_STAT : Nat := 0x40005828
abbrev F.LPE_SYMQ_STAT.DROP : Fld := ⟨R.LPE_SYMQ_STAT, 31, 16⟩
abbrev F.LPE_SYMQ_STAT.COUNT : Fld := ⟨R.LPE_SYMQ_STAT, 12, 0⟩
/-- LPE_LOOPIRQ (R177, 06). -/
abbrev R.LPE_LOOPIRQ : Nat := 0x40005830
abbrev F.LPE_LOOPIRQ.SYMDROP : Fld := ⟨R.LPE_LOOPIRQ, 6, 6⟩
abbrev F.LPE_LOOPIRQ.EVDROP : Fld := ⟨R.LPE_LOOPIRQ, 5, 5⟩
abbrev F.LPE_LOOPIRQ.LIFEERR : Fld := ⟨R.LPE_LOOPIRQ, 4, 4⟩
abbrev F.LPE_LOOPIRQ.COEFERR : Fld := ⟨R.LPE_LOOPIRQ, 3, 3⟩
abbrev F.LPE_LOOPIRQ.BINDERR : Fld := ⟨R.LPE_LOOPIRQ, 2, 2⟩
abbrev F.LPE_LOOPIRQ.SYMQ : Fld := ⟨R.LPE_LOOPIRQ, 1, 1⟩
abbrev F.LPE_LOOPIRQ.EVQ : Fld := ⟨R.LPE_LOOPIRQ, 0, 0⟩
/-- LPE_LOOPIRQEN (R177, 06). -/
abbrev R.LPE_LOOPIRQEN : Nat := 0x40005834
/-- LPE_PLYCNT (R177, 06). -/
abbrev R.LPE_PLYCNT : Nat := 0x40005838
/-- FOC_CFG (R202, 07). -/
abbrev R.FOC_CFG : Nat := 0x40006000
abbrev F.FOC_CFG.MMAX : Fld := ⟨R.FOC_CFG, 22, 14⟩
abbrev F.FOC_CFG.FVSET : Fld := ⟨R.FOC_CFG, 13, 8⟩
abbrev F.FOC_CFG.REFANT : Fld := ⟨R.FOC_CFG, 7, 6⟩
abbrev F.FOC_CFG.AIDEN : Fld := ⟨R.FOC_CFG, 5, 5⟩
/-- FOC_STSEL_LO (R202, 07). -/
abbrev R.FOC_STSEL_LO : Nat := 0x40006004
abbrev F.FOC_STSEL_LO.SEL : Fld := ⟨R.FOC_STSEL_LO, 31, 0⟩
/-- FOC_STSEL_HI (R202, 07). -/
abbrev R.FOC_STSEL_HI : Nat := 0x40006008
abbrev F.FOC_STSEL_HI.SEL : Fld := ⟨R.FOC_STSEL_HI, 7, 0⟩
/-- FOC_LIM0 (R202, 07). -/
abbrev R.FOC_LIM0 : Nat := 0x4000600C
abbrev F.FOC_LIM0.FFMAX : Fld := ⟨R.FOC_LIM0, 7, 0⟩
abbrev F.FOC_LIM0.REJMAX : Fld := ⟨R.FOC_LIM0, 15, 8⟩
abbrev F.FOC_LIM0.MINROW : Fld := ⟨R.FOC_LIM0, 19, 16⟩
/-- FOC_LIM1 (R202, 07). -/
abbrev R.FOC_LIM1 : Nat := 0x40006010
abbrev F.FOC_LIM1.COASTLIM : Fld := ⟨R.FOC_LIM1, 15, 0⟩
abbrev F.FOC_LIM1.COASTAID : Fld := ⟨R.FOC_LIM1, 31, 16⟩
/-- FOC_LIM2 (R202, 07). -/
abbrev R.FOC_LIM2 : Nat := 0x40006014
abbrev F.FOC_LIM2.SVMAX : Fld := ⟨R.FOC_LIM2, 15, 0⟩
abbrev F.FOC_LIM2.FVLOCK : Fld := ⟨R.FOC_LIM2, 31, 16⟩
/-- FOC_PARn (R202, 07). -/
abbrev R.FOC_PAR (n : Nat) : Nat := 0x40006100 + 4 * n
/-- FOC_STAT (R202, 07). -/
abbrev R.FOC_STAT : Nat := 0x40006040
/-- FOC_CNT (R202, 07). -/
abbrev R.FOC_CNT : Nat := 0x40006044
/-- FOC_UPD (R202, 07). -/
abbrev R.FOC_UPD : Nat := 0x40006048
/-- FOC_DEM (R202, 07). -/
abbrev R.FOC_DEM : Nat := 0x4000604C
abbrev F.FOC_DEM.COUNT : Fld := ⟨R.FOC_DEM, 31, 24⟩
abbrev F.FOC_DEM.REASON : Fld := ⟨R.FOC_DEM, 18, 16⟩
abbrev F.FOC_DEM.PLY : Fld := ⟨R.FOC_DEM, 9, 0⟩
/-- FOC_AIDSTAT (R202, 07). -/
abbrev R.FOC_AIDSTAT : Nat := 0x40006050
abbrev F.FOC_AIDSTAT.OVF : Fld := ⟨R.FOC_AIDSTAT, 31, 24⟩
abbrev F.FOC_AIDSTAT.REJ : Fld := ⟨R.FOC_AIDSTAT, 23, 16⟩
abbrev F.FOC_AIDSTAT.LASTREJ : Fld := ⟨R.FOC_AIDSTAT, 15, 12⟩
abbrev F.FOC_AIDSTAT.FILL : Fld := ⟨R.FOC_AIDSTAT, 6, 0⟩
/-- FOC_CFGERR (R202, 07). -/
abbrev R.FOC_CFGERR : Nat := 0x40006054
abbrev F.FOC_CFGERR.CODE : Fld := ⟨R.FOC_CFGERR, 31, 28⟩
/-- FOC_MODEERR (R202, 07). -/
abbrev R.FOC_MODEERR : Nat := 0x40006058
abbrev F.FOC_MODEERR.CODE : Fld := ⟨R.FOC_MODEERR, 31, 28⟩
abbrev F.FOC_MODEERR.COUNT : Fld := ⟨R.FOC_MODEERR, 23, 16⟩
abbrev F.FOC_MODEERR.PLY : Fld := ⟨R.FOC_MODEERR, 9, 0⟩
/-- FOC_IRQ (R202, 07). -/
abbrev R.FOC_IRQ : Nat := 0x4000605C
abbrev F.FOC_IRQ.AIDLOST : Fld := ⟨R.FOC_IRQ, 6, 6⟩
abbrev F.FOC_IRQ.AIDREJ : Fld := ⟨R.FOC_IRQ, 5, 5⟩
abbrev F.FOC_IRQ.MODEERR : Fld := ⟨R.FOC_IRQ, 4, 4⟩
abbrev F.FOC_IRQ.CFGERR : Fld := ⟨R.FOC_IRQ, 3, 3⟩
abbrev F.FOC_IRQ.DEMOTE : Fld := ⟨R.FOC_IRQ, 2, 2⟩
abbrev F.FOC_IRQ.STATE : Fld := ⟨R.FOC_IRQ, 1, 1⟩
abbrev F.FOC_IRQ.UPD : Fld := ⟨R.FOC_IRQ, 0, 0⟩
/-- FOC_IRQEN (R202, 07). -/
abbrev R.FOC_IRQEN : Nat := 0x40006060
/-- FOC_AIDINn (R202, 07). -/
abbrev R.FOC_AIDIN (n : Nat) : Nat := 0x40006070 + 4 * n
/-- FOC_MODEw (R202, 07). -/
abbrev R.FOC_MODE (n : Nat) : Nat := 0x40006400 + 4 * n
/-- FOC_MODEACTw (R202, 07). -/
abbrev R.FOC_MODEACT (n : Nat) : Nat := 0x40006600 + 4 * n
/-- PRM_JDn (R219, 08). -/
abbrev R.PRM_JD (n : Nat) : Nat := 0x40004000 + 4 * n
/-- PRM_SUBMIT (R219, 08). -/
abbrev R.PRM_SUBMIT : Nat := 0x40004040
/-- PRM_SUBRES (R219, 08). -/
abbrev R.PRM_SUBRES : Nat := 0x40004044
abbrev F.PRM_SUBRES.VALID : Fld := ⟨R.PRM_SUBRES, 31, 31⟩
abbrev F.PRM_SUBRES.TAG : Fld := ⟨R.PRM_SUBRES, 15, 8⟩
abbrev F.PRM_SUBRES.CODE : Fld := ⟨R.PRM_SUBRES, 4, 0⟩
/-- PRM_STAT (R219, 08). -/
abbrev R.PRM_STAT : Nat := 0x40004048
abbrev F.PRM_STAT.ECC : Fld := ⟨R.PRM_STAT, 31, 24⟩
abbrev F.PRM_STAT.FREEPG : Fld := ⟨R.PRM_STAT, 22, 12⟩
abbrev F.PRM_STAT.RUN : Fld := ⟨R.PRM_STAT, 11, 11⟩
abbrev F.PRM_STAT.STEP : Fld := ⟨R.PRM_STAT, 10, 8⟩
abbrev F.PRM_STAT.TAG : Fld := ⟨R.PRM_STAT, 7, 0⟩
/-- PRM_IDLE (R219, 08). -/
abbrev R.PRM_IDLE : Nat := 0x4000404C
abbrev F.PRM_IDLE.FC : Fld := ⟨R.PRM_IDLE, 31, 0⟩
/-- PRM_DURSTAT (R219, 08). -/
abbrev R.PRM_DURSTAT : Nat := 0x40004050
abbrev F.PRM_DURSTAT.DURDEF : Fld := ⟨R.PRM_DURSTAT, 6, 6⟩
abbrev F.PRM_DURSTAT.RAISED : Fld := ⟨R.PRM_DURSTAT, 5, 0⟩
/-- PRM_IRQ (R219, 08). -/
abbrev R.PRM_IRQ : Nat := 0x40004060
abbrev F.PRM_IRQ.DURRAISE : Fld := ⟨R.PRM_IRQ, 2, 2⟩
abbrev F.PRM_IRQ.FAULT : Fld := ⟨R.PRM_IRQ, 1, 1⟩
abbrev F.PRM_IRQ.SUBREF : Fld := ⟨R.PRM_IRQ, 0, 0⟩
/-- PRM_IRQEN (R219, 08). -/
abbrev R.PRM_IRQEN : Nat := 0x40004064
/-- LPE_SLSTATk (R249, 09). -/
abbrev R.LPE_SLSTAT (n : Nat) : Nat := 0x40005000 + 4 * n
abbrev F.LPE_SLSTAT.PROG (n : Nat) : Fld := ⟨R.LPE_SLSTAT n, 23, 16⟩
abbrev F.LPE_SLSTAT.KIND (n : Nat) : Fld := ⟨R.LPE_SLSTAT n, 15, 12⟩
abbrev F.LPE_SLSTAT.BANK (n : Nat) : Fld := ⟨R.LPE_SLSTAT n, 11, 11⟩
abbrev F.LPE_SLSTAT.UNPL (n : Nat) : Fld := ⟨R.LPE_SLSTAT n, 10, 10⟩
abbrev F.LPE_SLSTAT.DZS (n : Nat) : Fld := ⟨R.LPE_SLSTAT n, 9, 9⟩
abbrev F.LPE_SLSTAT.GOVS (n : Nat) : Fld := ⟨R.LPE_SLSTAT n, 8, 8⟩
abbrev F.LPE_SLSTAT.SATS (n : Nat) : Fld := ⟨R.LPE_SLSTAT n, 7, 7⟩
abbrev F.LPE_SLSTAT.LCLAMP (n : Nat) : Fld := ⟨R.LPE_SLSTAT n, 6, 6⟩
abbrev F.LPE_SLSTAT.WCOL (n : Nat) : Fld := ⟨R.LPE_SLSTAT n, 5, 5⟩
abbrev F.LPE_SLSTAT.GERR (n : Nat) : Fld := ⟨R.LPE_SLSTAT n, 4, 4⟩
abbrev F.LPE_SLSTAT.PORTERR (n : Nat) : Fld := ⟨R.LPE_SLSTAT n, 3, 3⟩
abbrev F.LPE_SLSTAT.DBPEND (n : Nat) : Fld := ⟨R.LPE_SLSTAT n, 2, 2⟩
abbrev F.LPE_SLSTAT.RUN (n : Nat) : Fld := ⟨R.LPE_SLSTAT n, 0, 0⟩
/-- LPE_PROGERR (R249, 09). -/
abbrev R.LPE_PROGERR : Nat := 0x40005040
abbrev F.LPE_PROGERR.CODE : Fld := ⟨R.LPE_PROGERR, 31, 28⟩
abbrev F.LPE_PROGERR.SLICE : Fld := ⟨R.LPE_PROGERR, 27, 24⟩
abbrev F.LPE_PROGERR.PROG : Fld := ⟨R.LPE_PROGERR, 23, 18⟩
abbrev F.LPE_PROGERR.SEC : Fld := ⟨R.LPE_PROGERR, 17, 17⟩
abbrev F.LPE_PROGERR.BUNDLE : Fld := ⟨R.LPE_PROGERR, 12, 0⟩
/-- LPE_DBELLk (R249, 09). -/
abbrev R.LPE_DBELL (n : Nat) : Nat := 0x40005080 + 4 * n
abbrev F.LPE_DBELL.DBOVR (n : Nat) : Fld := ⟨R.LPE_DBELL n, 9, 9⟩
abbrev F.LPE_DBELL.PEND (n : Nat) : Fld := ⟨R.LPE_DBELL n, 8, 8⟩
abbrev F.LPE_DBELL.CODE (n : Nat) : Fld := ⟨R.LPE_DBELL n, 7, 0⟩
/-- LPE_IRQ (R249, 09). -/
abbrev R.LPE_IRQ : Nat := 0x400050C0
abbrev F.LPE_IRQ.DBOVR : Fld := ⟨R.LPE_IRQ, 6, 6⟩
abbrev F.LPE_IRQ.FLAG : Fld := ⟨R.LPE_IRQ, 5, 5⟩
abbrev F.LPE_IRQ.LCLAMP : Fld := ⟨R.LPE_IRQ, 4, 4⟩
abbrev F.LPE_IRQ.WCOL : Fld := ⟨R.LPE_IRQ, 3, 3⟩
abbrev F.LPE_IRQ.GERR : Fld := ⟨R.LPE_IRQ, 2, 2⟩
abbrev F.LPE_IRQ.PORTERR : Fld := ⟨R.LPE_IRQ, 1, 1⟩
abbrev F.LPE_IRQ.PROGERR : Fld := ⟨R.LPE_IRQ, 0, 0⟩
/-- LPE_IRQEN (R249, 09). -/
abbrev R.LPE_IRQEN : Nat := 0x400050C4
/-- PLAN_OGCFGg (R269, 10). -/
abbrev R.PLAN_OGCFG (n : Nat) : Nat := 0x40001100 + 4 * n
abbrev F.PLAN_OGCFG.FOLEN (n : Nat) : Fld := ⟨R.PLAN_OGCFG n, 15, 15⟩
abbrev F.PLAN_OGCFG.EN (n : Nat) : Fld := ⟨R.PLAN_OGCFG n, 14, 14⟩
abbrev F.PLAN_OGCFG.PERIOD (n : Nat) : Fld := ⟨R.PLAN_OGCFG n, 13, 10⟩
abbrev F.PLAN_OGCFG.PHASE (n : Nat) : Fld := ⟨R.PLAN_OGCFG n, 9, 0⟩
/-- PLAN_OUTCFG (R269, 10). -/
abbrev R.PLAN_OUTCFG : Nat := 0x40001140
abbrev F.PLAN_OUTCFG.LS : Fld := ⟨R.PLAN_OUTCFG, 10, 3⟩
abbrev F.PLAN_OUTCFG.TSOUT : Fld := ⟨R.PLAN_OUTCFG, 2, 0⟩
/-- PLAN_RXBASE_LO (R269, 10). -/
abbrev R.PLAN_RXBASE_LO : Nat := 0x40001148
abbrev F.PLAN_RXBASE_LO.RXBASE_LO : Fld := ⟨R.PLAN_RXBASE_LO, 31, 0⟩
/-- PLAN_RXBASE_HI (R269, 10). -/
abbrev R.PLAN_RXBASE_HI : Nat := 0x4000114C
abbrev F.PLAN_RXBASE_HI.RXBV : Fld := ⟨R.PLAN_RXBASE_HI, 31, 31⟩
abbrev F.PLAN_RXBASE_HI.RXBASE_HI : Fld := ⟨R.PLAN_RXBASE_HI, 15, 0⟩
/-- PLAN_ORD (R269, 10). -/
abbrev R.PLAN_ORD : Nat := 0x40001150
abbrev F.PLAN_ORD.ORD : Fld := ⟨R.PLAN_ORD, 11, 0⟩
/-- PLAN_OWR (R269, 10). -/
abbrev R.PLAN_OWR : Nat := 0x40001154
abbrev F.PLAN_OWR.OWR : Fld := ⟨R.PLAN_OWR, 11, 0⟩
/-- PLAN_OSTAT (R269, 10). -/
abbrev R.PLAN_OSTAT : Nat := 0x40001158
abbrev F.PLAN_OSTAT.ODROP : Fld := ⟨R.PLAN_OSTAT, 31, 24⟩
abbrev F.PLAN_OSTAT.TRUNC : Fld := ⟨R.PLAN_OSTAT, 23, 13⟩
/-- PLAN_OUTERR (R269, 10). -/
abbrev R.PLAN_OUTERR : Nat := 0x4000115C
abbrev F.PLAN_OUTERR.SLOTLESS : Fld := ⟨R.PLAN_OUTERR, 31, 16⟩
abbrev F.PLAN_OUTERR.CODE : Fld := ⟨R.PLAN_OUTERR, 15, 12⟩
abbrev F.PLAN_OUTERR.GRP : Fld := ⟨R.PLAN_OUTERR, 3, 0⟩
/-- FLY_STAT (R294, 11). -/
abbrev R.FLY_STAT : Nat := 0x40007000
abbrev F.FLY_STAT.TPACT : Fld := ⟨R.FLY_STAT, 15, 12⟩
abbrev F.FLY_STAT.PRIORDEF : Fld := ⟨R.FLY_STAT, 11, 11⟩
abbrev F.FLY_STAT.TMRF : Fld := ⟨R.FLY_STAT, 10, 10⟩
abbrev F.FLY_STAT.TSOLD : Fld := ⟨R.FLY_STAT, 9, 9⟩
abbrev F.FLY_STAT.STEPPEND : Fld := ⟨R.FLY_STAT, 8, 8⟩
abbrev F.FLY_STAT.SLEW : Fld := ⟨R.FLY_STAT, 7, 4⟩
abbrev F.FLY_STAT.STATE : Fld := ⟨R.FLY_STAT, 2, 0⟩
/-- FLY_UNC (R294, 11). -/
abbrev R.FLY_UNC : Nat := 0x40007004
abbrev F.FLY_UNC.UNC : Fld := ⟨R.FLY_UNC, 31, 0⟩
/-- FLY_HOLDT (R294, 11). -/
abbrev R.FLY_HOLDT : Nat := 0x40007008
/-- FLY_STEP (R294, 11). -/
abbrev R.FLY_STEP : Nat := 0x4000700C
abbrev F.FLY_STEP.TPMASK : Fld := ⟨R.FLY_STEP, 31, 28⟩
abbrev F.FLY_STEP.PEND : Fld := ⟨R.FLY_STEP, 27, 27⟩
abbrev F.FLY_STEP.AMOUNT : Fld := ⟨R.FLY_STEP, 26, 0⟩
/-- FLY_FREQ (R294, 11). -/
abbrev R.FLY_FREQ : Nat := 0x40007010
/-- FLY_DRIFT (R294, 11). -/
abbrev R.FLY_DRIFT : Nat := 0x40007014
/-- FLY_KT (R294, 11). -/
abbrev R.FLY_KT : Nat := 0x40007018
/-- FLY_CFG (R294, 11). -/
abbrev R.FLY_CFG : Nat := 0x40007020
abbrev F.FLY_CFG.HOLDDLY : Fld := ⟨R.FLY_CFG, 23, 16⟩
abbrev F.FLY_CFG.ACCLIM : Fld := ⟨R.FLY_CFG, 15, 8⟩
abbrev F.FLY_CFG.RETN : Fld := ⟨R.FLY_CFG, 7, 4⟩
abbrev F.FLY_CFG.HOLDACT : Fld := ⟨R.FLY_CFG, 1, 0⟩
/-- FLY_HOLDLIM (R294, 11). -/
abbrev R.FLY_HOLDLIM : Nat := 0x40007024
abbrev F.FLY_HOLDLIM.HOLDLIM : Fld := ⟨R.FLY_HOLDLIM, 31, 0⟩
/-- FLY_UNCLIM (R294, 11). -/
abbrev R.FLY_UNCLIM : Nat := 0x40007028
abbrev F.FLY_UNCLIM.UNCLIM : Fld := ⟨R.FLY_UNCLIM, 31, 0⟩
/-- FLY_STEPTHR (R294, 11). -/
abbrev R.FLY_STEPTHR : Nat := 0x4000702C
abbrev F.FLY_STEPTHR.STEPTHR : Fld := ⟨R.FLY_STEPTHR, 31, 0⟩
/-- FLY_SLEW (R294, 11). -/
abbrev R.FLY_SLEW : Nat := 0x40007030
abbrev F.FLY_SLEW.SLEW : Fld := ⟨R.FLY_SLEW, 31, 0⟩
/-- FLY_TPn_CFG (R294, 11). -/
abbrev R.FLY_TP_CFG (n : Nat) : Nat := 0x40007040 + 8 * n
abbrev F.FLY_TP_CFG.MSG (n : Nat) : Fld := ⟨R.FLY_TP_CFG n, 8, 8⟩
abbrev F.FLY_TP_CFG.MODE (n : Nat) : Fld := ⟨R.FLY_TP_CFG n, 1, 0⟩
/-- FLY_TPn_WID (R294, 11). -/
abbrev R.FLY_TP_WID (n : Nat) : Nat := 0x40007044 + 8 * n
abbrev F.FLY_TP_WID.MWID (n : Nat) : Fld := ⟨R.FLY_TP_WID n, 31, 16⟩
abbrev F.FLY_TP_WID.WIDTH (n : Nat) : Fld := ⟨R.FLY_TP_WID n, 15, 0⟩
/-- FLY_TPn_OFS (R294, 11). -/
abbrev R.FLY_TP_OFS (n : Nat) : Nat := 0x40007060 + 4 * n
/-- FLY_TSCFG (R294, 11). -/
abbrev R.FLY_TSCFG : Nat := 0x40007070
abbrev F.FLY_TSCFG.TS0 : Fld := ⟨R.FLY_TSCFG, 2, 0⟩
/-- FLY_ANTDLYa (R294, 11). -/
abbrev R.FLY_ANTDLY (n : Nat) : Nat := 0x40007080 + 4 * n
/-- FLY_TPDLYn (R294, 11). -/
abbrev R.FLY_TPDLY (n : Nat) : Nat := 0x40007090 + 4 * n
/-- FLY_CFGERR (R294, 11). -/
abbrev R.FLY_CFGERR : Nat := 0x400070A0
abbrev F.FLY_CFGERR.GRP : Fld := ⟨R.FLY_CFGERR, 11, 8⟩
abbrev F.FLY_CFGERR.TP : Fld := ⟨R.FLY_CFGERR, 7, 4⟩
abbrev F.FLY_CFGERR.CODE : Fld := ⟨R.FLY_CFGERR, 3, 0⟩
/-- FLY_EVCFG (R294, 11). -/
abbrev R.FLY_EVCFG : Nat := 0x400070B0
/-- FLY_EVSTAT (R294, 11). -/
abbrev R.FLY_EVSTAT : Nat := 0x400070B4
abbrev F.FLY_EVSTAT.DROP : Fld := ⟨R.FLY_EVSTAT, 31, 24⟩
abbrev F.FLY_EVSTAT.CLOSE : Fld := ⟨R.FLY_EVSTAT, 23, 16⟩
abbrev F.FLY_EVSTAT.FILL : Fld := ⟨R.FLY_EVSTAT, 8, 0⟩
/-- FLY_EVQ0 (R294, 11). -/
abbrev R.FLY_EVQ0 : Nat := 0x400070C0
/-- FLY_EVQ1 (R294, 11). -/
abbrev R.FLY_EVQ1 : Nat := 0x400070C4
/-- FLY_EVQ2 (R294, 11). -/
abbrev R.FLY_EVQ2 : Nat := 0x400070C8
/-- FLY_EVQ3 (R294, 11). -/
abbrev R.FLY_EVQ3 : Nat := 0x400070CC
/-- FLY_TMR (R294, 11). -/
abbrev R.FLY_TMR : Nat := 0x400070D0
abbrev F.FLY_TMR.COUNT : Fld := ⟨R.FLY_TMR, 15, 0⟩
/-- FLY_IRQ (R294, 11). -/
abbrev R.FLY_IRQ : Nat := 0x400070E0
abbrev F.FLY_IRQ.TMR : Fld := ⟨R.FLY_IRQ, 7, 7⟩
abbrev F.FLY_IRQ.EVDROP : Fld := ⟨R.FLY_IRQ, 6, 6⟩
abbrev F.FLY_IRQ.EVQ : Fld := ⟨R.FLY_IRQ, 5, 5⟩
abbrev F.FLY_IRQ.CFGERR : Fld := ⟨R.FLY_IRQ, 4, 4⟩
abbrev F.FLY_IRQ.STEPDONE : Fld := ⟨R.FLY_IRQ, 3, 3⟩
abbrev F.FLY_IRQ.STEP : Fld := ⟨R.FLY_IRQ, 2, 2⟩
abbrev F.FLY_IRQ.LIMIT : Fld := ⟨R.FLY_IRQ, 1, 1⟩
abbrev F.FLY_IRQ.STATE : Fld := ⟨R.FLY_IRQ, 0, 0⟩
/-- FLY_IRQEN (R294, 11). -/
abbrev R.FLY_IRQEN : Nat := 0x400070E4
/-- REEL_START (R310, 12). -/
abbrev R.REEL_START : Nat := 0x40008000
/-- REEL_STOP (R310, 12). -/
abbrev R.REEL_STOP : Nat := 0x40008004
/-- REEL_STAT (R310, 12). -/
abbrev R.REEL_STAT : Nat := 0x40008008
abbrev F.REEL_STAT.MKHIT : Fld := ⟨R.REEL_STAT, 31, 24⟩
abbrev F.REEL_STAT.PAST : Fld := ⟨R.REEL_STAT, 23, 16⟩
abbrev F.REEL_STAT.ARMED : Fld := ⟨R.REEL_STAT, 15, 8⟩
abbrev F.REEL_STAT.RUN : Fld := ⟨R.REEL_STAT, 7, 0⟩
/-- REEL_WHI (R310, 12). -/
abbrev R.REEL_WHI : Nat := 0x4000800C
/-- REEL_CAPSTAT (R310, 12). -/
abbrev R.REEL_CAPSTAT : Nat := 0x40008010
abbrev F.REEL_CAPSTAT.CAPOVR : Fld := ⟨R.REEL_CAPSTAT, 15, 8⟩
abbrev F.REEL_CAPSTAT.CAPF : Fld := ⟨R.REEL_CAPSTAT, 7, 0⟩
/-- REEL_MKRATE (R310, 12). -/
abbrev R.REEL_MKRATE : Nat := 0x40008014
/-- REEL_MKERR (R310, 12). -/
abbrev R.REEL_MKERR : Nat := 0x40008018
abbrev F.REEL_MKERR.INVAL : Fld := ⟨R.REEL_MKERR, 31, 31⟩
abbrev F.REEL_MKERR.ERR : Fld := ⟨R.REEL_MKERR, 23, 0⟩
/-- REEL_MKAMT_LO (R310, 12). -/
abbrev R.REEL_MKAMT_LO : Nat := 0x4000801C
/-- REEL_MKAMT_HI (R310, 12). -/
abbrev R.REEL_MKAMT_HI : Nat := 0x40008020
/-- REEL_MKFRAC (R310, 12). -/
abbrev R.REEL_MKFRAC : Nat := 0x40008024
abbrev F.REEL_MKFRAC.FRAC : Fld := ⟨R.REEL_MKFRAC, 15, 0⟩
/-- REEL_IRQ (R310, 12). -/
abbrev R.REEL_IRQ : Nat := 0x40008030
abbrev F.REEL_IRQ.WRUN : Fld := ⟨R.REEL_IRQ, 20, 20⟩
abbrev F.REEL_IRQ.MKINV : Fld := ⟨R.REEL_IRQ, 19, 19⟩
abbrev F.REEL_IRQ.MKHIT : Fld := ⟨R.REEL_IRQ, 18, 18⟩
abbrev F.REEL_IRQ.CAPOVR : Fld := ⟨R.REEL_IRQ, 17, 17⟩
abbrev F.REEL_IRQ.PAST : Fld := ⟨R.REEL_IRQ, 16, 16⟩
abbrev F.REEL_IRQ.CAP : Fld := ⟨R.REEL_IRQ, 15, 8⟩
abbrev F.REEL_IRQ.MATCH : Fld := ⟨R.REEL_IRQ, 7, 0⟩
/-- REEL_IRQEN (R310, 12). -/
abbrev R.REEL_IRQEN : Nat := 0x40008034
/-- MIR_STAT (R341, 13). -/
abbrev R.MIR_STAT : Nat := 0x40009000
abbrev F.MIR_STAT.LOST : Fld := ⟨R.MIR_STAT, 10, 8⟩
abbrev F.MIR_STAT.DSTREC : Fld := ⟨R.MIR_STAT, 4, 4⟩
abbrev F.MIR_STAT.RESEED : Fld := ⟨R.MIR_STAT, 3, 3⟩
abbrev F.MIR_STAT.RPACT : Fld := ⟨R.MIR_STAT, 2, 2⟩
abbrev F.MIR_STAT.SUPP : Fld := ⟨R.MIR_STAT, 1, 1⟩
abbrev F.MIR_STAT.REC : Fld := ⟨R.MIR_STAT, 0, 0⟩
/-- MIR_FAULT (R341, 13). -/
abbrev R.MIR_FAULT : Nat := 0x40009004
abbrev F.MIR_FAULT.SRC : Fld := ⟨R.MIR_FAULT, 31, 28⟩
abbrev F.MIR_FAULT.PAIR : Fld := ⟨R.MIR_FAULT, 27, 24⟩
/-- MIR_FEPOCH (R341, 13). -/
abbrev R.MIR_FEPOCH : Nat := 0x40009008
/-- MIR_CNT (R341, 13). -/
abbrev R.MIR_CNT : Nat := 0x4000900C
abbrev F.MIR_CNT.ROLLBACK : Fld := ⟨R.MIR_CNT, 31, 16⟩
abbrev F.MIR_CNT.ABAND : Fld := ⟨R.MIR_CNT, 15, 8⟩
abbrev F.MIR_CNT.RESEED : Fld := ⟨R.MIR_CNT, 7, 0⟩
/-- MIR_ECC (R341, 13). -/
abbrev R.MIR_ECC : Nat := 0x40009010
abbrev F.MIR_ECC.CORR : Fld := ⟨R.MIR_ECC, 31, 16⟩
abbrev F.MIR_ECC.UNCORR : Fld := ⟨R.MIR_ECC, 15, 8⟩
abbrev F.MIR_ECC.MEM : Fld := ⟨R.MIR_ECC, 3, 0⟩
/-- MIR_CFG (R341, 13). -/
abbrev R.MIR_CFG : Nat := 0x40009014
abbrev F.MIR_CFG.REPEN : Fld := ⟨R.MIR_CFG, 8, 8⟩
abbrev F.MIR_CFG.RBLIM : Fld := ⟨R.MIR_CFG, 2, 0⟩
/-- MIR_DIGSTAT (R341, 13). -/
abbrev R.MIR_DIGSTAT : Nat := 0x40009018
abbrev F.MIR_DIGSTAT.MISM : Fld := ⟨R.MIR_DIGSTAT, 9, 0⟩
/-- MIR_INJ (R341, 13). -/
abbrev R.MIR_INJ : Nat := 0x40009020
/-- MIR_RPSTAT (R341, 13). -/
abbrev R.MIR_RPSTAT : Nat := 0x40009024
abbrev F.MIR_RPSTAT.NOREP : Fld := ⟨R.MIR_RPSTAT, 15, 8⟩
abbrev F.MIR_RPSTAT.REASON : Fld := ⟨R.MIR_RPSTAT, 3, 0⟩
/-- MIR_IRQ (R341, 13). -/
abbrev R.MIR_IRQ : Nat := 0x40009030
abbrev F.MIR_IRQ.ECCU : Fld := ⟨R.MIR_IRQ, 6, 6⟩
abbrev F.MIR_IRQ.DSTCOLD : Fld := ⟨R.MIR_IRQ, 5, 5⟩
abbrev F.MIR_IRQ.DSTWARM : Fld := ⟨R.MIR_IRQ, 4, 4⟩
abbrev F.MIR_IRQ.ABAND : Fld := ⟨R.MIR_IRQ, 3, 3⟩
abbrev F.MIR_IRQ.RESEED : Fld := ⟨R.MIR_IRQ, 2, 2⟩
abbrev F.MIR_IRQ.RECOV : Fld := ⟨R.MIR_IRQ, 1, 1⟩
abbrev F.MIR_IRQ.FAULT : Fld := ⟨R.MIR_IRQ, 0, 0⟩
/-- MIR_IRQEN (R341, 13). -/
abbrev R.MIR_IRQEN : Nat := 0x40009034
/-- SYS_ACCERR (R341, 13). -/
abbrev R.SYS_ACCERR : Nat := 0x40013040
abbrev F.SYS_ACCERR.VALID : Fld := ⟨R.SYS_ACCERR, 31, 31⟩
abbrev F.SYS_ACCERR.COUNT : Fld := ⟨R.SYS_ACCERR, 23, 16⟩
abbrev F.SYS_ACCERR.ISL : Fld := ⟨R.SYS_ACCERR, 15, 12⟩
abbrev F.SYS_ACCERR.CAUSE : Fld := ⟨R.SYS_ACCERR, 11, 11⟩
abbrev F.SYS_ACCERR.WR : Fld := ⟨R.SYS_ACCERR, 10, 10⟩
abbrev F.SYS_ACCERR.BLOCK : Fld := ⟨R.SYS_ACCERR, 5, 0⟩
/-- SYS_ACCADDR (R341, 13). -/
abbrev R.SYS_ACCADDR : Nat := 0x40013044
/-- SYS_ACCCFG (R341, 13). -/
abbrev R.SYS_ACCCFG : Nat := 0x40013048
/-- PWR_STAT (R367, 14). -/
abbrev R.PWR_STAT : Nat := 0x4000A000
abbrev F.PWR_STAT.RCODE : Fld := ⟨R.PWR_STAT, 11, 8⟩
abbrev F.PWR_STAT.REFUSED : Fld := ⟨R.PWR_STAT, 7, 7⟩
abbrev F.PWR_STAT.OFFPH : Fld := ⟨R.PWR_STAT, 6, 6⟩
abbrev F.PWR_STAT.RUNHI : Fld := ⟨R.PWR_STAT, 5, 5⟩
abbrev F.PWR_STAT.STATE : Fld := ⟨R.PWR_STAT, 2, 0⟩
/-- PWR_CTRL (R367, 14). -/
abbrev R.PWR_CTRL : Nat := 0x4000A004
/-- PWR_CFG (R367, 14). -/
abbrev R.PWR_CFG : Nat := 0x4000A008
abbrev F.PWR_CFG.BBMODE : Fld := ⟨R.PWR_CFG, 3, 3⟩
abbrev F.PWR_CFG.COREOFF : Fld := ⟨R.PWR_CFG, 2, 2⟩
abbrev F.PWR_CFG.HIBEN : Fld := ⟨R.PWR_CFG, 1, 1⟩
abbrev F.PWR_CFG.DOZEEN : Fld := ⟨R.PWR_CFG, 0, 0⟩
/-- PWR_DOZECFG (R367, 14). -/
abbrev R.PWR_DOZECFG : Nat := 0x4000A00C
abbrev F.PWR_DOZECFG.DOZEON : Fld := ⟨R.PWR_DOZECFG, 22, 16⟩
abbrev F.PWR_DOZECFG.PER : Fld := ⟨R.PWR_DOZECFG, 13, 0⟩
/-- PWR_DOZEIDLE (R367, 14). -/
abbrev R.PWR_DOZEIDLE : Nat := 0x4000A010
/-- PWR_HIBIDLE (R367, 14). -/
abbrev R.PWR_HIBIDLE : Nat := 0x4000A014
/-- PWR_IDLECNT (R367, 14). -/
abbrev R.PWR_IDLECNT : Nat := 0x4000A018
/-- PWR_WAKEEN (R367, 14). -/
abbrev R.PWR_WAKEEN : Nat := 0x4000A01C
abbrev F.PWR_WAKEEN.SRC : Fld := ⟨R.PWR_WAKEEN, 5, 0⟩
/-- PWR_WAKE (R367, 14). -/
abbrev R.PWR_WAKE : Nat := 0x4000A020
abbrev F.PWR_WAKE.SRC : Fld := ⟨R.PWR_WAKE, 5, 0⟩
/-- PWR_WAKETICK_LO (R367, 14). -/
abbrev R.PWR_WAKETICK_LO : Nat := 0x4000A024
/-- PWR_WAKETICK_HI (R367, 14). -/
abbrev R.PWR_WAKETICK_HI : Nat := 0x4000A028
/-- PWR_VCWAIT (R367, 14). -/
abbrev R.PWR_VCWAIT : Nat := 0x4000A02C
/-- PWR_FEWAIT (R367, 14). -/
abbrev R.PWR_FEWAIT : Nat := 0x4000A030
/-- PWR_RSTCAUSE (R367, 14). -/
abbrev R.PWR_RSTCAUSE : Nat := 0x4000A034
abbrev F.PWR_RSTCAUSE.CAUSE : Fld := ⟨R.PWR_RSTCAUSE, 2, 0⟩
/-- PWR_SUPSTAT (R367, 14). -/
abbrev R.PWR_SUPSTAT : Nat := 0x4000A038
abbrev F.PWR_SUPSTAT.WHLSRC : Fld := ⟨R.PWR_SUPSTAT, 7, 7⟩
abbrev F.PWR_SUPSTAT.OK : Fld := ⟨R.PWR_SUPSTAT, 6, 0⟩
/-- PWR_IRQ (R367, 14). -/
abbrev R.PWR_IRQ : Nat := 0x4000A040
abbrev F.PWR_IRQ.TPAST : Fld := ⟨R.PWR_IRQ, 5, 5⟩
abbrev F.PWR_IRQ.SUPPLY : Fld := ⟨R.PWR_IRQ, 4, 4⟩
abbrev F.PWR_IRQ.REFUSED : Fld := ⟨R.PWR_IRQ, 3, 3⟩
abbrev F.PWR_IRQ.BIAS : Fld := ⟨R.PWR_IRQ, 2, 2⟩
abbrev F.PWR_IRQ.WAKE : Fld := ⟨R.PWR_IRQ, 1, 1⟩
abbrev F.PWR_IRQ.STATE : Fld := ⟨R.PWR_IRQ, 0, 0⟩
/-- PWR_IRQEN (R367, 14). -/
abbrev R.PWR_IRQEN : Nat := 0x4000A044
/-- WHL_STAT (R389, 15). -/
abbrev R.WHL_STAT : Nat := 0x4000B000
abbrev F.WHL_STAT.BADW : Fld := ⟨R.WHL_STAT, 6, 6⟩
abbrev F.WHL_STAT.BRERR : Fld := ⟨R.WHL_STAT, 5, 5⟩
abbrev F.WHL_STAT.CNTERR : Fld := ⟨R.WHL_STAT, 4, 4⟩
abbrev F.WHL_STAT.CURVDEF : Fld := ⟨R.WHL_STAT, 3, 3⟩
abbrev F.WHL_STAT.CURVPEND : Fld := ⟨R.WHL_STAT, 2, 2⟩
abbrev F.WHL_STAT.WPEND : Fld := ⟨R.WHL_STAT, 1, 1⟩
abbrev F.WHL_STAT.SRC : Fld := ⟨R.WHL_STAT, 0, 0⟩
/-- WHL_TRUST (R389, 15). -/
abbrev R.WHL_TRUST : Nat := 0x4000B004
abbrev F.WHL_TRUST.SWO : Fld := ⟨R.WHL_TRUST, 7, 7⟩
abbrev F.WHL_TRUST.BOR : Fld := ⟨R.WHL_TRUST, 6, 6⟩
abbrev F.WHL_TRUST.LBV : Fld := ⟨R.WHL_TRUST, 5, 5⟩
abbrev F.WHL_TRUST.OSF : Fld := ⟨R.WHL_TRUST, 4, 4⟩
abbrev F.WHL_TRUST.SUM : Fld := ⟨R.WHL_TRUST, 1, 0⟩
/-- WHL_CNT_LO (R389, 15). -/
abbrev R.WHL_CNT_LO : Nat := 0x4000B008
/-- WHL_CNT_HI (R389, 15). -/
abbrev R.WHL_CNT_HI : Nat := 0x4000B00C
/-- WHL_TSIDX_LO (R389, 15). -/
abbrev R.WHL_TSIDX_LO : Nat := 0x4000B010
/-- WHL_TSIDX_HI (R389, 15). -/
abbrev R.WHL_TSIDX_HI : Nat := 0x4000B014
/-- WHL_WDAY (R389, 15). -/
abbrev R.WHL_WDAY : Nat := 0x4000B018
abbrev F.WHL_WDAY.WDAY : Fld := ⟨R.WHL_WDAY, 2, 0⟩
/-- WHL_DAYPHASE (R389, 15). -/
abbrev R.WHL_DAYPHASE : Nat := 0x4000B01C
/-- WHL_CFG (R389, 15). -/
abbrev R.WHL_CFG : Nat := 0x4000B020
/-- WHL_CHG (R389, 15). -/
abbrev R.WHL_CHG : Nat := 0x4000B024
/-- WHL_OFFSET (R389, 15). -/
abbrev R.WHL_OFFSET : Nat := 0x4000B028
/-- WHL_CTRL (R389, 15). -/
abbrev R.WHL_CTRL : Nat := 0x4000B02C
/-- WHL_TEMP (R389, 15). -/
abbrev R.WHL_TEMP : Nat := 0x4000B030
abbrev F.WHL_TEMP.TEMP : Fld := ⟨R.WHL_TEMP, 15, 0⟩
/-- WHL_CORR (R389, 15). -/
abbrev R.WHL_CORR : Nat := 0x4000B034
/-- WHL_ACC (R389, 15). -/
abbrev R.WHL_ACC : Nat := 0x4000B038
/-- WHL_CURVEi (R389, 15). -/
abbrev R.WHL_CURVE (n : Nat) : Nat := 0x4000B040 + 4 * n
/-- WHL_IRQ (R389, 15). -/
abbrev R.WHL_IRQ : Nat := 0x4000B090
abbrev F.WHL_IRQ.BRERR : Fld := ⟨R.WHL_IRQ, 4, 4⟩
abbrev F.WHL_IRQ.CNTERR : Fld := ⟨R.WHL_IRQ, 3, 3⟩
abbrev F.WHL_IRQ.DAY : Fld := ⟨R.WHL_IRQ, 2, 2⟩
abbrev F.WHL_IRQ.SWITCH : Fld := ⟨R.WHL_IRQ, 1, 1⟩
abbrev F.WHL_IRQ.TRUST : Fld := ⟨R.WHL_IRQ, 0, 0⟩
/-- SYS_DSTLOAD (R413, 16). -/
abbrev R.SYS_DSTLOAD : Nat := 0x40013010
abbrev F.SYS_DSTLOAD.BACKLOG : Fld := ⟨R.SYS_DSTLOAD, 31, 16⟩
abbrev F.SYS_DSTLOAD.UTIL : Fld := ⟨R.SYS_DSTLOAD, 15, 8⟩
abbrev F.SYS_DSTLOAD.LEVEL : Fld := ⟨R.SYS_DSTLOAD, 1, 0⟩
/-- SYS_DSTSHED (R413, 16). -/
abbrev R.SYS_DSTSHED : Nat := 0x40013014
abbrev F.SYS_DSTSHED.NMEA : Fld := ⟨R.SYS_DSTSHED, 31, 16⟩
abbrev F.SYS_DSTSHED.OPT : Fld := ⟨R.SYS_DSTSHED, 15, 8⟩
abbrev F.SYS_DSTSHED.DEFDROP : Fld := ⟨R.SYS_DSTSHED, 7, 0⟩
/-- SYS_PATCH (R413, 16). -/
abbrev R.SYS_PATCH : Nat := 0x40013018
abbrev F.SYS_PATCH.ERR : Fld := ⟨R.SYS_PATCH, 15, 15⟩
abbrev F.SYS_PATCH.LOST : Fld := ⟨R.SYS_PATCH, 14, 14⟩
abbrev F.SYS_PATCH.WRPROT : Fld := ⟨R.SYS_PATCH, 13, 13⟩
abbrev F.SYS_PATCH.NSLOT : Fld := ⟨R.SYS_PATCH, 5, 0⟩
/-- NVM_STAT (R413, 16). -/
abbrev R.NVM_STAT : Nat := 0x4000C000
abbrev F.NVM_STAT.BUSY : Fld := ⟨R.NVM_STAT, 31, 31⟩
abbrev F.NVM_STAT.OP : Fld := ⟨R.NVM_STAT, 30, 28⟩
abbrev F.NVM_STAT.BANK : Fld := ⟨R.NVM_STAT, 27, 26⟩
abbrev F.NVM_STAT.SECTOR : Fld := ⟨R.NVM_STAT, 25, 20⟩
abbrev F.NVM_STAT.ERRCNT : Fld := ⟨R.NVM_STAT, 15, 8⟩
abbrev F.NVM_STAT.RDONLY : Fld := ⟨R.NVM_STAT, 1, 1⟩
/-- NVM_SPOOL (R413, 16). -/
abbrev R.NVM_SPOOL : Nat := 0x4000C004
abbrev F.NVM_SPOOL.MOUNTED : Fld := ⟨R.NVM_SPOOL, 31, 31⟩
abbrev F.NVM_SPOOL.COMPACT : Fld := ⟨R.NVM_SPOOL, 30, 30⟩
abbrev F.NVM_SPOOL.DIRTY : Fld := ⟨R.NVM_SPOOL, 29, 29⟩
abbrev F.NVM_SPOOL.HALF : Fld := ⟨R.NVM_SPOOL, 28, 28⟩
abbrev F.NVM_SPOOL.FREE : Fld := ⟨R.NVM_SPOOL, 27, 14⟩
abbrev F.NVM_SPOOL.LIVE : Fld := ⟨R.NVM_SPOOL, 13, 0⟩
/-- NVM_SPSEQ (R413, 16). -/
abbrev R.NVM_SPSEQ : Nat := 0x4000C008
/-- NVM_WEAR0 (R413, 16). -/
abbrev R.NVM_WEAR0 : Nat := 0x4000C00C
abbrev F.NVM_WEAR0.ERASES : Fld := ⟨R.NVM_WEAR0, 19, 0⟩
/-- NVM_WEAR1 (R413, 16). -/
abbrev R.NVM_WEAR1 : Nat := 0x4000C010
abbrev F.NVM_WEAR1.ERASES : Fld := ⟨R.NVM_WEAR1, 19, 0⟩
/-- NVM_IRQ (R413, 16). -/
abbrev R.NVM_IRQ : Nat := 0x4000C030
abbrev F.NVM_IRQ.DEFDROP : Fld := ⟨R.NVM_IRQ, 4, 4⟩
abbrev F.NVM_IRQ.VERIFY : Fld := ⟨R.NVM_IRQ, 3, 3⟩
abbrev F.NVM_IRQ.FULL : Fld := ⟨R.NVM_IRQ, 2, 2⟩
abbrev F.NVM_IRQ.DIRTY : Fld := ⟨R.NVM_IRQ, 1, 1⟩
abbrev F.NVM_IRQ.COMPDONE : Fld := ⟨R.NVM_IRQ, 0, 0⟩
/-- UARTn_CFG (R427, 17). -/
abbrev R.UART_CFG (n : Nat) : Nat := 0x4000D000 + 4096 * n
abbrev F.UART_CFG.LOOP (n : Nat) : Fld := ⟨R.UART_CFG n, 5, 5⟩
abbrev F.UART_CFG.EN (n : Nat) : Fld := ⟨R.UART_CFG n, 0, 0⟩
/-- UARTn_RATE (R427, 17). -/
abbrev R.UART_RATE (n : Nat) : Nat := 0x4000D004 + 4096 * n
abbrev F.UART_RATE.RATE (n : Nat) : Fld := ⟨R.UART_RATE n, 22, 0⟩
/-- UARTn_FIFOCTL (R427, 17). -/
abbrev R.UART_FIFOCTL (n : Nat) : Nat := 0x4000D008 + 4096 * n
abbrev F.UART_FIFOCTL.TXTHR (n : Nat) : Fld := ⟨R.UART_FIFOCTL n, 14, 8⟩
abbrev F.UART_FIFOCTL.RXTHR (n : Nat) : Fld := ⟨R.UART_FIFOCTL n, 6, 0⟩
/-- UARTn_TOUT (R427, 17). -/
abbrev R.UART_TOUT (n : Nat) : Nat := 0x4000D010 + 4096 * n
abbrev F.UART_TOUT.CHARS (n : Nat) : Fld := ⟨R.UART_TOUT n, 7, 0⟩
/-- UARTn_PINCFG (R427, 17). -/
abbrev R.UART_PINCFG (n : Nat) : Nat := 0x4000D014 + 4096 * n
/-- UARTn_STAT (R427, 17). -/
abbrev R.UART_STAT (n : Nat) : Nat := 0x4000D020 + 4096 * n
abbrev F.UART_STAT.TXCNT (n : Nat) : Fld := ⟨R.UART_STAT n, 30, 24⟩
abbrev F.UART_STAT.RXCNT (n : Nat) : Fld := ⟨R.UART_STAT n, 22, 16⟩
abbrev F.UART_STAT.CLKSRC (n : Nat) : Fld := ⟨R.UART_STAT n, 9, 9⟩
abbrev F.UART_STAT.CLKWAIT (n : Nat) : Fld := ⟨R.UART_STAT n, 8, 8⟩
abbrev F.UART_STAT.RATEPEND (n : Nat) : Fld := ⟨R.UART_STAT n, 7, 7⟩
abbrev F.UART_STAT.TXBUSY (n : Nat) : Fld := ⟨R.UART_STAT n, 6, 6⟩
abbrev F.UART_STAT.BADW (n : Nat) : Fld := ⟨R.UART_STAT n, 5, 5⟩
abbrev F.UART_STAT.TXOVF (n : Nat) : Fld := ⟨R.UART_STAT n, 4, 4⟩
abbrev F.UART_STAT.BRK (n : Nat) : Fld := ⟨R.UART_STAT n, 3, 3⟩
abbrev F.UART_STAT.FE (n : Nat) : Fld := ⟨R.UART_STAT n, 2, 2⟩
abbrev F.UART_STAT.PE (n : Nat) : Fld := ⟨R.UART_STAT n, 1, 1⟩
abbrev F.UART_STAT.OVR (n : Nat) : Fld := ⟨R.UART_STAT n, 0, 0⟩
/-- UARTn_GLITCH (R427, 17). -/
abbrev R.UART_GLITCH (n : Nat) : Nat := 0x4000D024 + 4096 * n
abbrev F.UART_GLITCH.COUNT (n : Nat) : Fld := ⟨R.UART_GLITCH n, 15, 0⟩
/-- UARTn_RATEACT (R427, 17). -/
abbrev R.UART_RATEACT (n : Nat) : Nat := 0x4000D028 + 4096 * n
abbrev F.UART_RATEACT.RATE (n : Nat) : Fld := ⟨R.UART_RATEACT n, 22, 0⟩
/-- UARTn_IRQ (R427, 17). -/
abbrev R.UART_IRQ (n : Nat) : Nat := 0x4000D030 + 4096 * n
abbrev F.UART_IRQ.WAKECH (n : Nat) : Fld := ⟨R.UART_IRQ n, 10, 10⟩
abbrev F.UART_IRQ.TXDONE (n : Nat) : Fld := ⟨R.UART_IRQ n, 9, 9⟩
abbrev F.UART_IRQ.TXOVF (n : Nat) : Fld := ⟨R.UART_IRQ n, 8, 8⟩
abbrev F.UART_IRQ.GLITCH (n : Nat) : Fld := ⟨R.UART_IRQ n, 7, 7⟩
abbrev F.UART_IRQ.BRK (n : Nat) : Fld := ⟨R.UART_IRQ n, 6, 6⟩
abbrev F.UART_IRQ.PE (n : Nat) : Fld := ⟨R.UART_IRQ n, 5, 5⟩
abbrev F.UART_IRQ.FE (n : Nat) : Fld := ⟨R.UART_IRQ n, 4, 4⟩
abbrev F.UART_IRQ.OVR (n : Nat) : Fld := ⟨R.UART_IRQ n, 3, 3⟩
abbrev F.UART_IRQ.TOUT (n : Nat) : Fld := ⟨R.UART_IRQ n, 2, 2⟩
abbrev F.UART_IRQ.TXTHR (n : Nat) : Fld := ⟨R.UART_IRQ n, 1, 1⟩
abbrev F.UART_IRQ.RXTHR (n : Nat) : Fld := ⟨R.UART_IRQ n, 0, 0⟩
/-- UARTn_DATA (R427, 17). -/
abbrev R.UART_DATA (n : Nat) : Nat := 0x4000D040 + 4096 * n
/-- QSP_CFG (R436, 17). -/
abbrev R.QSP_CFG : Nat := 0x4000F000
abbrev F.QSP_CFG.EN : Fld := ⟨R.QSP_CFG, 0, 0⟩
/-- QSP_INTEN (R436, 17). -/
abbrev R.QSP_INTEN : Nat := 0x4000F004
abbrev F.QSP_INTEN.ERR : Fld := ⟨R.QSP_INTEN, 3, 3⟩
abbrev F.QSP_INTEN.IMG : Fld := ⟨R.QSP_INTEN, 2, 2⟩
abbrev F.QSP_INTEN.WIN : Fld := ⟨R.QSP_INTEN, 1, 1⟩
abbrev F.QSP_INTEN.OUT : Fld := ⟨R.QSP_INTEN, 0, 0⟩
/-- QSP_IRQEN (R436, 17). -/
abbrev R.QSP_IRQEN : Nat := 0x4000F008
/-- QSP_OUTTHR (R436, 17). -/
abbrev R.QSP_OUTTHR : Nat := 0x4000F00C
abbrev F.QSP_OUTTHR.THR : Fld := ⟨R.QSP_OUTTHR, 15, 0⟩
/-- QSP_STAT (R436, 17). -/
abbrev R.QSP_STAT : Nat := 0x4000F020
/-- QSP_FLAGS (R436, 17). -/
abbrev R.QSP_FLAGS : Nat := 0x4000F024
abbrev F.QSP_FLAGS.IMGCODE : Fld := ⟨R.QSP_FLAGS, 23, 16⟩
abbrev F.QSP_FLAGS.WCODE : Fld := ⟨R.QSP_FLAGS, 15, 8⟩
abbrev F.QSP_FLAGS.QPI : Fld := ⟨R.QSP_FLAGS, 7, 7⟩
abbrev F.QSP_FLAGS.IMGDONE : Fld := ⟨R.QSP_FLAGS, 6, 6⟩
abbrev F.QSP_FLAGS.OUTLOSS : Fld := ⟨R.QSP_FLAGS, 5, 5⟩
abbrev F.QSP_FLAGS.INOVF : Fld := ⟨R.QSP_FLAGS, 4, 4⟩
abbrev F.QSP_FLAGS.WERR : Fld := ⟨R.QSP_FLAGS, 3, 3⟩
abbrev F.QSP_FLAGS.WDONE : Fld := ⟨R.QSP_FLAGS, 2, 2⟩
abbrev F.QSP_FLAGS.WBUSY : Fld := ⟨R.QSP_FLAGS, 1, 1⟩
abbrev F.QSP_FLAGS.READY : Fld := ⟨R.QSP_FLAGS, 0, 0⟩
/-- QSP_CNT (R436, 17). -/
abbrev R.QSP_CNT : Nat := 0x4000F028
abbrev F.QSP_CNT.BADCMD : Fld := ⟨R.QSP_CNT, 15, 0⟩
/-- QSP_IRQ (R436, 17). -/
abbrev R.QSP_IRQ : Nat := 0x4000F030
abbrev F.QSP_IRQ.WOP : Fld := ⟨R.QSP_IRQ, 4, 4⟩
abbrev F.QSP_IRQ.BADCMD : Fld := ⟨R.QSP_IRQ, 3, 3⟩
abbrev F.QSP_IRQ.INOVF : Fld := ⟨R.QSP_IRQ, 2, 2⟩
abbrev F.QSP_IRQ.OUTLOSS : Fld := ⟨R.QSP_IRQ, 1, 1⟩
abbrev F.QSP_IRQ.INDATA : Fld := ⟨R.QSP_IRQ, 0, 0⟩
/-- SVC_CTRL (R467, 19). -/
abbrev R.SVC_CTRL : Nat := 0x40010000
/-- SVC_MONSEL (R467, 19). -/
abbrev R.SVC_MONSEL : Nat := 0x40010004
abbrev F.SVC_MONSEL.SRC : Fld := ⟨R.SVC_MONSEL, 4, 0⟩
/-- SVC_PINSEL (R467, 19). -/
abbrev R.SVC_PINSEL : Nat := 0x40010008
abbrev F.SVC_PINSEL.PIN : Fld := ⟨R.SVC_PINSEL, 8, 0⟩
/-- SVC_PINCTL (R467, 19). -/
abbrev R.SVC_PINCTL : Nat := 0x4001000C
/-- SVC_STAT (R467, 19). -/
abbrev R.SVC_STAT : Nat := 0x40010010
abbrev F.SVC_STAT.OVRCNT : Fld := ⟨R.SVC_STAT, 11, 8⟩
abbrev F.SVC_STAT.MONCLIP : Fld := ⟨R.SVC_STAT, 5, 5⟩
abbrev F.SVC_STAT.DENIED : Fld := ⟨R.SVC_STAT, 4, 4⟩
abbrev F.SVC_STAT.NOBANK : Fld := ⟨R.SVC_STAT, 3, 3⟩
abbrev F.SVC_STAT.NOSVC : Fld := ⟨R.SVC_STAT, 2, 2⟩
abbrev F.SVC_STAT.SVCMODE : Fld := ⟨R.SVC_STAT, 0, 0⟩
/-- TSG_SUB (R467, 19). -/
abbrev R.TSG_SUB : Nat := 0x40012000
abbrev F.TSG_SUB.MASK : Fld := ⟨R.TSG_SUB, 7, 0⟩
/-- TSG_ERR (R467, 19). -/
abbrev R.TSG_ERR : Nat := 0x40012004
abbrev F.TSG_ERR.CODE : Fld := ⟨R.TSG_ERR, 31, 28⟩
abbrev F.TSG_ERR.ENTRY : Fld := ⟨R.TSG_ERR, 3, 0⟩
/-- TSG_STAT (R467, 19). -/
abbrev R.TSG_STAT : Nat := 0x40012008
abbrev F.TSG_STAT.ACTIVE : Fld := ⟨R.TSG_STAT, 7, 0⟩
/-- SYS_BOOT (R484, 20). -/
abbrev R.SYS_BOOT : Nat := 0x40013020
abbrev F.SYS_BOOT.SKFAIL : Fld := ⟨R.SYS_BOOT, 23, 16⟩
abbrev F.SYS_BOOT.LPEFAIL : Fld := ⟨R.SYS_BOOT, 15, 15⟩
abbrev F.SYS_BOOT.PRMFAIL : Fld := ⟨R.SYS_BOOT, 14, 14⟩
abbrev F.SYS_BOOT.SYSDEF : Fld := ⟨R.SYS_BOOT, 13, 13⟩
abbrev F.SYS_BOOT.REFACT : Fld := ⟨R.SYS_BOOT, 12, 10⟩
abbrev F.SYS_BOOT.REFDET : Fld := ⟨R.SYS_BOOT, 9, 9⟩
abbrev F.SYS_BOOT.CODE : Fld := ⟨R.SYS_BOOT, 7, 4⟩
abbrev F.SYS_BOOT.STAGE : Fld := ⟨R.SYS_BOOT, 3, 0⟩
/-- SET_CFG (R484, 20). -/
abbrev R.SET_CFG : Nat := 0x40011000
abbrev F.SET_CFG.LOSSLIM : Fld := ⟨R.SET_CFG, 15, 8⟩
abbrev F.SET_CFG.SYNCOUT : Fld := ⟨R.SET_CFG, 0, 0⟩
/-- SET_TRDLY (R484, 20). -/
abbrev R.SET_TRDLY : Nat := 0x40011004
abbrev F.SET_TRDLY.TRDLY : Fld := ⟨R.SET_TRDLY, 14, 0⟩
/-- SET_IRQEN (R484, 20). -/
abbrev R.SET_IRQEN : Nat := 0x40011008
/-- SET_LATEMS (R484, 20). -/
abbrev R.SET_LATEMS : Nat := 0x4001100C
/-- SET_STAT (R484, 20). -/
abbrev R.SET_STAT : Nat := 0x40011014
abbrev F.SET_STAT.CRCERR : Fld := ⟨R.SET_STAT, 31, 24⟩
abbrev F.SET_STAT.LOSS : Fld := ⟨R.SET_STAT, 23, 16⟩
abbrev F.SET_STAT.CFGERR : Fld := ⟨R.SET_STAT, 6, 6⟩
abbrev F.SET_STAT.PHERR : Fld := ⟨R.SET_STAT, 5, 5⟩
abbrev F.SET_STAT.LATE : Fld := ⟨R.SET_STAT, 4, 4⟩
abbrev F.SET_STAT.STATE : Fld := ⟨R.SET_STAT, 2, 0⟩
/-- SET_STRAP (R484, 20). -/
abbrev R.SET_STRAP : Nat := 0x40011018
abbrev F.SET_STRAP.OSCCLS : Fld := ⟨R.SET_STRAP, 7, 7⟩
abbrev F.SET_STRAP.REFSEL : Fld := ⟨R.SET_STRAP, 6, 4⟩
abbrev F.SET_STRAP.BOOT_SRC : Fld := ⟨R.SET_STRAP, 3, 2⟩
abbrev F.SET_STRAP.SET_ID : Fld := ⟨R.SET_STRAP, 1, 0⟩
/-- SET_PHASE (R484, 20). -/
abbrev R.SET_PHASE : Nat := 0x4001101C
/-- SET_IRQ (R484, 20). -/
abbrev R.SET_IRQ : Nat := 0x40011030
abbrev F.SET_IRQ.CFGERR : Fld := ⟨R.SET_IRQ, 5, 5⟩
abbrev F.SET_IRQ.PHERR : Fld := ⟨R.SET_IRQ, 4, 4⟩
abbrev F.SET_IRQ.LATE : Fld := ⟨R.SET_IRQ, 3, 3⟩
abbrev F.SET_IRQ.MISMATCH : Fld := ⟨R.SET_IRQ, 2, 2⟩
abbrev F.SET_IRQ.SYNCLOST : Fld := ⟨R.SET_IRQ, 1, 1⟩
abbrev F.SET_IRQ.STATE : Fld := ⟨R.SET_IRQ, 0, 0⟩
/-- SYS_ID (R502, 22). -/
abbrev R.SYS_ID : Nat := 0x40013000
/-- SYS_UNMAP (R502, 22). -/
abbrev R.SYS_UNMAP : Nat := 0x4001304C
abbrev F.SYS_UNMAP.COUNT : Fld := ⟨R.SYS_UNMAP, 31, 16⟩
abbrev F.SYS_UNMAP.WR : Fld := ⟨R.SYS_UNMAP, 1, 1⟩
abbrev F.SYS_UNMAP.VALID : Fld := ⟨R.SYS_UNMAP, 0, 0⟩
/-- SYS_UNMAPADDR (R502, 22). -/
abbrev R.SYS_UNMAPADDR : Nat := 0x40013050
/-- REEL_CNTn_LO (R310, 12). -/
abbrev R.REEL_CNT_LO (n : Nat) : Nat := 0x40008100 + 64 * n
/-- REEL_CNTn_HI (R310, 12). -/
abbrev R.REEL_CNT_HI (n : Nat) : Nat := 0x40008104 + 64 * n
/-- REEL_CMPn_LO (R310, 12). -/
abbrev R.REEL_CMP_LO (n : Nat) : Nat := 0x40008108 + 64 * n
/-- REEL_CMPn_HI (R310, 12). -/
abbrev R.REEL_CMP_HI (n : Nat) : Nat := 0x4000810C + 64 * n
/-- REEL_INCn_LO (R310, 12). -/
abbrev R.REEL_INC_LO (n : Nat) : Nat := 0x40008110 + 64 * n
/-- REEL_INCn_HI (R310, 12). -/
abbrev R.REEL_INC_HI (n : Nat) : Nat := 0x40008114 + 64 * n
/-- REEL_CAPn_LO (R310, 12). -/
abbrev R.REEL_CAP_LO (n : Nat) : Nat := 0x40008118 + 64 * n
/-- REEL_CAPn_HI (R310, 12). -/
abbrev R.REEL_CAP_HI (n : Nat) : Nat := 0x4000811C + 64 * n
/-- REEL_CFGn (R310, 12). -/
abbrev R.REEL_CFG (n : Nat) : Nat := 0x40008120 + 64 * n
abbrev F.REEL_CFG.CAPSRC (n : Nat) : Fld := ⟨R.REEL_CFG n, 15, 13⟩
abbrev F.REEL_CFG.CAPEDGE (n : Nat) : Fld := ⟨R.REEL_CFG n, 12, 11⟩
abbrev F.REEL_CFG.OE (n : Nat) : Fld := ⟨R.REEL_CFG n, 7, 7⟩
abbrev F.REEL_CFG.ACT (n : Nat) : Fld := ⟨R.REEL_CFG n, 6, 5⟩
abbrev F.REEL_CFG.PER (n : Nat) : Fld := ⟨R.REEL_CFG n, 4, 4⟩
abbrev F.REEL_CFG.ARM (n : Nat) : Fld := ⟨R.REEL_CFG n, 3, 3⟩
/-- REEL_SKIPn (R310, 12). -/
abbrev R.REEL_SKIP (n : Nat) : Nat := 0x40008124 + 64 * n
/-- TSG_SIGi_W0 (R467, 19). -/
abbrev R.TSG_SIG_W0 (n : Nat) : Nat := 0x40012100 + 32 * n
abbrev F.TSG_SIG_W0.EN (n : Nat) : Fld := ⟨R.TSG_SIG_W0 n, 31, 31⟩
abbrev F.TSG_SIG_W0.STREAM (n : Nat) : Fld := ⟨R.TSG_SIG_W0 n, 30, 28⟩
abbrev F.TSG_SIG_W0.FAM (n : Nat) : Fld := ⟨R.TSG_SIG_W0 n, 27, 23⟩
abbrev F.TSG_SIG_W0.IDX (n : Nat) : Fld := ⟨R.TSG_SIG_W0 n, 22, 12⟩
abbrev F.TSG_SIG_W0.SEN (n : Nat) : Fld := ⟨R.TSG_SIG_W0 n, 11, 11⟩
abbrev F.TSG_SIG_W0.SID (n : Nat) : Fld := ⟨R.TSG_SIG_W0 n, 10, 0⟩
/-- TSG_SIGi_W1 (R467, 19). -/
abbrev R.TSG_SIG_W1 (n : Nat) : Nat := 0x40012104 + 32 * n
abbrev F.TSG_SIG_W1.CN0 (n : Nat) : Fld := ⟨R.TSG_SIG_W1 n, 31, 16⟩
abbrev F.TSG_SIG_W1.SCN (n : Nat) : Fld := ⟨R.TSG_SIG_W1 n, 15, 12⟩
/-- TSG_SIGi_W2 (R467, 19). -/
abbrev R.TSG_SIG_W2 (n : Nat) : Nat := 0x40012108 + 32 * n
/-- TSG_SIGi_W3 (R467, 19). -/
abbrev R.TSG_SIG_W3 (n : Nat) : Nat := 0x4001210C + 32 * n
/-- TSG_SIGi_W4 (R467, 19). -/
abbrev R.TSG_SIG_W4 (n : Nat) : Nat := 0x40012110 + 32 * n
/-- TSG_SIGi_W5 (R467, 19). -/
abbrev R.TSG_SIG_W5 (n : Nat) : Nat := 0x40012114 + 32 * n
/-- TSG_SIGi_W6 (R467, 19). -/
abbrev R.TSG_SIG_W6 (n : Nat) : Nat := 0x40012118 + 32 * n
/-- TSG_SIGi_W7 (R467, 19). -/
abbrev R.TSG_SIG_W7 (n : Nat) : Nat := 0x4001211C + 32 * n

/-- The PLAN registers with their field types. -/
def regRowsPLAN : List RegRow := [
  ⟨"PLAN_EPOCH_LO", 0x40001020, 0, 1, none,
    [⟨31, 0, .rl⟩]⟩,
  ⟨"PLAN_EPOCH_HI", 0x40001024, 0, 1, none,
    [⟨15, 0, .ro⟩]⟩,
  ⟨"PLAN_PHASE", 0x40001028, 0, 1, none,
    [⟨31, 12, .ro⟩, ⟨10, 10, .ro⟩, ⟨9, 0, .ro⟩]⟩,
  ⟨"PLAN_CTRL", 0x40001000, 0, 1, none,
    [⟨2, 2, .wo⟩, ⟨1, 1, .wo⟩, ⟨0, 0, .wo⟩]⟩,
  ⟨"PLAN_STAT", 0x40001004, 0, 1, none,
    [⟨15, 8, .ro⟩, ⟨7, 7, .w1c⟩, ⟨6, 6, .w1c⟩, ⟨5, 5, .w1c⟩, ⟨4, 4, .ro⟩, ⟨3, 3, .ro⟩, ⟨2, 0, .ro⟩]⟩,
  ⟨"PLAN_ERRINFO", 0x40001008, 0, 1, none,
    [⟨23, 12, .ro⟩, ⟨11, 0, .ro⟩]⟩,
  ⟨"PLAN_ERRPHASE", 0x4000100C, 0, 1, none,
    [⟨10, 10, .ro⟩, ⟨9, 0, .ro⟩]⟩,
  ⟨"PLAN_IDACT", 0x40001010, 0, 1, none,
    [⟨31, 0, .ro⟩]⟩,
  ⟨"PLAN_IDCAND", 0x40001014, 0, 1, none,
    [⟨31, 0, .ro⟩]⟩,
  ⟨"PLAN_SWEPOCH_LO", 0x40001018, 0, 1, none,
    [⟨31, 0, .rw⟩]⟩,
  ⟨"PLAN_SWEPOCH_HI", 0x4000101C, 0, 1, none,
    [⟨15, 0, .rw⟩]⟩,
  ⟨"PLAN_IRQ", 0x40001030, 0, 1, none,
    [⟨7, 7, .w1c⟩, ⟨6, 6, .w1c⟩, ⟨5, 5, .w1c⟩, ⟨4, 4, .w1c⟩, ⟨3, 3, .w1c⟩, ⟨2, 2, .w1c⟩, ⟨1, 1, .w1c⟩, ⟨0, 0, .w1c⟩]⟩,
  ⟨"PLAN_IRQEN", 0x40001034, 0, 1, none,
    [⟨7, 7, .rw⟩, ⟨6, 6, .rw⟩, ⟨5, 5, .rw⟩, ⟨4, 4, .rw⟩, ⟨3, 3, .rw⟩, ⟨2, 2, .rw⟩, ⟨1, 1, .rw⟩, ⟨0, 0, .rw⟩]⟩,
  ⟨"PLAN_COMMIT", 0x40001040, 0, 1, none,
    [⟨14, 0, .wo⟩]⟩,
  ⟨"PLAN_CMTSTAT", 0x40001044, 0, 1, none,
    [⟨30, 16, .ro⟩, ⟨14, 0, .ro⟩]⟩,
  ⟨"PLAN_CMTERR", 0x40001048, 0, 1, none,
    [⟨11, 8, .ro⟩, ⟨1, 1, .w1c⟩, ⟨0, 0, .w1c⟩]⟩,
  ⟨"PLAN_CMTEPOCH", 0x4000104C, 0, 1, none,
    [⟨31, 0, .ro⟩]⟩,
  ⟨"PLAN_JQ_STAT", 0x40001080, 0, 1, none,
    [⟨17, 9, .ro⟩, ⟨8, 0, .ro⟩]⟩,
  ⟨"PLAN_JQ_PRMMAX", 0x40001084, 0, 1, none,
    [⟨8, 0, .rw⟩]⟩,
  ⟨"PLAN_JQ_DONE", 0x40001088, 0, 1, none,
    [⟨31, 31, .rc⟩, ⟨15, 12, .rc⟩, ⟨11, 8, .rc⟩, ⟨7, 0, .rc⟩]⟩,
  ⟨"PLAN_JQ_CANCEL", 0x4000108C, 0, 1, none,
    [⟨7, 0, .wo⟩]⟩,
  ⟨"PLAN_OGCFG", 0x40001100, 4, 16, some 9,
    [⟨15, 15, .st⟩, ⟨14, 14, .st⟩, ⟨13, 10, .st⟩, ⟨9, 0, .st⟩]⟩,
  ⟨"PLAN_OUTCFG", 0x40001140, 0, 1, some 9,
    [⟨10, 3, .st⟩, ⟨2, 0, .st⟩]⟩,
  ⟨"PLAN_RXBASE_LO", 0x40001148, 0, 1, some 9,
    [⟨31, 0, .st⟩]⟩,
  ⟨"PLAN_RXBASE_HI", 0x4000114C, 0, 1, some 9,
    [⟨31, 31, .st⟩, ⟨15, 0, .st⟩]⟩,
  ⟨"PLAN_ORD", 0x40001150, 0, 1, none,
    [⟨11, 0, .rw⟩]⟩,
  ⟨"PLAN_OWR", 0x40001154, 0, 1, none,
    [⟨11, 0, .ro⟩]⟩,
  ⟨"PLAN_OSTAT", 0x40001158, 0, 1, none,
    [⟨31, 24, .rc⟩, ⟨23, 13, .rc⟩, ⟨12, 0, .ro⟩]⟩,
  ⟨"PLAN_OUTERR", 0x4000115C, 0, 1, none,
    [⟨31, 16, .ro⟩, ⟨15, 12, .ro⟩, ⟨3, 0, .ro⟩]⟩]

/-- The FACET registers with their field types. -/
def regRowsFACET : List RegRow := [
  ⟨"FACET_KEYSTAT", 0x40014040, 0, 1, none,
    [⟨4, 4, .ro⟩, ⟨3, 3, .ro⟩, ⟨2, 2, .ro⟩, ⟨1, 1, .ro⟩, ⟨0, 0, .ro⟩]⟩,
  ⟨"FACET_ENG", 0x40014000, 4, 16, none,
    [⟨31, 0, .ro⟩]⟩]

/-- The SYS registers with their field types. -/
def regRowsSYS : List RegRow := [
  ⟨"SYS_FWVER", 0x40013004, 0, 1, none,
    [⟨31, 24, .ro⟩, ⟨23, 16, .ro⟩, ⟨15, 0, .ro⟩]⟩,
  ⟨"SYS_ACCERR", 0x40013040, 0, 1, none,
    [⟨31, 31, .w1c⟩, ⟨23, 16, .rc⟩, ⟨15, 12, .ro⟩, ⟨11, 11, .ro⟩, ⟨10, 10, .ro⟩, ⟨5, 0, .ro⟩]⟩,
  ⟨"SYS_ACCADDR", 0x40013044, 0, 1, none,
    [⟨31, 0, .ro⟩]⟩,
  ⟨"SYS_ACCCFG", 0x40013048, 0, 1, none,
    [⟨0, 0, .rw⟩]⟩,
  ⟨"SYS_DSTLOAD", 0x40013010, 0, 1, none,
    [⟨31, 16, .ro⟩, ⟨15, 8, .ro⟩, ⟨1, 0, .ro⟩]⟩,
  ⟨"SYS_DSTSHED", 0x40013014, 0, 1, none,
    [⟨31, 16, .rc⟩, ⟨15, 8, .rc⟩, ⟨7, 0, .rc⟩]⟩,
  ⟨"SYS_PATCH", 0x40013018, 0, 1, none,
    [⟨15, 15, .ro⟩, ⟨14, 14, .ro⟩, ⟨13, 13, .w1c⟩, ⟨5, 0, .ro⟩]⟩,
  ⟨"SYS_BOOT", 0x40013020, 0, 1, none,
    [⟨23, 16, .ro⟩, ⟨15, 15, .ro⟩, ⟨14, 14, .ro⟩, ⟨13, 13, .ro⟩, ⟨12, 10, .ro⟩, ⟨9, 9, .ro⟩, ⟨7, 4, .ro⟩, ⟨3, 0, .ro⟩]⟩,
  ⟨"SYS_ID", 0x40013000, 0, 1, none,
    [⟨31, 16, .ro⟩, ⟨7, 0, .ro⟩]⟩,
  ⟨"SYS_UNMAP", 0x4001304C, 0, 1, none,
    [⟨31, 16, .rc⟩, ⟨1, 1, .ro⟩, ⟨0, 0, .w1c⟩]⟩,
  ⟨"SYS_UNMAPADDR", 0x40013050, 0, 1, none,
    [⟨31, 0, .ro⟩]⟩,
  ⟨"SYS_IRQRT", 0x40013080, 4, 15, none,
    [⟨31, 0, .ro⟩]⟩]

/-- The NVM registers with their field types. -/
def regRowsNVM : List RegRow := [
  ⟨"NVM_IMG_CTRL", 0x4000C100, 0, 1, none,
    [⟨4, 4, .rw⟩, ⟨2, 2, .wo⟩, ⟨1, 1, .wo⟩, ⟨0, 0, .wo⟩]⟩,
  ⟨"NVM_IMG_STAT", 0x4000C104, 0, 1, none,
    [⟨23, 16, .ro⟩, ⟨15, 8, .ro⟩, ⟨1, 1, .w1c⟩, ⟨0, 0, .ro⟩]⟩,
  ⟨"NVM_IMG_SLOTA", 0x4000C108, 0, 1, none,
    [⟨31, 16, .ro⟩, ⟨15, 8, .ro⟩, ⟨2, 0, .ro⟩]⟩,
  ⟨"NVM_IMG_SLOTB", 0x4000C10C, 0, 1, none,
    [⟨31, 16, .ro⟩, ⟨15, 8, .ro⟩, ⟨2, 0, .ro⟩]⟩,
  ⟨"NVM_BOOTINFO", 0x4000C110, 0, 1, none,
    [⟨15, 8, .ro⟩, ⟨7, 7, .ro⟩, ⟨6, 5, .ro⟩, ⟨3, 2, .ro⟩, ⟨1, 0, .ro⟩]⟩,
  ⟨"NVM_STAT", 0x4000C000, 0, 1, none,
    [⟨31, 31, .ro⟩, ⟨30, 28, .ro⟩, ⟨27, 26, .ro⟩, ⟨25, 20, .ro⟩, ⟨15, 8, .rc⟩, ⟨1, 1, .ro⟩, ⟨0, 0, .ro⟩]⟩,
  ⟨"NVM_SPOOL", 0x4000C004, 0, 1, none,
    [⟨31, 31, .ro⟩, ⟨30, 30, .ro⟩, ⟨29, 29, .ro⟩, ⟨28, 28, .ro⟩, ⟨27, 14, .ro⟩, ⟨13, 0, .ro⟩]⟩,
  ⟨"NVM_SPSEQ", 0x4000C008, 0, 1, none,
    [⟨31, 0, .ro⟩]⟩,
  ⟨"NVM_WEAR0", 0x4000C00C, 0, 1, none,
    [⟨19, 0, .ro⟩]⟩,
  ⟨"NVM_WEAR1", 0x4000C010, 0, 1, none,
    [⟨19, 0, .ro⟩]⟩,
  ⟨"NVM_IRQ", 0x4000C030, 0, 1, none,
    [⟨4, 4, .w1c⟩, ⟨3, 3, .w1c⟩, ⟨2, 2, .w1c⟩, ⟨1, 1, .w1c⟩, ⟨0, 0, .w1c⟩]⟩,
  ⟨"NVM_IRQEN", 0x4000C034, 0, 1, none,
    [⟨4, 4, .rw⟩, ⟨3, 3, .rw⟩, ⟨2, 2, .rw⟩, ⟨1, 1, .rw⟩, ⟨0, 0, .rw⟩]⟩]

/-- The BOB registers with their field types. -/
def regRowsBOB : List RegRow := [
  ⟨"BOB_LVDS_CTRL", 0x400020C0, 0, 1, none,
    [⟨7, 0, .wo⟩]⟩,
  ⟨"BOB_LVDS_STAT", 0x400020E0, 4, 8, none,
    [⟨23, 16, .ro⟩, ⟨10, 8, .ro⟩, ⟨7, 4, .ro⟩, ⟨1, 0, .ro⟩]⟩,
  ⟨"BOB_SIDX_LO", 0x40002100, 0, 1, none,
    [⟨31, 0, .rl⟩]⟩,
  ⟨"BOB_SIDX_HI", 0x40002104, 0, 1, none,
    [⟨31, 0, .ro⟩]⟩,
  ⟨"BOB_STRCFG", 0x40002000, 4, 8, some 8,
    [⟨7, 6, .st⟩, ⟨5, 4, .st⟩, ⟨3, 3, .st⟩, ⟨2, 1, .st⟩, ⟨0, 0, .st⟩]⟩,
  ⟨"BOB_IF", 0x400020A0, 4, 8, some 8,
    [⟨31, 0, .st⟩]⟩,
  ⟨"BOB_ALLOC", 0x40002400, 4, 256, some 8,
    [⟨3, 0, .st⟩, ⟨7, 4, .st⟩, ⟨11, 8, .st⟩, ⟨15, 12, .st⟩, ⟨19, 16, .st⟩, ⟨23, 20, .st⟩, ⟨27, 24, .st⟩, ⟨31, 28, .st⟩]⟩,
  ⟨"BOB_MAPSTAT", 0x40002080, 0, 1, none,
    [⟨31, 31, .w1c⟩, ⟨26, 16, .ro⟩, ⟨3, 0, .ro⟩]⟩,
  ⟨"BOB_CFGERR", 0x40002084, 0, 1, none,
    [⟨1, 1, .w1c⟩, ⟨0, 0, .w1c⟩]⟩,
  ⟨"BOB_RING", 0x40002020, 4, 8, some 7,
    [⟨6, 0, .st⟩]⟩,
  ⟨"BOB_STRSTAT", 0x40002040, 4, 8, none,
    [⟨22, 16, .ro⟩, ⟨6, 6, .ro⟩, ⟨5, 5, .ro⟩, ⟨4, 4, .w1c⟩, ⟨3, 3, .w1c⟩, ⟨2, 2, .w1c⟩, ⟨1, 1, .w1c⟩, ⟨0, 0, .ro⟩]⟩,
  ⟨"BOB_ORG", 0x40002060, 4, 8, none,
    [⟨31, 0, .ro⟩]⟩,
  ⟨"BOB_PGMAP", 0x40002200, 4, 38, none,
    [⟨31, 16, .ro⟩, ⟨15, 15, .ro⟩, ⟨14, 14, .ro⟩, ⟨10, 8, .ro⟩, ⟨6, 0, .ro⟩]⟩,
  ⟨"BOB_CURSEL", 0x40002110, 0, 1, none,
    [⟨7, 0, .rw⟩]⟩,
  ⟨"BOB_CURSTAT", 0x40002114, 0, 1, none,
    [⟨10, 8, .ro⟩, ⟨3, 3, .ro⟩, ⟨2, 2, .ro⟩, ⟨1, 1, .ro⟩, ⟨0, 0, .ro⟩]⟩,
  ⟨"BOB_CURPOS_LO", 0x40002118, 0, 1, none,
    [⟨31, 0, .rl⟩]⟩,
  ⟨"BOB_CURPOS_HI", 0x4000211C, 0, 1, none,
    [⟨31, 0, .ro⟩]⟩,
  ⟨"BOB_SNAP_CTRL", 0x40002140, 0, 1, none,
    [⟨2, 2, .wo⟩, ⟨1, 1, .wo⟩, ⟨0, 0, .wo⟩]⟩,
  ⟨"BOB_SNAP_CFG", 0x40002144, 0, 1, none,
    [⟨23, 16, .rw⟩, ⟨15, 15, .rw⟩, ⟨14, 8, .rw⟩, ⟨7, 0, .rw⟩]⟩,
  ⟨"BOB_SNAP_START_LO", 0x40002148, 0, 1, none,
    [⟨31, 0, .rw⟩]⟩,
  ⟨"BOB_SNAP_START_HI", 0x4000214C, 0, 1, none,
    [⟨15, 0, .rw⟩]⟩,
  ⟨"BOB_SNAP_STAT", 0x40002150, 0, 1, none,
    [⟨23, 16, .ro⟩, ⟨8, 8, .ro⟩, ⟨7, 4, .ro⟩, ⟨3, 3, .w1c⟩, ⟨2, 0, .ro⟩]⟩]

/-- The FAB registers with their field types. -/
def regRowsFAB : List RegRow := [
  ⟨"FAB_SKSTAT", 0x40000000, 0, 1, none,
    [⟨15, 8, .ro⟩, ⟨7, 0, .ro⟩]⟩]

/-- The STR registers with their field types. -/
def regRowsSTR : List RegRow := [
  ⟨"STR_DESCERR", 0x40003000, 0, 1, none,
    [⟨31, 28, .ro⟩, ⟨23, 16, .ro⟩, ⟨10, 0, .ro⟩]⟩,
  ⟨"STR_WBOVR", 0x40003008, 0, 1, none,
    [⟨23, 16, .rc⟩, ⟨10, 0, .ro⟩]⟩,
  ⟨"STR_ENCNT", 0x4000300C, 0, 1, none,
    [⟨11, 0, .ro⟩]⟩,
  ⟨"STR_IRQ", 0x40003030, 0, 1, none,
    [⟨4, 4, .w1c⟩, ⟨3, 3, .w1c⟩, ⟨2, 2, .w1c⟩, ⟨1, 1, .w1c⟩, ⟨0, 0, .w1c⟩]⟩,
  ⟨"STR_IRQEN", 0x40003034, 0, 1, none,
    [⟨4, 4, .rw⟩, ⟨3, 3, .rw⟩, ⟨2, 2, .rw⟩, ⟨1, 1, .rw⟩, ⟨0, 0, .rw⟩]⟩,
  ⟨"STR_CODEERR", 0x40003004, 0, 1, none,
    [⟨15, 8, .ro⟩, ⟨2, 2, .ro⟩, ⟨1, 1, .w1c⟩, ⟨0, 0, .w1c⟩]⟩]

/-- The LPE registers with their field types. -/
def regRowsLPE : List RegRow := [
  ⟨"LPE_PLYCMD", 0x40005800, 0, 1, none,
    [⟨15, 12, .wo⟩, ⟨9, 0, .wo⟩]⟩,
  ⟨"LPE_BINDERR", 0x40005804, 0, 1, none,
    [⟨31, 28, .ro⟩, ⟨23, 16, .ro⟩, ⟨9, 0, .ro⟩]⟩,
  ⟨"LPE_COEFERR", 0x40005808, 0, 1, none,
    [⟨31, 28, .ro⟩, ⟨23, 16, .ro⟩, ⟨9, 0, .ro⟩]⟩,
  ⟨"LPE_LIFEERR", 0x4000580C, 0, 1, none,
    [⟨31, 28, .ro⟩, ⟨23, 16, .ro⟩, ⟨9, 0, .ro⟩]⟩,
  ⟨"LPE_EVQ_LO", 0x40005810, 0, 1, none,
    [⟨31, 31, .rc⟩, ⟨25, 18, .rc⟩, ⟨17, 14, .rc⟩, ⟨13, 10, .rc⟩, ⟨9, 0, .rc⟩]⟩,
  ⟨"LPE_EVQ_HI", 0x40005814, 0, 1, none,
    [⟨31, 0, .ro⟩]⟩,
  ⟨"LPE_SYMQ_LO", 0x40005820, 0, 1, none,
    [⟨31, 31, .rc⟩, ⟨30, 21, .rc⟩, ⟨11, 11, .rc⟩, ⟨10, 10, .rc⟩, ⟨9, 0, .rc⟩]⟩,
  ⟨"LPE_SYMQ_HI", 0x40005824, 0, 1, none,
    [⟨27, 16, .ro⟩, ⟨15, 0, .ro⟩]⟩,
  ⟨"LPE_EVQ_STAT", 0x40005818, 0, 1, none,
    [⟨31, 16, .rc⟩, ⟨12, 0, .ro⟩]⟩,
  ⟨"LPE_SYMQ_STAT", 0x40005828, 0, 1, none,
    [⟨31, 16, .rc⟩, ⟨12, 0, .ro⟩]⟩,
  ⟨"LPE_LOOPIRQ", 0x40005830, 0, 1, none,
    [⟨6, 6, .w1c⟩, ⟨5, 5, .w1c⟩, ⟨4, 4, .w1c⟩, ⟨3, 3, .w1c⟩, ⟨2, 2, .w1c⟩, ⟨1, 1, .w1c⟩, ⟨0, 0, .w1c⟩]⟩,
  ⟨"LPE_LOOPIRQEN", 0x40005834, 0, 1, none,
    [⟨6, 6, .rw⟩, ⟨5, 5, .rw⟩, ⟨4, 4, .rw⟩, ⟨3, 3, .rw⟩, ⟨2, 2, .rw⟩, ⟨1, 1, .rw⟩, ⟨0, 0, .rw⟩]⟩,
  ⟨"LPE_PLYCNT", 0x40005838, 0, 1, none,
    [⟨26, 16, .ro⟩, ⟨10, 0, .ro⟩]⟩,
  ⟨"LPE_SLSTAT", 0x40005000, 4, 9, none,
    [⟨23, 16, .ro⟩, ⟨15, 12, .ro⟩, ⟨11, 11, .ro⟩, ⟨10, 10, .w1c⟩, ⟨9, 9, .w1c⟩, ⟨8, 8, .w1c⟩, ⟨7, 7, .w1c⟩, ⟨6, 6, .w1c⟩, ⟨5, 5, .w1c⟩, ⟨4, 4, .w1c⟩, ⟨3, 3, .w1c⟩, ⟨2, 2, .ro⟩, ⟨0, 0, .ro⟩]⟩,
  ⟨"LPE_PROGERR", 0x40005040, 0, 1, none,
    [⟨31, 28, .ro⟩, ⟨27, 24, .ro⟩, ⟨23, 18, .ro⟩, ⟨17, 17, .ro⟩, ⟨12, 0, .ro⟩]⟩,
  ⟨"LPE_DBELL", 0x40005080, 4, 9, none,
    [⟨9, 9, .w1c⟩, ⟨8, 8, .ro⟩, ⟨7, 0, .rw⟩]⟩,
  ⟨"LPE_IRQ", 0x400050C0, 0, 1, none,
    [⟨6, 6, .w1c⟩, ⟨5, 5, .w1c⟩, ⟨4, 4, .w1c⟩, ⟨3, 3, .w1c⟩, ⟨2, 2, .w1c⟩, ⟨1, 1, .w1c⟩, ⟨0, 0, .w1c⟩]⟩,
  ⟨"LPE_IRQEN", 0x400050C4, 0, 1, none,
    [⟨6, 6, .rw⟩, ⟨5, 5, .rw⟩, ⟨4, 4, .rw⟩, ⟨3, 3, .rw⟩, ⟨2, 2, .rw⟩, ⟨1, 1, .rw⟩, ⟨0, 0, .rw⟩]⟩]

/-- The FOC registers with their field types. -/
def regRowsFOC : List RegRow := [
  ⟨"FOC_CFG", 0x40006000, 0, 1, some 5,
    [⟨22, 14, .st⟩, ⟨13, 8, .st⟩, ⟨7, 6, .st⟩, ⟨5, 5, .st⟩]⟩,
  ⟨"FOC_STSEL_LO", 0x40006004, 0, 1, some 5,
    [⟨31, 0, .st⟩]⟩,
  ⟨"FOC_STSEL_HI", 0x40006008, 0, 1, some 5,
    [⟨7, 0, .st⟩]⟩,
  ⟨"FOC_LIM0", 0x4000600C, 0, 1, some 5,
    [⟨7, 0, .st⟩, ⟨15, 8, .st⟩, ⟨19, 16, .st⟩]⟩,
  ⟨"FOC_LIM1", 0x40006010, 0, 1, some 5,
    [⟨15, 0, .st⟩, ⟨31, 16, .st⟩]⟩,
  ⟨"FOC_LIM2", 0x40006014, 0, 1, some 5,
    [⟨15, 0, .st⟩, ⟨31, 16, .st⟩]⟩,
  ⟨"FOC_PAR", 0x40006100, 4, 24, some 5,
    [⟨31, 0, .st⟩]⟩,
  ⟨"FOC_STAT", 0x40006040, 0, 1, none,
    [⟨31, 16, .ro⟩, ⟨7, 7, .ro⟩, ⟨6, 6, .ro⟩, ⟨2, 0, .ro⟩]⟩,
  ⟨"FOC_CNT", 0x40006044, 0, 1, none,
    [⟨29, 20, .ro⟩, ⟨19, 10, .ro⟩, ⟨9, 0, .ro⟩]⟩,
  ⟨"FOC_UPD", 0x40006048, 0, 1, none,
    [⟨31, 0, .ro⟩]⟩,
  ⟨"FOC_DEM", 0x4000604C, 0, 1, none,
    [⟨31, 24, .rc⟩, ⟨18, 16, .ro⟩, ⟨9, 0, .ro⟩]⟩,
  ⟨"FOC_AIDSTAT", 0x40006050, 0, 1, none,
    [⟨31, 24, .rc⟩, ⟨23, 16, .rc⟩, ⟨15, 12, .ro⟩, ⟨6, 0, .ro⟩]⟩,
  ⟨"FOC_CFGERR", 0x40006054, 0, 1, none,
    [⟨31, 28, .ro⟩, ⟨23, 16, .ro⟩, ⟨9, 0, .ro⟩]⟩,
  ⟨"FOC_MODEERR", 0x40006058, 0, 1, none,
    [⟨31, 28, .ro⟩, ⟨23, 16, .ro⟩, ⟨9, 0, .ro⟩]⟩,
  ⟨"FOC_IRQ", 0x4000605C, 0, 1, none,
    [⟨6, 6, .w1c⟩, ⟨5, 5, .w1c⟩, ⟨4, 4, .w1c⟩, ⟨3, 3, .w1c⟩, ⟨2, 2, .w1c⟩, ⟨1, 1, .w1c⟩, ⟨0, 0, .w1c⟩]⟩,
  ⟨"FOC_IRQEN", 0x40006060, 0, 1, none,
    [⟨6, 6, .rw⟩, ⟨5, 5, .rw⟩, ⟨4, 4, .rw⟩, ⟨3, 3, .rw⟩, ⟨2, 2, .rw⟩, ⟨1, 1, .rw⟩, ⟨0, 0, .rw⟩]⟩,
  ⟨"FOC_AIDIN", 0x40006070, 4, 8, none,
    [⟨31, 0, .wo⟩]⟩,
  ⟨"FOC_MODE", 0x40006400, 4, 128, some 6,
    [⟨2, 0, .st⟩, ⟨6, 4, .st⟩, ⟨10, 8, .st⟩, ⟨14, 12, .st⟩, ⟨18, 16, .st⟩, ⟨22, 20, .st⟩, ⟨26, 24, .st⟩, ⟨30, 28, .st⟩]⟩,
  ⟨"FOC_MODEACT", 0x40006600, 4, 128, none,
    [⟨3, 0, .ro⟩, ⟨7, 4, .ro⟩, ⟨11, 8, .ro⟩, ⟨15, 12, .ro⟩, ⟨19, 16, .ro⟩, ⟨23, 20, .ro⟩, ⟨27, 24, .ro⟩, ⟨31, 28, .ro⟩]⟩]

/-- The PRM registers with their field types. -/
def regRowsPRM : List RegRow := [
  ⟨"PRM_JD", 0x40004000, 4, 16, none,
    [⟨31, 0, .rw⟩]⟩,
  ⟨"PRM_SUBMIT", 0x40004040, 0, 1, none,
    [⟨0, 0, .wo⟩]⟩,
  ⟨"PRM_SUBRES", 0x40004044, 0, 1, none,
    [⟨31, 31, .ro⟩, ⟨15, 8, .ro⟩, ⟨4, 0, .ro⟩]⟩,
  ⟨"PRM_STAT", 0x40004048, 0, 1, none,
    [⟨31, 24, .rc⟩, ⟨22, 12, .ro⟩, ⟨11, 11, .ro⟩, ⟨10, 8, .ro⟩, ⟨7, 0, .ro⟩]⟩,
  ⟨"PRM_IDLE", 0x4000404C, 0, 1, none,
    [⟨31, 0, .rc⟩]⟩,
  ⟨"PRM_DURSTAT", 0x40004050, 0, 1, none,
    [⟨6, 6, .ro⟩, ⟨5, 0, .ro⟩]⟩,
  ⟨"PRM_IRQ", 0x40004060, 0, 1, none,
    [⟨2, 2, .w1c⟩, ⟨1, 1, .w1c⟩, ⟨0, 0, .w1c⟩]⟩,
  ⟨"PRM_IRQEN", 0x40004064, 0, 1, none,
    [⟨2, 2, .rw⟩, ⟨1, 1, .rw⟩, ⟨0, 0, .rw⟩]⟩]

/-- The FLY registers with their field types. -/
def regRowsFLY : List RegRow := [
  ⟨"FLY_STAT", 0x40007000, 0, 1, none,
    [⟨15, 12, .ro⟩, ⟨11, 11, .ro⟩, ⟨10, 10, .ro⟩, ⟨9, 9, .w1c⟩, ⟨8, 8, .ro⟩, ⟨7, 4, .ro⟩, ⟨2, 0, .ro⟩]⟩,
  ⟨"FLY_UNC", 0x40007004, 0, 1, none,
    [⟨31, 0, .ro⟩]⟩,
  ⟨"FLY_HOLDT", 0x40007008, 0, 1, none,
    [⟨31, 0, .ro⟩]⟩,
  ⟨"FLY_STEP", 0x4000700C, 0, 1, none,
    [⟨31, 28, .ro⟩, ⟨27, 27, .ro⟩, ⟨26, 0, .ro⟩]⟩,
  ⟨"FLY_FREQ", 0x40007010, 0, 1, none,
    [⟨31, 0, .ro⟩]⟩,
  ⟨"FLY_DRIFT", 0x40007014, 0, 1, none,
    [⟨31, 0, .ro⟩]⟩,
  ⟨"FLY_KT", 0x40007018, 0, 1, none,
    [⟨31, 0, .ro⟩]⟩,
  ⟨"FLY_CFG", 0x40007020, 0, 1, some 12,
    [⟨23, 16, .st⟩, ⟨15, 8, .st⟩, ⟨7, 4, .st⟩, ⟨1, 0, .st⟩]⟩,
  ⟨"FLY_HOLDLIM", 0x40007024, 0, 1, some 12,
    [⟨31, 0, .st⟩]⟩,
  ⟨"FLY_UNCLIM", 0x40007028, 0, 1, some 12,
    [⟨31, 0, .st⟩]⟩,
  ⟨"FLY_STEPTHR", 0x4000702C, 0, 1, some 12,
    [⟨31, 0, .st⟩]⟩,
  ⟨"FLY_SLEW", 0x40007030, 0, 1, some 12,
    [⟨31, 0, .st⟩]⟩,
  ⟨"FLY_TP_CFG", 0x40007040, 8, 4, some 10,
    [⟨31, 12, .st⟩, ⟨8, 8, .st⟩, ⟨7, 4, .st⟩, ⟨3, 3, .st⟩, ⟨1, 0, .st⟩]⟩,
  ⟨"FLY_TP_WID", 0x40007044, 8, 4, some 10,
    [⟨31, 16, .st⟩, ⟨15, 0, .st⟩]⟩,
  ⟨"FLY_TP_OFS", 0x40007060, 4, 4, some 10,
    [⟨31, 0, .st⟩]⟩,
  ⟨"FLY_TSCFG", 0x40007070, 0, 1, some 11,
    [⟨3, 3, .st⟩, ⟨7, 7, .st⟩, ⟨11, 11, .st⟩, ⟨15, 15, .st⟩, ⟨2, 0, .st⟩, ⟨6, 4, .st⟩, ⟨10, 8, .st⟩, ⟨14, 12, .st⟩]⟩,
  ⟨"FLY_ANTDLY", 0x40007080, 4, 4, some 11,
    [⟨31, 0, .st⟩]⟩,
  ⟨"FLY_TPDLY", 0x40007090, 4, 4, some 11,
    [⟨31, 0, .st⟩]⟩,
  ⟨"FLY_CFGERR", 0x400070A0, 0, 1, none,
    [⟨11, 8, .ro⟩, ⟨7, 4, .ro⟩, ⟨3, 0, .ro⟩]⟩,
  ⟨"FLY_EVCFG", 0x400070B0, 0, 1, none,
    [⟨1, 0, .rw⟩, ⟨3, 2, .rw⟩, ⟨5, 4, .rw⟩, ⟨7, 6, .rw⟩, ⟨9, 8, .rw⟩, ⟨11, 10, .rw⟩, ⟨13, 12, .rw⟩, ⟨15, 14, .rw⟩]⟩,
  ⟨"FLY_EVSTAT", 0x400070B4, 0, 1, none,
    [⟨31, 24, .rc⟩, ⟨23, 16, .rc⟩, ⟨8, 0, .ro⟩]⟩,
  ⟨"FLY_EVQ0", 0x400070C0, 0, 1, none,
    [⟨31, 0, .ro⟩]⟩,
  ⟨"FLY_EVQ1", 0x400070C4, 0, 1, none,
    [⟨31, 0, .ro⟩]⟩,
  ⟨"FLY_EVQ2", 0x400070C8, 0, 1, none,
    [⟨31, 0, .ro⟩]⟩,
  ⟨"FLY_EVQ3", 0x400070CC, 0, 1, none,
    [⟨31, 0, .rc⟩]⟩,
  ⟨"FLY_TMR", 0x400070D0, 0, 1, none,
    [⟨15, 0, .rc⟩]⟩,
  ⟨"FLY_IRQ", 0x400070E0, 0, 1, none,
    [⟨7, 7, .w1c⟩, ⟨6, 6, .w1c⟩, ⟨5, 5, .w1c⟩, ⟨4, 4, .w1c⟩, ⟨3, 3, .w1c⟩, ⟨2, 2, .w1c⟩, ⟨1, 1, .w1c⟩, ⟨0, 0, .w1c⟩]⟩,
  ⟨"FLY_IRQEN", 0x400070E4, 0, 1, none,
    [⟨7, 7, .rw⟩, ⟨6, 6, .rw⟩, ⟨5, 5, .rw⟩, ⟨4, 4, .rw⟩, ⟨3, 3, .rw⟩, ⟨2, 2, .rw⟩, ⟨1, 1, .rw⟩, ⟨0, 0, .rw⟩]⟩]

/-- The REEL registers with their field types. -/
def regRowsREEL : List RegRow := [
  ⟨"REEL_START", 0x40008000, 0, 1, none,
    [⟨9, 9, .wo⟩, ⟨8, 8, .wo⟩, ⟨7, 0, .wo⟩]⟩,
  ⟨"REEL_STOP", 0x40008004, 0, 1, none,
    [⟨7, 0, .wo⟩]⟩,
  ⟨"REEL_STAT", 0x40008008, 0, 1, none,
    [⟨31, 24, .w1c⟩, ⟨23, 16, .w1c⟩, ⟨15, 8, .ro⟩, ⟨7, 0, .ro⟩]⟩,
  ⟨"REEL_WHI", 0x4000800C, 0, 1, none,
    [⟨31, 0, .rw⟩]⟩,
  ⟨"REEL_CAPSTAT", 0x40008010, 0, 1, none,
    [⟨15, 8, .w1c⟩, ⟨7, 0, .ro⟩]⟩,
  ⟨"REEL_MKRATE", 0x40008014, 0, 1, none,
    [⟨31, 0, .rw⟩]⟩,
  ⟨"REEL_MKERR", 0x40008018, 0, 1, none,
    [⟨31, 31, .ro⟩, ⟨23, 0, .ro⟩]⟩,
  ⟨"REEL_MKAMT_LO", 0x4000801C, 0, 1, none,
    [⟨31, 0, .rl⟩]⟩,
  ⟨"REEL_MKAMT_HI", 0x40008020, 0, 1, none,
    [⟨31, 0, .ro⟩]⟩,
  ⟨"REEL_MKFRAC", 0x40008024, 0, 1, none,
    [⟨15, 0, .ro⟩]⟩,
  ⟨"REEL_IRQ", 0x40008030, 0, 1, none,
    [⟨20, 20, .w1c⟩, ⟨19, 19, .w1c⟩, ⟨18, 18, .w1c⟩, ⟨17, 17, .w1c⟩, ⟨16, 16, .w1c⟩, ⟨15, 8, .w1c⟩, ⟨7, 0, .w1c⟩]⟩,
  ⟨"REEL_IRQEN", 0x40008034, 0, 1, none,
    [⟨20, 20, .rw⟩, ⟨19, 19, .rw⟩, ⟨18, 18, .rw⟩, ⟨17, 17, .rw⟩, ⟨16, 16, .rw⟩, ⟨15, 8, .rw⟩, ⟨7, 0, .rw⟩]⟩,
  ⟨"REEL_CNT_LO", 0x40008100, 64, 8, none,
    [⟨31, 0, .rl⟩]⟩,
  ⟨"REEL_CNT_HI", 0x40008104, 64, 8, none,
    [⟨31, 0, .ro⟩]⟩,
  ⟨"REEL_CMP_LO", 0x40008108, 64, 8, none,
    [⟨31, 0, .rl⟩]⟩,
  ⟨"REEL_CMP_HI", 0x4000810C, 64, 8, none,
    [⟨31, 0, .ro⟩]⟩,
  ⟨"REEL_INC_LO", 0x40008110, 64, 8, none,
    [⟨31, 0, .rw⟩]⟩,
  ⟨"REEL_INC_HI", 0x40008114, 64, 8, none,
    [⟨31, 0, .ro⟩]⟩,
  ⟨"REEL_CAP_LO", 0x40008118, 64, 8, none,
    [⟨31, 0, .rl⟩]⟩,
  ⟨"REEL_CAP_HI", 0x4000811C, 64, 8, none,
    [⟨31, 0, .ro⟩]⟩,
  ⟨"REEL_CFG", 0x40008120, 64, 8, none,
    [⟨15, 13, .rw⟩, ⟨12, 11, .rw⟩, ⟨10, 10, .wo⟩, ⟨9, 8, .wo⟩, ⟨7, 7, .rw⟩, ⟨6, 5, .rw⟩, ⟨4, 4, .rw⟩, ⟨3, 3, .rw⟩]⟩,
  ⟨"REEL_SKIP", 0x40008124, 64, 8, none,
    [⟨31, 0, .ro⟩]⟩]

/-- The MIR registers with their field types. -/
def regRowsMIR : List RegRow := [
  ⟨"MIR_STAT", 0x40009000, 0, 1, none,
    [⟨10, 8, .ro⟩, ⟨4, 4, .ro⟩, ⟨3, 3, .ro⟩, ⟨2, 2, .ro⟩, ⟨1, 1, .ro⟩, ⟨0, 0, .ro⟩]⟩,
  ⟨"MIR_FAULT", 0x40009004, 0, 1, none,
    [⟨31, 28, .ro⟩, ⟨27, 24, .ro⟩, ⟨23, 22, .ro⟩, ⟨21, 21, .ro⟩, ⟨20, 20, .ro⟩, ⟨19, 0, .ro⟩]⟩,
  ⟨"MIR_FEPOCH", 0x40009008, 0, 1, none,
    [⟨31, 0, .ro⟩]⟩,
  ⟨"MIR_CNT", 0x4000900C, 0, 1, none,
    [⟨31, 16, .rc⟩, ⟨15, 8, .rc⟩, ⟨7, 0, .rc⟩]⟩,
  ⟨"MIR_ECC", 0x40009010, 0, 1, none,
    [⟨31, 16, .rc⟩, ⟨15, 8, .rc⟩, ⟨3, 0, .ro⟩]⟩,
  ⟨"MIR_CFG", 0x40009014, 0, 1, none,
    [⟨8, 8, .rw⟩, ⟨2, 0, .rw⟩]⟩,
  ⟨"MIR_DIGSTAT", 0x40009018, 0, 1, none,
    [⟨9, 0, .ro⟩]⟩,
  ⟨"MIR_INJ", 0x40009020, 0, 1, none,
    [⟨31, 16, .wo⟩, ⟨11, 8, .wo⟩, ⟨5, 4, .wo⟩, ⟨0, 0, .wo⟩]⟩,
  ⟨"MIR_RPSTAT", 0x40009024, 0, 1, none,
    [⟨15, 8, .ro⟩, ⟨3, 0, .ro⟩]⟩,
  ⟨"MIR_IRQ", 0x40009030, 0, 1, none,
    [⟨6, 6, .w1c⟩, ⟨5, 5, .w1c⟩, ⟨4, 4, .w1c⟩, ⟨3, 3, .w1c⟩, ⟨2, 2, .w1c⟩, ⟨1, 1, .w1c⟩, ⟨0, 0, .w1c⟩]⟩,
  ⟨"MIR_IRQEN", 0x40009034, 0, 1, none,
    [⟨6, 6, .rw⟩, ⟨5, 5, .rw⟩, ⟨4, 4, .rw⟩, ⟨3, 3, .rw⟩, ⟨2, 2, .rw⟩, ⟨1, 1, .rw⟩, ⟨0, 0, .rw⟩]⟩]

/-- The PWR registers with their field types. -/
def regRowsPWR : List RegRow := [
  ⟨"PWR_STAT", 0x4000A000, 0, 1, none,
    [⟨11, 8, .ro⟩, ⟨7, 7, .w1c⟩, ⟨6, 6, .ro⟩, ⟨5, 5, .ro⟩, ⟨2, 0, .ro⟩]⟩,
  ⟨"PWR_CTRL", 0x4000A004, 0, 1, none,
    [⟨2, 2, .wo⟩, ⟨1, 1, .wo⟩, ⟨0, 0, .wo⟩]⟩,
  ⟨"PWR_CFG", 0x4000A008, 0, 1, none,
    [⟨3, 3, .rw⟩, ⟨2, 2, .rw⟩, ⟨1, 1, .rw⟩, ⟨0, 0, .rw⟩]⟩,
  ⟨"PWR_DOZECFG", 0x4000A00C, 0, 1, none,
    [⟨22, 16, .rw⟩, ⟨13, 0, .rw⟩]⟩,
  ⟨"PWR_DOZEIDLE", 0x4000A010, 0, 1, none,
    [⟨31, 0, .rw⟩]⟩,
  ⟨"PWR_HIBIDLE", 0x4000A014, 0, 1, none,
    [⟨31, 0, .rw⟩]⟩,
  ⟨"PWR_IDLECNT", 0x4000A018, 0, 1, none,
    [⟨31, 0, .ro⟩]⟩,
  ⟨"PWR_WAKEEN", 0x4000A01C, 0, 1, none,
    [⟨5, 0, .rw⟩]⟩,
  ⟨"PWR_WAKE", 0x4000A020, 0, 1, none,
    [⟨5, 0, .w1c⟩]⟩,
  ⟨"PWR_WAKETICK_LO", 0x4000A024, 0, 1, none,
    [⟨31, 0, .rw⟩]⟩,
  ⟨"PWR_WAKETICK_HI", 0x4000A028, 0, 1, none,
    [⟨15, 0, .rw⟩]⟩,
  ⟨"PWR_VCWAIT", 0x4000A02C, 0, 1, none,
    [⟨15, 0, .rw⟩]⟩,
  ⟨"PWR_FEWAIT", 0x4000A030, 0, 1, none,
    [⟨15, 0, .rw⟩]⟩,
  ⟨"PWR_RSTCAUSE", 0x4000A034, 0, 1, none,
    [⟨2, 0, .ro⟩]⟩,
  ⟨"PWR_SUPSTAT", 0x4000A038, 0, 1, none,
    [⟨7, 7, .ro⟩, ⟨6, 0, .ro⟩]⟩,
  ⟨"PWR_IRQ", 0x4000A040, 0, 1, none,
    [⟨5, 5, .w1c⟩, ⟨4, 4, .w1c⟩, ⟨3, 3, .w1c⟩, ⟨2, 2, .w1c⟩, ⟨1, 1, .w1c⟩, ⟨0, 0, .w1c⟩]⟩,
  ⟨"PWR_IRQEN", 0x4000A044, 0, 1, none,
    [⟨5, 5, .rw⟩, ⟨4, 4, .rw⟩, ⟨3, 3, .rw⟩, ⟨2, 2, .rw⟩, ⟨1, 1, .rw⟩, ⟨0, 0, .rw⟩]⟩]

/-- The WHL registers with their field types. -/
def regRowsWHL : List RegRow := [
  ⟨"WHL_STAT", 0x4000B000, 0, 1, none,
    [⟨6, 6, .w1c⟩, ⟨5, 5, .w1c⟩, ⟨4, 4, .w1c⟩, ⟨3, 3, .ro⟩, ⟨2, 2, .ro⟩, ⟨1, 1, .ro⟩, ⟨0, 0, .ro⟩]⟩,
  ⟨"WHL_TRUST", 0x4000B004, 0, 1, none,
    [⟨7, 7, .w1c⟩, ⟨6, 6, .w1c⟩, ⟨5, 5, .w1c⟩, ⟨4, 4, .w1c⟩, ⟨1, 0, .ro⟩]⟩,
  ⟨"WHL_CNT_LO", 0x4000B008, 0, 1, none,
    [⟨31, 0, .rl⟩]⟩,
  ⟨"WHL_CNT_HI", 0x4000B00C, 0, 1, none,
    [⟨15, 0, .ro⟩]⟩,
  ⟨"WHL_TSIDX_LO", 0x4000B010, 0, 1, none,
    [⟨31, 0, .ro⟩]⟩,
  ⟨"WHL_TSIDX_HI", 0x4000B014, 0, 1, none,
    [⟨31, 0, .ro⟩]⟩,
  ⟨"WHL_WDAY", 0x4000B018, 0, 1, none,
    [⟨11, 11, .wo⟩, ⟨10, 8, .wo⟩, ⟨2, 0, .ro⟩]⟩,
  ⟨"WHL_DAYPHASE", 0x4000B01C, 0, 1, none,
    [⟨31, 0, .rw⟩]⟩,
  ⟨"WHL_CFG", 0x4000B020, 0, 1, none,
    [⟨1, 0, .rw⟩]⟩,
  ⟨"WHL_CHG", 0x4000B024, 0, 1, none,
    [⟨31, 24, .wo⟩, ⟨6, 6, .rw⟩, ⟨5, 4, .rw⟩, ⟨2, 0, .rw⟩]⟩,
  ⟨"WHL_OFFSET", 0x4000B028, 0, 1, none,
    [⟨15, 0, .rw⟩]⟩,
  ⟨"WHL_CTRL", 0x4000B02C, 0, 1, none,
    [⟨1, 1, .wo⟩, ⟨0, 0, .wo⟩]⟩,
  ⟨"WHL_TEMP", 0x4000B030, 0, 1, none,
    [⟨15, 0, .ro⟩]⟩,
  ⟨"WHL_CORR", 0x4000B034, 0, 1, none,
    [⟨31, 0, .ro⟩]⟩,
  ⟨"WHL_ACC", 0x4000B038, 0, 1, none,
    [⟨31, 0, .ro⟩]⟩,
  ⟨"WHL_CURVE", 0x4000B040, 4, 16, none,
    [⟨31, 16, .rw⟩, ⟨15, 0, .rw⟩]⟩,
  ⟨"WHL_CURVE16", 0x4000B080, 0, 1, none,
    [⟨15, 0, .rw⟩]⟩,
  ⟨"WHL_IRQ", 0x4000B090, 0, 1, none,
    [⟨4, 4, .w1c⟩, ⟨3, 3, .w1c⟩, ⟨2, 2, .w1c⟩, ⟨1, 1, .w1c⟩, ⟨0, 0, .w1c⟩]⟩,
  ⟨"WHL_IRQEN", 0x4000B094, 0, 1, none,
    [⟨4, 4, .rw⟩, ⟨3, 3, .rw⟩, ⟨2, 2, .rw⟩, ⟨1, 1, .rw⟩, ⟨0, 0, .rw⟩]⟩]

/-- The UART registers with their field types. -/
def regRowsUART : List RegRow := [
  ⟨"UART_CFG", 0x4000D000, 4096, 2, none,
    [⟨5, 5, .rw⟩, ⟨4, 4, .rw⟩, ⟨3, 2, .rw⟩, ⟨1, 1, .rw⟩, ⟨0, 0, .rw⟩]⟩,
  ⟨"UART_RATE", 0x4000D004, 4096, 2, none,
    [⟨22, 0, .rw⟩]⟩,
  ⟨"UART_FIFOCTL", 0x4000D008, 4096, 2, none,
    [⟨17, 17, .wo⟩, ⟨16, 16, .wo⟩, ⟨14, 8, .rw⟩, ⟨6, 0, .rw⟩]⟩,
  ⟨"UART_IRQEN", 0x4000D00C, 4096, 2, none,
    [⟨10, 0, .rw⟩]⟩,
  ⟨"UART_TOUT", 0x4000D010, 4096, 2, none,
    [⟨7, 0, .rw⟩]⟩,
  ⟨"UART_PINCFG", 0x4000D014, 4096, 2, none,
    [⟨2, 2, .rw⟩, ⟨1, 1, .rw⟩, ⟨0, 0, .rw⟩]⟩,
  ⟨"UART_STAT", 0x4000D020, 4096, 2, none,
    [⟨30, 24, .ro⟩, ⟨22, 16, .ro⟩, ⟨9, 9, .ro⟩, ⟨8, 8, .ro⟩, ⟨7, 7, .ro⟩, ⟨6, 6, .ro⟩, ⟨5, 5, .w1c⟩, ⟨4, 4, .w1c⟩, ⟨3, 3, .w1c⟩, ⟨2, 2, .w1c⟩, ⟨1, 1, .w1c⟩, ⟨0, 0, .w1c⟩]⟩,
  ⟨"UART_GLITCH", 0x4000D024, 4096, 2, none,
    [⟨15, 0, .rc⟩]⟩,
  ⟨"UART_RATEACT", 0x4000D028, 4096, 2, none,
    [⟨22, 0, .ro⟩]⟩,
  ⟨"UART_IRQ", 0x4000D030, 4096, 2, none,
    [⟨10, 10, .w1c⟩, ⟨9, 9, .w1c⟩, ⟨8, 8, .w1c⟩, ⟨7, 7, .w1c⟩, ⟨6, 6, .w1c⟩, ⟨5, 5, .w1c⟩, ⟨4, 4, .w1c⟩, ⟨3, 3, .w1c⟩, ⟨2, 2, .w1c⟩, ⟨1, 1, .w1c⟩, ⟨0, 0, .w1c⟩]⟩,
  ⟨"UART_DATA", 0x4000D040, 4096, 2, none,
    [⟨31, 31, .rc⟩, ⟨11, 11, .rc⟩, ⟨10, 10, .rc⟩, ⟨9, 9, .rc⟩, ⟨8, 8, .rc⟩, ⟨7, 0, .rc⟩]⟩]

/-- The QSP registers with their field types. -/
def regRowsQSP : List RegRow := [
  ⟨"QSP_CFG", 0x4000F000, 0, 1, none,
    [⟨1, 1, .rw⟩, ⟨0, 0, .rw⟩]⟩,
  ⟨"QSP_INTEN", 0x4000F004, 0, 1, none,
    [⟨3, 3, .rw⟩, ⟨2, 2, .rw⟩, ⟨1, 1, .rw⟩, ⟨0, 0, .rw⟩]⟩,
  ⟨"QSP_IRQEN", 0x4000F008, 0, 1, none,
    [⟨4, 0, .rw⟩]⟩,
  ⟨"QSP_OUTTHR", 0x4000F00C, 0, 1, none,
    [⟨15, 0, .rw⟩]⟩,
  ⟨"QSP_STAT", 0x4000F020, 0, 1, none,
    [⟨31, 16, .ro⟩, ⟨15, 0, .ro⟩]⟩,
  ⟨"QSP_FLAGS", 0x4000F024, 0, 1, none,
    [⟨23, 16, .ro⟩, ⟨15, 8, .ro⟩, ⟨7, 7, .ro⟩, ⟨6, 6, .ro⟩, ⟨5, 5, .w1c⟩, ⟨4, 4, .w1c⟩, ⟨3, 3, .w1c⟩, ⟨2, 2, .w1c⟩, ⟨1, 1, .ro⟩, ⟨0, 0, .ro⟩]⟩,
  ⟨"QSP_CNT", 0x4000F028, 0, 1, none,
    [⟨15, 0, .rc⟩]⟩,
  ⟨"QSP_IRQ", 0x4000F030, 0, 1, none,
    [⟨4, 4, .w1c⟩, ⟨3, 3, .w1c⟩, ⟨2, 2, .w1c⟩, ⟨1, 1, .w1c⟩, ⟨0, 0, .w1c⟩]⟩]

/-- The SVC registers with their field types. -/
def regRowsSVC : List RegRow := [
  ⟨"SVC_CTRL", 0x40010000, 0, 1, none,
    [⟨0, 0, .wo⟩]⟩,
  ⟨"SVC_MONSEL", 0x40010004, 0, 1, none,
    [⟨4, 0, .rw⟩]⟩,
  ⟨"SVC_PINSEL", 0x40010008, 0, 1, none,
    [⟨8, 0, .rw⟩]⟩,
  ⟨"SVC_PINCTL", 0x4001000C, 0, 1, none,
    [⟨1, 0, .rw⟩]⟩,
  ⟨"SVC_STAT", 0x40010010, 0, 1, none,
    [⟨11, 8, .ro⟩, ⟨6, 6, .ro⟩, ⟨5, 5, .ro⟩, ⟨4, 4, .w1c⟩, ⟨3, 3, .w1c⟩, ⟨2, 2, .w1c⟩, ⟨0, 0, .ro⟩]⟩]

/-- The TSG registers with their field types. -/
def regRowsTSG : List RegRow := [
  ⟨"TSG_SUB", 0x40012000, 0, 1, some 13,
    [⟨7, 0, .st⟩]⟩,
  ⟨"TSG_ERR", 0x40012004, 0, 1, none,
    [⟨31, 28, .ro⟩, ⟨3, 0, .ro⟩]⟩,
  ⟨"TSG_STAT", 0x40012008, 0, 1, none,
    [⟨7, 0, .ro⟩]⟩,
  ⟨"TSG_SIG_W0", 0x40012100, 32, 16, some 13,
    [⟨31, 31, .st⟩, ⟨30, 28, .st⟩, ⟨27, 23, .st⟩, ⟨22, 12, .st⟩, ⟨11, 11, .st⟩, ⟨10, 0, .st⟩]⟩,
  ⟨"TSG_SIG_W1", 0x40012104, 32, 16, some 13,
    [⟨31, 16, .st⟩, ⟨15, 12, .st⟩, ⟨11, 7, .st⟩]⟩,
  ⟨"TSG_SIG_W2", 0x40012108, 32, 16, some 13,
    [⟨31, 0, .st⟩]⟩,
  ⟨"TSG_SIG_W3", 0x4001210C, 32, 16, some 13,
    [⟨31, 0, .st⟩]⟩,
  ⟨"TSG_SIG_W4", 0x40012110, 32, 16, some 13,
    [⟨31, 0, .st⟩]⟩,
  ⟨"TSG_SIG_W5", 0x40012114, 32, 16, some 13,
    [⟨31, 0, .st⟩]⟩,
  ⟨"TSG_SIG_W6", 0x40012118, 32, 16, some 13,
    [⟨31, 0, .st⟩]⟩,
  ⟨"TSG_SIG_W7", 0x4001211C, 32, 16, some 13,
    []⟩]

/-- The SET registers with their field types. -/
def regRowsSET : List RegRow := [
  ⟨"SET_CFG", 0x40011000, 0, 1, some 14,
    [⟨15, 8, .st⟩, ⟨0, 0, .st⟩]⟩,
  ⟨"SET_TRDLY", 0x40011004, 0, 1, some 14,
    [⟨14, 0, .st⟩]⟩,
  ⟨"SET_IRQEN", 0x40011008, 0, 1, none,
    [⟨5, 0, .rw⟩]⟩,
  ⟨"SET_LATEMS", 0x4001100C, 0, 1, none,
    [⟨15, 0, .rw⟩]⟩,
  ⟨"SET_STAT", 0x40011014, 0, 1, none,
    [⟨31, 24, .rc⟩, ⟨23, 16, .rc⟩, ⟨6, 6, .w1c⟩, ⟨5, 5, .w1c⟩, ⟨4, 4, .w1c⟩, ⟨2, 0, .ro⟩]⟩,
  ⟨"SET_STRAP", 0x40011018, 0, 1, none,
    [⟨7, 7, .ro⟩, ⟨6, 4, .ro⟩, ⟨3, 2, .ro⟩, ⟨1, 0, .ro⟩]⟩,
  ⟨"SET_PHASE", 0x4001101C, 0, 1, none,
    [⟨31, 0, .ro⟩]⟩,
  ⟨"SET_IRQ", 0x40011030, 0, 1, none,
    [⟨5, 5, .w1c⟩, ⟨4, 4, .w1c⟩, ⟨3, 3, .w1c⟩, ⟨2, 2, .w1c⟩, ⟨1, 1, .w1c⟩, ⟨0, 0, .w1c⟩]⟩]

/-- Every register of R501, block by block. -/
def regRows : List RegRow :=
  regRowsPLAN ++ regRowsFACET ++ regRowsSYS ++ regRowsNVM ++ regRowsBOB ++ regRowsFAB ++ regRowsSTR ++ regRowsLPE ++ regRowsFOC ++ regRowsPRM ++ regRowsFLY ++ regRowsREEL ++ regRowsMIR ++ regRowsPWR ++ regRowsWHL ++ regRowsUART ++ regRowsQSP ++ regRowsSVC ++ regRowsTSG ++ regRowsSET

/-- The registers that do not read 0 after reset (R8, R505; log entries 20 and 21 for the values the spec leaves to the image or gives none). -/
def resetRegs : RegMap := [
  (0x40001080, 0x100#32),
  (0x40001084, 0xC0#32),
  (0x40002144, 0xA8000#32),
  (0x40004048, 0x200000#32),
  (0x40007004, 0xFFFFFFFF#32),
  (0x40007020, 0x20FA0#32),
  (0x40007024, 0x3840#32),
  (0x40007028, 0x3E8#32),
  (0x4000702C, 0x3E8#32),
  (0x40007030, 0x3E8#32),
  (0x40007040, 0xC0#32),
  (0x40007044, 0x27102710#32),
  (0x40007048, 0xC0#32),
  (0x4000704C, 0x27102710#32),
  (0x40007050, 0xC0#32),
  (0x40007054, 0x27102710#32),
  (0x40007058, 0xC0#32),
  (0x4000705C, 0x27102710#32),
  (0x40008014, 0x9C40000#32),
  (0x40009014, 0x104#32),
  (0x4000A00C, 0x1403E8#32),
  (0x4000A02C, 0x3E8#32),
  (0x4000A030, 0xA#32),
  (0x4000A038, 0x7F#32),
  (0x4000B004, 0x52#32),
  (0x4000B020, 0x1#32),
  (0x4000D000, 0x1#32),
  (0x4000D004, 0x1C200#32),
  (0x4000D008, 0x801#32),
  (0x4000D010, 0x4#32),
  (0x4000D014, 0x4#32),
  (0x4000D020, 0x200#32),
  (0x4000D028, 0x1C200#32),
  (0x4000E000, 0x1#32),
  (0x4000E004, 0x1C200#32),
  (0x4000E008, 0x801#32),
  (0x4000E010, 0x4#32),
  (0x4000E014, 0x4#32),
  (0x4000E020, 0x200#32),
  (0x4000E028, 0x1C200#32),
  (0x4000F000, 0x1#32),
  (0x4000F004, 0x7#32),
  (0x4000F00C, 0x1#32),
  (0x40011000, 0x301#32),
  (0x4001100C, 0x1F4#32),
  (0x40013000, 0x947200B0#32),
  (0x40013004, 0x1000000#32),
  (0x40013020, 0x2#32)]

/-- The staged registers whose value in force is not 0 after reset (R8, log entry 20). -/
def resetForce : RegMap := [
  (0x40007020, 0x20FA0#32),
  (0x40007024, 0x3840#32),
  (0x40007028, 0x3E8#32),
  (0x4000702C, 0x3E8#32),
  (0x40007030, 0x3E8#32),
  (0x40007040, 0xC0#32),
  (0x40007044, 0x27102710#32),
  (0x40007048, 0xC0#32),
  (0x4000704C, 0x27102710#32),
  (0x40007050, 0xC0#32),
  (0x40007054, 0x27102710#32),
  (0x40007058, 0xC0#32),
  (0x4000705C, 0x27102710#32),
  (0x40011000, 0x301#32)]

end Sys2Proof.Machine
end

