-- ==== Sys2Proof/Machine/Reset.lean ====
section
/-! DEFINITION. The device after a reset that follows a first power-up (R8, R505), block by block. Where the spec gives no value the
log entry named stands for it. -/
namespace Sys2Proof.Machine

/-- An image that holds nothing: what is in force before the first load (log entry 7). -/
def Image.blank : Image := { product := 0, patchLvl := 0, secs := [] }

def PlanSt.reset : PlanSt :=
  { img := Image.blank, src := .romDefault, other := Image.blank, nextCat := none, cand := none, switchAt := none, opened := [], recs := [],
    commitAt := [], dirty := [], hankChg := [], plyChg := [], coefChg := [], lifeChg := [], modeChg := [], touched := [],
    applied := [], jobs := [], doneFifo := [], xdone := [], nextSeq := 0 }

/-- Fuses as they leave manufacture: no customer key, the Klodwen key not barred (log entry 22). -/
def Otp.reset : Otp :=
  { cks := List.replicate 2 { key := [], valid := false, revoked := false }, kldoff := false }

/-- FE_PWR0 to FE_PWR3 are high and SCLK_OUT is low (R79, R474). -/
def BobSt.reset : BobSt :=
  { streams := Vector.replicate 8 { taps := [], fifo := 4, strobeLost := false, org := 0, wrote := [] }, pins := [], taken := 0,
    half := Vector.replicate 8 [], halfZf := [], snapStart := 0, snapMask := 0, snapNep := 0, snapFeoff := false,
    releasePending := false, feAt := none, snapZf := [], snapTsgs := [], snapSlip := false, rxOff := false,
    fePwr := List.replicate 4 true, sclk := false }

def FocSt.reset : FocSt :=
  { modes := [], state := 0, num := { x := List.replicate 40 0, cov := List.replicate 1600 0 }, restart := false, lastFc := none, lastGood := 0,
    coasted := false, rows := 0, rej := 0, mdrop := 0, upd := 0, due := none, lastAid := none, aidAt := none, aidLost := false,
    products := List.replicate 3 none, back := [] }

def Hot.reset : Hot :=
  { mem := [], strands := [], wbq := [], plies := [], phases := [], slices := [], foc := FocSt.reset }

def OutSt.reset : OutSt :=
  { rxSum := 0, clkj := none, last := Vector.replicate 16 none, occ := Vector.replicate 16 0, gap := Vector.replicate 16 false, sols := [],
    lastSol := none }

def TpSt.reset : TpSt :=
  { act := { mode := 0, pol := false, period := 0xC, ofs := 0, scale := 0, fb := false }, on := false,
    tgt := 0, err := 0, held := 0, active := false,
    offAt := none, last := none, step := none, first := false, turn := false, lock := false, pol := false }

/-- Of the scales, GPST and TAI are fixed (R261). -/
def FlySt.reset : FlySt :=
  { model := { x := 0, y := 0, z := 0, kt := 0, cov := List.replicate 16 0 }, prior := [], ocxo := false, lastAcc := none, temp := 0,
    tHold := 0, tInt := 0, tRef := 0, consec := 0, sol := [], badCopy := false, tps := Vector.replicate 4 TpSt.reset,
    scales := #v[some 0, none, none, none, none, some (19000000000 * 65536), none, none], evq := [],
    evCount := Vector.replicate 8 0, evLast := Vector.replicate 8 none, evWas := none, anchored := none }

def ReelSt.reset : ReelSt :=
  { cnts := Vector.replicate 8 { base := 0, since := 0, run := false, cmp := 0, inc := 0, cap := 0, capAt := none, out := false,
                                 want := none, release := none },
    seen := 0, moving := [], amount := 0 }

def MirSt.reset : MirSt :=
  { lost := false, inj := none, injOut := none, badOut := [], caught := none, cut := false, occs := [], bells := [], reseedDue := false, dstUntil := none,
    lastWarm := none, reports := [],
    hankBad := [] }

def PwrSt.reset : PwrSt :=
  { dozeAt := 0, offAt := 0, dozeExit := none, projected := false, powering := [], tick := none, actAt := 0, hib := 0, still := false, coreEn := true }

/-- Whorl at its first power-up (R368, R374); VBAT is 3.0 V (log entry 23). -/
def WhlSt.reset : WhlSt :=
  { cntA := 0, cntB := 0, acc := 0, k := 0, wday := 0, phase := 0, lbth := 1, chg := 0, offset := 0, curve := List.replicate 33 0,
    curveNext := none, pend := [], edges := 0, alive := false, vbat := 3000, shCnt := 0, shTs := 0, shWday := 0 }

def NvmSt.reset : NvmSt :=
  { written := [], tail := 0, queue := [], fails := 0, compactTo := none, ops := [], lastSeq := 0, dirty := false, cacheAt := none }

/-- W_R is the ROM default 2,300 (R389). -/
def DstSt.reset : DstSt :=
  { sets := [], low := 0, patches := [], locked := false, filed := 0, wroll := 2300, week := none, sigs := [], amb := [], handed := [],
    osnFail := [], nmeaAt := Vector.replicate 7 none, msmSlips := [], leap := none }

def UartSt.reset : UartSt :=
  { rx := [], tx := [], shift := none, rxPend := false, txPend := false, rxCfg := 1, wake := [], glitches := 0 }

def QspSt.reset : QspSt := { out := [], waited := false, win := [], op := none, resp := [], image := [], awaiting := false }

def LinkSt.reset : LinkSt :=
  { opened := false, major := 0, minor := 0, hostId := 0, seq := 0, memory := [], waiting := [], crcErr := 0, lost := 0, rx := [],
    skip := false, outq := [], cat := none, restored := false, nonce := none, notices := [] }

def SvcSt.reset : SvcSt :=
  { armed := none, lastInput := 0, pins := [], line := [], afterCr := false, tooLong := false, test := none, out := [], tsgFrom := 0 }

/-- Surroundings in which nothing fails, at 25 °C: what they are is an operand of START_UP. -/
def BootEnv.reset : BootEnv :=
  { straps := 0, ref := none, lockA := true, lock := true, sweeps := [], fails := 0, ecc := 0, anchorBad := false, temp := 2500, pins := []
    corrected := 0 }

def BootSt.reset : BootSt :=
  { env := BootEnv.reset, cand := none, first := 0, wait := 1, woke := 0, frames := 0, expect := 0, miss := 0, heard := false, sent := [] }

/-- The device right after RST_N is released at a first power-up. -/
def coreReset : Core :=
  { regs := resetRegs, force := resetForce, mem := [], hot := Hot.reset, ckpt := Hot.reset, plan := PlanSt.reset, bob := BobSt.reset,
    lpe := { latches := [], consumed := [], evq := [], symq := [] }, out := OutSt.reset,
    foc := { fifo := [], taken := [], shadow := [], effect := [] }, prm := { slot := none, seen := 0, busy := none, era := 0 }, fly := FlySt.reset,
    reel := ReelSt.reset, mir := MirSt.reset, replay := none, pwr := PwrSt.reset, whl := WhlSt.reset, nvm := NvmSt.reset,
    dst := DstSt.reset, otp := Otp.reset, uarts := Vector.replicate 2 UartSt.reset, qsp := QspSt.reset,
    links := Vector.replicate 3 LinkSt.reset, pinOver := [], svc := SvcSt.reset, boot := BootSt.reset, saved := none, readData := [],
    free := 0 }

end Sys2Proof.Machine
end

