-- ==== Sys2Proof/Machine/State.lean ====
section
/-! DEFINITION. The state of the device with the commands waiting, the reasons for a stop, and the state right after reset. -/
namespace Sys2Proof.Machine

/-- The device: the commands waiting, first in, first out; console lines that arrived while a command ran (R459); time; the core. -/
structure State where
  pending : List Instr
  held : List Instr
  clk : Clock
  core : Core
deriving DecidableEq, Repr

/-- Reasons for a fault. No command of this device ends in one: the spec gives every command an effect. -/
inductive Fault where
  /-- Raised by nobody; safe. -/
  | none
deriving DecidableEq, Repr

/-- Reasons for a refusal. -/
inductive Refusal where
  /-- Raised by Dispatch for a command that has no meaning yet, named by its mnemonic; safe: the machine stops. -/
  | notModelled (mnemonic : String)
deriving DecidableEq, Repr

/-- The device right after reset (R8, R505): epoch 0, nothing waiting. -/
def State.reset : State := { pending := [], held := [], clk := { epoch := 0, fc := 0 }, core := coreReset }

end Sys2Proof.Machine
end

