-- ==== Sys2Proof/Machine/Ops.lean ====
section
/-! DEFINITION. The shared operations over registers, memory windows and time: bit fields, the canonical address
maps, register and field access, interrupt flags and the recording of refusals. -/
namespace Sys2Proof.Machine

/-! ### Bits and numbers -/

/-- Bits `[hi:lo]` of a word, as a number. -/
def bits (w : Word) (hi lo : Nat) : Nat := w.toNat / 2 ^ lo % 2 ^ (hi - lo + 1)

/-- The word with bits `[hi:lo]` replaced by the low bits of `v`. -/
def putBits (w : Word) (hi lo v : Nat) : Word :=
  BitVec.ofNat 32 (w.toNat - bits w hi lo * 2 ^ lo + v % 2 ^ (hi - lo + 1) * 2 ^ lo)

/-- Bit `i` of a number. -/
def bitOf (v i : Nat) : Bool := v / 2 ^ i % 2 = 1

/-- 1 for true, 0 for false. -/
def ofBool (b : Bool) : Nat := if b then 1 else 0

/-- An `n`-bit two's complement number. -/
def signedOf (n v : Nat) : Int :=
  if v % 2 ^ n < 2 ^ (n - 1) then ((v % 2 ^ n : Nat) : Int) else ((v % 2 ^ n : Nat) : Int) - ((2 ^ n : Nat) : Int)

/-- The low `n` bits of an integer in two's complement. -/
def unsignedOf (n : Nat) (i : Int) : Nat := (i % ((2 ^ n : Nat) : Int)).toNat

/-- An integer held between two bounds. -/
def clampInt (lo hi i : Int) : Int := if i < lo then lo else if hi < i then hi else i

/-- Saturation to `n` bits, signed. -/
def satSigned (n : Nat) (i : Int) : Int := clampInt (-((2 ^ (n - 1) : Nat) : Int)) (((2 ^ (n - 1) : Nat) : Int) - 1) i

/-- A counter that saturates at `top`. -/
def satAdd (top a b : Nat) : Nat := min top (a + b)

/-- An arithmetic shift right by `k`, which rounds toward minus infinity. -/
def asr (i : Int) (k : Nat) : Int := i.fdiv ((2 ^ k : Nat) : Int)

/-- A rational rounded to the nearest integer, halves away from zero. -/
def roundRat (q : Rat) : Int := if 0 ≤ q then (q + 1 / 2).floor else -((-q + 1 / 2).floor)

/-- A little-endian number from bytes. -/
def leNat : List Byte → Nat
  | [] => 0
  | b :: r => b.toNat + 256 * leNat r

/-- The `n` little-endian bytes of a number. -/
def leBytes : Nat → Nat → List Byte
  | 0, _ => []
  | n + 1, v => BitVec.ofNat 8 v :: leBytes n (v / 256)

/-- `n` bytes of a list from offset `o`, as a little-endian number; bytes beyond the end count as 0. -/
def leAt (l : List Byte) (o n : Nat) : Nat := leNat ((l.drop o).take n)

/-- Serial order modulo `2 ^ n` (R506): `a` is newer than `b`. -/
def serialNewer (n a b : Nat) : Bool :=
  let d := (a + 2 ^ n - b % 2 ^ n) % 2 ^ n
  decide (0 < d ∧ d < 2 ^ (n - 1))

/-- The element at a position of a list replaced; the list unchanged where there is none. -/
def setAt {α : Type} (l : List α) (i : Nat) (x : α) : List α := l.set i x

/-- The element of a fixed number of like things, by its number; `d` where there is none. -/
def vecAt {α : Type} {n : Nat} (d : α) (v : Vector α n) (i : Nat) : α := v.toList.getD i d

/-- One of a fixed number of like things replaced, by its number. -/
def putAt {α : Type} {n : Nat} (v : Vector α n) (i : Nat) (x : α) : Vector α n := ⟨⟨v.toList.set i x⟩, by simp⟩

/-- One of a fixed number of like things changed, by its number. -/
def modAt {α : Type} {n : Nat} (v : Vector α n) (i : Nat) (f : α → α) : Vector α n := ⟨⟨v.toList.modify i f⟩, by simp⟩

/-- Each of a fixed number of like things changed. -/
def vecMap {α : Type} {n : Nat} (v : Vector α n) (f : α → α) : Vector α n := ⟨⟨v.toList.map f⟩, by simp⟩

/-- A number put in rising order, once. -/
def insertNat (x : Nat) : List Nat → List Nat
  | [] => [x]
  | y :: r => if x < y then x :: y :: r else if x = y then y :: r else y :: insertNat x r

/-! ### Canonical address maps -/

/-- The value at an address; an unlisted address reads as `d` of it. -/
def mapGet {β : Type} (d : Nat → β) : AddrMap β → Nat → β
  | [], a => d a
  | (b, v) :: r, a => if b = a then v else mapGet d r a

/-- The map without an address. -/
def mapErase {β : Type} : AddrMap β → Nat → AddrMap β
  | [], _ => []
  | (b, v) :: r, a => if b = a then mapErase r a else (b, v) :: mapErase r a

/-- The map with a pair put at its place in rising order. -/
def mapInsert {β : Type} : AddrMap β → Nat → β → AddrMap β
  | [], a, v => [(a, v)]
  | (b, w) :: r, a, v =>
    if a < b then (a, v) :: (b, w) :: r else if b = a then (a, v) :: r else (b, w) :: mapInsert r a v

/-- The map with an address given a value, kept canonical: the value an unlisted address reads as removes the pair. -/
@[irreducible] def mapPut {β : Type} [DecidableEq β] (d : Nat → β) (m : AddrMap β) (a : Nat) (v : β) : AddrMap β :=
  if v = d a then mapErase m a else mapInsert m a v

/-- Addresses strictly rise from `lo` on, and no pair holds the value an unlisted address reads as. -/
def mapWf {β : Type} [DecidableEq β] (d : Nat → β) : Nat → AddrMap β → Bool
  | _, [] => true
  | lo, (a, v) :: r => decide (lo ≤ a) && decide (v ≠ d a) && mapWf d (a + 1) r

/-! ### Memory -/

/-- What an unlisted byte reads as: an erased byte of the NVM reads 0xFF (R69, R398); Bobbin, Hank RAM and every other window
read 0 until written (R100, R118; log entry 3 where the spec gives no contents). -/
def memDefault (a : Nat) : Byte := if 0x20000000 ≤ a ∧ a < 0x20400000 then 0xFF#8 else 0#8

/-- One byte of memory. -/
def Memory.read (m : Memory) (a : Nat) : Byte := mapGet memDefault m a

/-- One byte written. -/
def Memory.write (m : Memory) (a : Nat) (b : Byte) : Memory := mapPut memDefault m a b

/-- The canonical form of memory: addresses strictly rise and no byte is listed that reads so unlisted. -/
def Memory.wf (m : Memory) : Bool := mapWf memDefault 0 m

/-- Bytes written one after another from an address. -/
def Memory.writes (m : Memory) (a : Nat) : List Byte → Memory
  | [] => m
  | b :: r => (m.write a b).writes (a + 1) r

/-- `n` bytes read from an address. -/
def Memory.reads (m : Memory) (a : Nat) : Nat → List Byte
  | 0 => []
  | n + 1 => m.read a :: m.reads (a + 1) n

/-- A little-endian number of `n` bytes. -/
def Memory.readLe (m : Memory) (a n : Nat) : Nat := leNat (m.reads a n)

/-- A little-endian number of `n` bytes written. -/
def Memory.writeLe (m : Memory) (a n v : Nat) : Memory := m.writes a (leBytes n v)

/-- A word of a memory window. -/
def Memory.word (m : Memory) (a : Nat) : Word := BitVec.ofNat 32 (m.readLe a 4)

/-- A word written to a memory window. -/
def Memory.putWord (m : Memory) (a : Nat) (w : Word) : Memory := m.writeLe a 4 w.toNat

/-- `n` words read from an address. -/
def Memory.words (m : Memory) (a : Nat) : Nat → List Word
  | 0 => []
  | n + 1 => m.word a :: m.words (a + 4) n

/-- Words written one after another. -/
def Memory.putWords (m : Memory) (a : Nat) : List Word → Memory
  | [] => m
  | w :: r => (m.putWord a w).putWords (a + 4) r

/-- `n` bytes forgotten: they read as unlisted bytes do (a clear, an erase). -/
def Memory.clear (m : Memory) (a n : Nat) : Memory := m.filter fun c => decide (c.1 < a ∨ a + n ≤ c.1)

/-- An address lies in a range of `n` bytes. -/
def inRange (lo n a : Nat) : Bool := decide (lo ≤ a ∧ a < lo + n)

/-! ### Registers and fields of the core -/

/-- A register map's word. -/
def RegMap.reg (m : RegMap) (a : Nat) : Word := mapGet (fun _ => 0) m a

/-- A register map with a word set. -/
def RegMap.setReg (m : RegMap) (a : Nat) (w : Word) : RegMap := mapPut (fun _ => 0) m a w

/-- A field of a register map. -/
def RegMap.fld (m : RegMap) (f : Fld) : Nat := bits (m.reg f.addr) f.hi f.lo

/-- A register map with a field set. -/
def RegMap.setFld (m : RegMap) (f : Fld) (v : Nat) : RegMap := m.setReg f.addr (putBits (m.reg f.addr) f.hi f.lo v)

/-- A register of the core, as a read shows it (for a staged field the staged value, R7). -/
def Core.reg (c : Core) (a : Nat) : Word := c.regs.reg a

/-- A register of the core set. -/
def Core.setReg (c : Core) (a : Nat) (w : Word) : Core := { c with regs := c.regs.setReg a w }

/-- A field of the core's registers. -/
def Core.fld (c : Core) (f : Fld) : Nat := c.regs.fld f

/-- A field of the core's registers, as a flag. -/
def Core.flag (c : Core) (f : Fld) : Bool := decide (c.fld f ≠ 0)

/-- A field of the core's registers set. -/
def Core.setFld (c : Core) (f : Fld) (v : Nat) : Core := { c with regs := c.regs.setFld f v }

/-- A flag of the core's registers raised: an interrupt bit, a W1C status bit. -/
def Core.raise (c : Core) (f : Fld) : Core := c.setFld f 1

/-- A staged field's value in force (R7). -/
def Core.inForce (c : Core) (f : Fld) : Nat := c.force.fld f

/-- A staged field's value in force, as a flag. -/
def Core.inForceFlag (c : Core) (f : Fld) : Bool := decide (c.inForce f ≠ 0)

/-- A counting field that saturates at its width. -/
def Core.countSat (c : Core) (f : Fld) (n : Nat) : Core :=
  c.setFld f (satAdd (2 ^ (f.hi - f.lo + 1) - 1) (c.fld f) n)

/-- An uncorrectable error, counted with the row of its memory in the memory protection table (R334). -/
def Core.uncorrectable (c : Core) (row : Nat) : Core :=
  ((c.countSat F.MIR_ECC.UNCORR 1).setFld F.MIR_ECC.MEM row).raise F.MIR_IRQ.ECCU

/-- A function applied where a condition holds. -/
def applyIf {α : Type} (p : Bool) (f : α → α) (x : α) : α := if p then f x else x

/-- A function folded over the numbers below `n`, rising. -/
def forBelow {α : Type} (n : Nat) (f : α → Nat → α) (x : α) : α := (List.range n).foldl f x

/-- The numbers of `[0, n)` that satisfy a test, rising. -/
def belowSuch (n : Nat) (p : Nat → Bool) : List Nat := (List.range n).filter p

/-! ### Time -/

/-- fc in an epoch and in half an epoch (chapter 00). -/
def fcPerEpoch : Nat := 655360
def fcPerHalf : Nat := 327680
def fcPerSec : Nat := 655360000
/-- Sample periods in an epoch. -/
def tsPerEpoch : Nat := 81920

/-- The sample index now being written (R5, R89). -/
def Clock.sidx (t : Clock) : Nat := tsPerEpoch * t.epoch + t.fc / 8

/-- The fc counted from epoch 0. -/
def Clock.abs (t : Clock) : Nat := fcPerEpoch * t.epoch + t.fc

/-- The plan phase of an epoch (R26). -/
def planPhase (epoch : Nat) : Nat := epoch % 1000

/-- The epochs of a period code (R30). -/
def periodOf (code : Nat) : Nat :=
  ([1, 2, 4, 5, 8, 10, 20, 25, 40, 50, 100, 125, 200, 250, 500, 1000] : List Nat).getD (code % 16) 1

/-- The fc left before the next epoch boundary. -/
def Clock.left (t : Clock) : Nat := fcPerEpoch - t.fc

/-- The first epoch whose boundary lies at least 64 fc ahead (R41, R53, R105, R296). -/
def Clock.nextBoundary64 (t : Clock) : Nat := if 64 ≤ t.left then t.epoch + 1 else t.epoch + 2

/-! ### Power states (R349) -/

def pwRun : Nat := 0
def pwTrim : Nat := 1
def pwDoze : Nat := 2
def pwSnap : Nat := 3
def pwHib : Nat := 4
def pwBackup : Nat := 5

def Core.pwrState (c : Core) : Nat := c.fld F.PWR_STAT.STATE

end Sys2Proof.Machine
end

