-- ==== Sys2Proof/Machine/Float.lean ====
section
/-! DEFINITION. IEEE 754 single precision, round to nearest even, as Loupe's field Y computes it (R225). A value is a sign and an exact
dyadic magnitude; a NaN result's sign and payload are free (log entry 11). -/
namespace Sys2Proof.Machine

/-- A single-precision operand, taken apart. A finite magnitude is `m × 2^e`. -/
inductive F32 where
  | nan
  | inf (neg : Bool)
  | fin (neg : Bool) (m : Nat) (e : Int)
deriving DecidableEq, Repr

/-- The operand a word holds. -/
def F32.of (w : Word) : F32 :=
  let s := bits w 31 31 = 1
  let e := bits w 30 23
  let m := bits w 22 0
  if e = 255 then (if m = 0 then .inf s else .nan)
  else if e = 0 then .fin s m (-149)
  else .fin s (m + 2 ^ 23) ((e : Int) - 150)

/-- The bits a number takes. -/
def natLog (n : Nat) : Nat := if n = 0 then 0 else n.log2 + 1

/-- `m / 2^k` rounded to nearest, ties to even. -/
def rneShift (m k : Nat) : Nat :=
  let q := m / 2 ^ k
  let r := m % 2 ^ k
  if k = 0 then m
  else if 2 ^ (k - 1) < r ∨ (r = 2 ^ (k - 1) ∧ q % 2 = 1) then q + 1 else q

/-- The word of a finite value rounded once: subnormals are kept, overflow gives infinity. -/
def roundF32 (neg : Bool) (m : Nat) (e : Int) : Word :=
  let sign := ofBool neg * 2 ^ 31
  if m = 0 then BitVec.ofNat 32 sign
  else
    let top : Int := (natLog m : Int) + e
    -- the exponent of the last kept place: 24 significant bits, but not below 2^-149
    let ulp : Int := max (top - 24) (-149)
    let q := if ulp ≤ e then m * 2 ^ (e - ulp).toNat else rneShift m (ulp - e).toNat
    let q1 := if q = 2 ^ 24 then 2 ^ 23 else q
    let ulp1 := if q = 2 ^ 24 then ulp + 1 else ulp
    if q1 < 2 ^ 23 then BitVec.ofNat 32 (sign + q1)
    else
      let ef := (ulp1 + 150).toNat
      if 255 ≤ ef then BitVec.ofNat 32 (sign + 255 * 2 ^ 23) else BitVec.ofNat 32 (sign + ef * 2 ^ 23 + (q1 - 2 ^ 23))

/-- The largest finite magnitude, 3.402 823 × 10^38, with a sign (R225). -/
def maxF32 (neg : Bool) : Word := BitVec.ofNat 32 (ofBool neg * 2 ^ 31 + 0x7F7FFFFF)
def infF32 (neg : Bool) : Word := BitVec.ofNat 32 (ofBool neg * 2 ^ 31 + 0x7F800000)

/-- A quiet NaN whose sign and payload are free. -/
def nanF32 (op : Nat) (a b c : Word) : Word := (Config.nanBits op a b c &&& 0x803FFFFF#32) ||| 0x7FC00000#32

/-- The exact sum of two finite values as a signed integer at the smaller exponent. -/
def sumDyadic (s1 : Bool) (m1 : Nat) (e1 : Int) (s2 : Bool) (m2 : Nat) (e2 : Int) : Int × Int :=
  let e := min e1 e2
  let v := fun (s : Bool) (m : Nat) (x : Int) => (if s then -1 else 1 : Int) * ((m * 2 ^ (x - e).toNat : Nat) : Int)
  (v s1 m1 e1 + v s2 m2 e2, e)

/-- A finite sum rounded; an exact zero is −0 only when both addends are −0 or of one negative sign. -/
def addFinite (s1 : Bool) (m1 : Nat) (e1 : Int) (s2 : Bool) (m2 : Nat) (e2 : Int) : Word :=
  let r := sumDyadic s1 m1 e1 s2 m2 e2
  if r.1 = 0 then roundF32 (s1 && s2) 0 0 else roundF32 (decide (r.1 < 0)) r.1.natAbs r.2

/-- FADD. -/
def fadd (a b : Word) : Word :=
  match F32.of a, F32.of b with
  | .nan, _ | _, .nan => nanF32 0 a b 0
  | .inf s, .inf t => if s = t then infF32 s else nanF32 0 a b 0
  | .inf s, _ => infF32 s
  | _, .inf t => infF32 t
  | .fin s1 m1 e1, .fin s2 m2 e2 => addFinite s1 m1 e1 s2 m2 e2

/-- The word with its sign turned. -/
def fneg (a : Word) : Word := a ^^^ 0x80000000#32

/-- FSUB. -/
def fsub (a b : Word) : Word := fadd a (fneg b)

/-- A value is a zero. -/
def F32.isZero : F32 → Bool
  | .fin _ m _ => m == 0
  | _ => false

/-- FMUL. -/
def fmul (a b : Word) : Word :=
  match F32.of a, F32.of b with
  | .nan, _ | _, .nan => nanF32 1 a b 0
  | .inf s, .inf t => infF32 (s != t)
  | .inf s, .fin t m _ => if m = 0 then nanF32 1 a b 0 else infF32 (s != t)
  | .fin s m _, .inf t => if m = 0 then nanF32 1 a b 0 else infF32 (s != t)
  | .fin s m e, .fin t n f => roundF32 (s != t) (m * n) (e + f)

/-- FMA: a × b + c with one rounding. -/
def ffma (a b c : Word) : Word :=
  match F32.of a, F32.of b, F32.of c with
  | .nan, _, _ | _, .nan, _ | _, _, .nan => nanF32 2 a b c
  | .fin s m e, .fin t n f, .fin u k g => addFinite (s != t) (m * n) (e + f) u k g
  | .fin _ _ _, .fin _ _ _, .inf u => infF32 u
  | x, y, z =>
    let s := (decide (bits a 31 31 = 1)) != (decide (bits b 31 31 = 1))
    if x.isZero || y.isZero then nanF32 2 a b c
    else match z with
      | .inf u => if s = u then infF32 u else nanF32 2 a b c
      | _ => infF32 s

/-- FCVT: float(a, signed) × 2^−k. -/
def fcvt (a : Word) (k : Nat) : Word :=
  let i := signedOf 32 a.toNat
  roundF32 (decide (i < 0)) i.natAbs (-(k : Int))

/-- FTOI: sat32(round(a × 2^k)), with whether it clipped; NaN gives 0 and SAT. -/
def ftoi (a : Word) (k : Nat) : Word × Bool :=
  match F32.of a with
  | .nan => (0, true)
  | .inf s => (if s then 0x80000000#32 else 0x7FFFFFFF#32, true)
  | .fin s m e =>
    let x : Int := e + k
    let n := if 0 ≤ x then m * 2 ^ x.toNat else rneShift m (-x).toNat
    let i : Int := if s then -(n : Int) else n
    (BitVec.ofNat 32 (unsignedOf 32 (satSigned 32 i)), decide (satSigned 32 i ≠ i))

/-- A word is a floating-point value at or below 0. -/
def fNonPos (a : Word) : Bool :=
  match F32.of a with
  | .nan => false
  | .inf s => s
  | .fin s m _ => s || m == 0

/-- The word of `±m × 2^e` where a word holds exactly that. -/
def exactF32 (neg : Bool) (m : Nat) (e : Int) : Option Word :=
  let w := roundF32 neg m e
  match F32.of w with
  | .fin _ n f => if m * 2 ^ (e - min e f).toNat = n * 2 ^ (f - min e f).toNat then some w else none
  | _ => none

/-- A power of two's exponent. -/
def powerOfTwo (m : Nat) : Option Nat := if m ≠ 0 ∧ 2 ^ m.log2 = m then some m.log2 else none

/-- a / b in single precision (R225): the exact quotient where a word holds it; its rounding is not stated (log entry 11). -/
def fquot (a b : Word) : Word :=
  let exact : Option Word :=
    match F32.of a, F32.of b with
    | .fin s m e, .fin t n f =>
      (powerOfTwo (n / Nat.gcd m n)).bind fun p => exactF32 (s != t) (m / Nat.gcd m n) (e - f - (p : Int))
    | _, _ => none
  exact.getD (Config.divF32 a b)

/-- 1 / √a and log₂ a: exact where a word holds the result, which only a power of two gives (R225, log entry 11). -/
def frecSqrt (a : Word) : Word :=
  let exact : Option Word :=
    match F32.of a with
    | .fin _ m e => (powerOfTwo m).bind fun p => if (e + p) % 2 = 0 then exactF32 false 1 (-((e + p) / 2)) else none
    | _ => none
  exact.getD (Config.rsqF32 a)
def flog (a : Word) : Word :=
  let exact : Option Word :=
    match F32.of a with
    | .fin _ m e => (powerOfTwo m).bind fun p => exactF32 (decide (e + p < 0)) (e + p).natAbs 0
    | _ => none
  exact.getD (Config.log2F32 a)

/-- atan2(a, b) / 2π of finite operands: exact on the axes and the diagonals; elsewhere in the range (−0.5, 0.5] with the sign of a
(R225, log entry 11). -/
def finiteTurns (a b : Word) : Word :=
  let neg := bits a 31 31 = 1
  let left := bits b 31 31 = 1
  let signed := fun (eighths : Nat) => roundF32 (decide neg) eighths (-3)
  if (F32.of a).isZero then (if left then roundF32 false 4 (-3) else roundF32 false 0 0)
  else if (F32.of b).isZero then signed 2
  else if bits a 30 0 = bits b 30 0 then signed (if left then 3 else 1)
  else
    -- a magnitude of at most 0.5, and below it for a negative result
    let raw := (Config.atn2F32 a b).toNat % (if neg then 0x3F000000 else 0x3F000001)
    BitVec.ofNat 32 (ofBool (decide neg) * 2 ^ 31 + raw)

/-- atan2(a, b) / 2π; with an infinity or a NaN it is not stated. -/
def fturns (a b : Word) : Word :=
  match F32.of a, F32.of b with
  | .fin _ _ _, .fin _ _ _ => finiteTurns a b
  | _, _ => Config.atn2F32 a b

/-- DIV with whether DZ is set (R225). -/
def fdiv (a b : Word) : Word × Bool :=
  if (F32.of b).isZero then (maxF32 (decide (bits a 31 31 = 1)), true) else (fquot a b, false)

/-- RSQ and LOG2 with whether DZ is set. -/
def frsq (a : Word) : Word × Bool := if fNonPos a then (maxF32 false, true) else (frecSqrt a, false)
def flog2 (a : Word) : Word × Bool := if fNonPos a then (maxF32 true, true) else (flog a, false)

/-- ATN2; atan2(0, 0) = 0. -/
def fatn2 (a b : Word) : Word := if (F32.of a).isZero && (F32.of b).isZero then 0 else fturns a b

end Sys2Proof.Machine
end

