-- ==== Sys2Proof/Machine/Settings.lean ====
section
/-! DEFINITION. Distaff's settings (R269, R383, R392, R399): their sizes, defaults and ranges, and the values in force. -/
namespace Sys2Proof.Machine

/-- The number of Distaff settings; a setting's SET key is 0x0100 plus its number (log entry 13). -/
def settingCount : Nat := 20

/-- The bytes of a setting's value. -/
def settingBytes (i : Nat) : Nat := if i = 8 then 32 else if 9 ≤ i ∧ i ≤ 11 then 16 else if 12 ≤ i ∧ i ≤ 14 then 20 else 4

/-- A setting's default value. -/
def settingDefault (i : Nat) : List Byte :=
  match i with
  | 0 => leBytes 4 7
  | 2 => leBytes 4 1
  | 7 => leBytes 4 2
  | 9 | 10 | 11 => leBytes 8 0 ++ leBytes 8 1
  | 12 | 13 | 14 => leBytes 4 0 ++ leBytes 4 10 ++ leBytes 12 0
  | 17 => leBytes 4 2000
  | 18 => leBytes 4 8
  | 19 => leBytes 4 14400
  | _ => leBytes (settingBytes i) 0

/-- A setting's value lies in its range. -/
def settingOk (i : Nat) (b : List Byte) : Bool :=
  let v := leAt b 0 4
  decide (b.length = settingBytes i) &&
  match i with
  | 0 | 3 => decide (v < 128)
  | 1 | 15 | 16 => decide (v ≤ 1)
  | 2 => ([1, 2, 5, 10, 20] : List Nat).contains v
  | 4 | 7 => decide (v ≤ 2)
  | 5 => decide (v ≤ 15)
  | 6 => decide (v ≤ 4095)
  | 8 => decide (leAt b 28 4 ≤ 1)
  | 9 | 10 | 11 => decide (v ≤ 1 ∧ leAt b 4 4 ≤ 3 ∧ leAt b 8 4 ≤ 3 ∧ leAt b 4 4 ≠ leAt b 8 4 ∧ leAt b 12 4 ≤ 15)
  | 12 | 13 | 14 => decide (1 ≤ leAt b 4 4 ∧ leAt b 4 4 ≤ 100)
  | 17 => decide (1 ≤ v ∧ v ≤ 100000)
  | 18 => decide (1 ≤ v ∧ v ≤ 255)
  | 19 => decide (600 ≤ v ∧ v ≤ 86400)
  | _ => false

/-- A setting's value in force. -/
def Core.setting (c : Core) (i : Nat) : List Byte := mapGet settingDefault c.dst.sets i
def Core.settingNat (c : Core) (i : Nat) : Nat := leAt (c.setting i) 0 4

end Sys2Proof.Machine
end

