-- ==== Sys2Proof/Machine/Image.lean ====
section
/-! DEFINITION. The Sundiq image (chapter 03): layout, CRC, verification in the order of R63, section bodies, the ROM
default image of R76 and what a load leaves of it. -/
namespace Sys2Proof.Machine

/-! ### CRC-32 (IEEE 802.3, R60 and Twine) -/

/-- One bit of the reflected CRC-32. -/
def crcBit (c : BitVec 32) : BitVec 32 :=
  if c.getLsbD 0 then (c >>> 1) ^^^ 0xEDB88320#32 else c >>> 1

/-- One byte of the reflected CRC-32. -/
def crcByte (c : BitVec 32) (b : Byte) : BitVec 32 :=
  let c0 := c ^^^ b.setWidth 32
  crcBit (crcBit (crcBit (crcBit (crcBit (crcBit (crcBit (crcBit c0)))))))

/-- The CRC-32 of bytes, initial value and final XOR all ones. -/
def crc32 (l : List Byte) : BitVec 32 := (l.foldl crcByte 0xFFFFFFFF#32) ^^^ 0xFFFFFFFF#32

/-! ### Sections -/

/-- Section types of format 1.0 (R61). -/
inductive Sec where
  | streamMap | plan | strandTpl | plyBind | lifecycle | loopCoef | loupeProg | focusProg | prismDur | hankRam
  | catalogue | whlCurve | oscPrior | syscfg | patch | signature
deriving DecidableEq, Repr

/-- The TYPE of a section. -/
def Sec.code : Sec → Nat
  | .streamMap => 1 | .plan => 2 | .strandTpl => 3 | .plyBind => 4 | .lifecycle => 5 | .loopCoef => 6
  | .loupeProg => 7 | .focusProg => 8 | .prismDur => 9 | .hankRam => 10 | .catalogue => 11 | .whlCurve => 12
  | .oscPrior => 13 | .syscfg => 14 | .patch => 15 | .signature => 0xFF

/-- The types the firmware knows, and those of them that are required. -/
def knownSecs : List Nat := (List.range 15).map (· + 1) ++ [0xFF]
def requiredSecs : List Nat := [1, 2, 3, 4, 5, 6, 7, 9, 11, 0xFF]

/-- The body of a section of an image; absent sections are empty. -/
def Image.sec (i : Image) (t : Sec) : List Byte := ((i.secs.find? fun p => p.1 == t.code).map (·.2)).getD []

/-- Whether the image holds a section. -/
def Image.has (i : Image) (t : Sec) : Bool := i.secs.any fun p => p.1 == t.code

/-- A directory entry (R60). -/
structure DirEntry where
  type : Nat
  sver : Nat
  rsv : Nat
  offset : Nat
  length : Nat
  crc : Nat
deriving DecidableEq, Repr

/-- The directory entry at byte `o` of an image. -/
def dirEntryAt (l : List Byte) (o : Nat) : DirEntry :=
  { type := leAt l o 2, sver := leAt l (o + 2) 1, rsv := leAt l (o + 3) 1, offset := leAt l (o + 4) 4,
    length := leAt l (o + 8) 4, crc := leAt l (o + 12) 4 }

/-- The section directory of an image. -/
def dirOf (l : List Byte) : List DirEntry :=
  (List.range (leAt l 12 2)).map fun k => dirEntryAt l (64 + 16 * k)

/-- The bytes of a directory entry's section. -/
def DirEntry.body (e : DirEntry) (l : List Byte) : List Byte := (l.drop e.offset).take e.length

/-- Each entry lies after the directory and within the image, is aligned and not empty (R60). -/
def dirPlaced (imgLen n : Nat) (e : DirEntry) : Bool :=
  decide (e.rsv = 0 ∧ e.offset % 16 = 0 ∧ 64 + 16 * n ≤ e.offset ∧ 1 ≤ e.length ∧ e.offset + e.length ≤ imgLen)

/-- Entries ascend in OFFSET and no two sections overlap (R60). -/
def dirAscends : List DirEntry → Bool
  | a :: b :: r => decide (a.offset + a.length ≤ b.offset) && dirAscends (b :: r)
  | _ => true

/-- The signature section is the last entry and the last bytes of the image, 80 bytes long (R62). -/
def dirSigned (imgLen : Nat) (d : List DirEntry) : Bool :=
  match d.getLast? with
  | some e => decide (e.type = 0xFF ∧ e.length = 80 ∧ e.offset + e.length = imgLen)
  | none => false

/-- The directory of an image keeps R60 and R62. -/
def dirOk (l : List Byte) : Bool :=
  let d := dirOf l
  let len := leAt l 8 4
  d.all (dirPlaced len d.length) && dirAscends d && dirSigned len d

/-- Every byte of a range is zero. -/
def zeroAt (l : List Byte) (o n : Nat) : Bool := ((l.drop o).take n).all (· == 0)

/-! ### Verification (R63) -/

/-- The ROM firmware release of every B0 device (R66). -/
def romMajor : Nat := 1
def romMinor : Nat := 0

/-- The key KEYIDX names, when it is usable (R62, R64). -/
def Otp.usableKey (o : Otp) (idx : Nat) : Option (List Byte) :=
  if idx = 0 then (if o.kldoff then none else some Config.klodwenKey)
  else if idx = 1 ∨ idx = 2 then
    match o.cks[idx - 1]? with
    | some k => if k.valid && !k.revoked then some k.key else none
    | none => none
  else none

/-- Verification's codes, in the order in which Facet applies them (R63, R66, R67). `ecc` says that an uncorrectable NVM
error is met while the image is read. No code covers bytes 1 to 15 of the SIGNATURE section (log entry 181). -/
def verifyCode (o : Otp) (ecc : Bool) (l : List Byte) : Nat :=
  let d := dirOf l
  let sig := (d.getLast?.map (·.body l)).getD []
  let sigOff := (d.getLast?.map (·.offset)).getD 0
  let types := d.map (·.type)
  let planHdr := ((d.find? fun e => e.type == 2).map (·.body l)).getD []
  let patch := ((d.find? fun e => e.type == 15).map (·.body l)).getD []
  if ecc then 0x01
  else if leAt l 0 4 ≠ 0x01495153 then 0x02
  else if leAt l 4 1 ≠ 1 then 0x03
  else if 1048576 < leAt l 8 4 ∨ leAt l 12 2 < 2 ∨ 32 < leAt l 12 2 then 0x04
  else if ¬ (zeroAt l 14 2 && zeroAt l 24 8 && zeroAt l 48 16) then 0x05
  else if ¬ dirOk l then 0x06
  else if romMajor * 256 + romMinor < leAt l 20 2 then 0x07
  else
    match o.usableKey (leAt sig 0 1) with
    | none => 0x08
    | some key =>
      if ¬ Config.ecdsaOk key (l.take sigOff) ((sig.drop 16).take 32) ((sig.drop 48).take 32) then 0x09
      else if ¬ d.all (fun e => (crc32 (e.body l)).toNat == e.crc) then 0x0A
      else if d.any (fun e => (!knownSecs.contains e.type && decide (leAt l 5 1 ≤ 0)) ||
          (knownSecs.contains e.type && decide (e.sver ≠ 1))) then 0x0B
      else if ¬ (requiredSecs.all types.contains && types.all (fun t => types.count t == 1)) then 0x0C
      else if leAt planHdr 0 1 ≠ leAt l 6 1 ∨ leAt planHdr 1 1 ≠ leAt l 7 1 then 0x0D
      else if types.contains 15 ∧ (leAt patch 0 1 ≠ romMajor ∨ leAt patch 1 1 ≠ romMinor) then 0x0E
      else 0

/-- Sections of unknown type that the loader skips (R67): with a minor above the known one, in an image whose signature and
CRCs have passed, in directory order up to a section that refuses the image. `code` is the verdict. -/
def skippedSecs (code : Nat) (l : List Byte) : Nat :=
  if leAt l 5 1 ≤ 0 ∨ (1 ≤ code ∧ code ≤ 0x0A) then 0
  else
    let read := (dirOf l).takeWhile fun e => !knownSecs.contains e.type || e.sver == 1
    (read.filter fun e => !knownSecs.contains e.type).length

/-- The image as it is loaded: the sections of known type. -/
def imageOf (l : List Byte) : Image :=
  { product := leAt l 16 4, patchLvl := leAt l 22 2,
    secs := ((dirOf l).filter fun e => knownSecs.contains e.type).map fun e => (e.type, e.body l) }

end Sys2Proof.Machine
end

