-- ==== Sys2Proof/Machine/Fabric.lean ====
section
/-! DEFINITION. Strands, lanes and correlators (chapter 05): descriptors, code sources, the NCOs, the taps, the dump and
the group 0 and group 1 commits. -/
namespace Sys2Proof.Machine

/-! ### Windows -/

/-- Descriptor and dump windows (R112). -/
def descStage (s : Nat) : Nat := 0x30000000 + 64 * s
def descLive (s : Nat) : Nat := 0x30020000 + 64 * s
def dumpRec (s : Nat) : Nat := 0x30040000 + 128 * s
/-- The carrier cycle counters (R251). -/
def cycAddr (s : Nat) : Nat := 0x30080000 + 4 * s
/-- Hank's windows (R126). -/
def hankRamBase : Nat := 0x32100000
def hankDir (j : Nat) : Nat := 0x32120000 + 8 * j

/-! ### Descriptors (R119) -/

/-- A strand descriptor, field by field. -/
structure Desc where
  cr : Int
  stream : Nat
  cp : Nat
  kr : Nat
  kf : Nat
  ki : Nat
  cpc : Nat
  wpos : Nat
  icnt : Nat
  aidx : Nat
  afam : Nat
  kidx : Nat
  kfam : Nat
  en : Bool
  tdm : Nat
  auxm : Nat
  scc : Bool
  scn : Nat
  asid : Nat
  sid : Nat
  nofs : Nat
  dvel : Nat
  del : Nat
  dsh : Nat
  intl : Nat
  asen : Bool
  sen : Bool
  tapc : Bool
  wipe : Bool
  symcp : Nat
  cpmod : Nat
  wsign : Nat
deriving DecidableEq, Repr

/-- Word `k` of a descriptor image. -/
def wordOf (ws : List Word) (k : Nat) : Word := ws.getD k 0

/-- The descriptor that 16 words spell. -/
def Desc.of (ws : List Word) : Desc :=
  let f := fun k hi lo => bits (wordOf ws k) hi lo
  { cr := signedOf 48 (f 0 31 0 + 2 ^ 32 * f 1 15 0), stream := f 1 18 16, cp := f 2 31 0 + 2 ^ 32 * f 3 15 0,
    kr := f 4 31 0 + 2 ^ 32 * f 5 15 0, kf := f 6 31 0 + 2 ^ 32 * f 7 15 0, ki := f 7 31 16 + 2 ^ 16 * f 8 3 0,
    cpc := f 8 15 4, wpos := f 9 14 10, icnt := f 9 9 0, aidx := f 10 31 21, afam := f 10 20 16, kidx := f 10 15 5,
    kfam := f 10 4 0, en := f 11 31 31 = 1, tdm := f 11 30 29, auxm := f 11 28 27, scc := f 11 26 26 = 1,
    scn := f 11 25 22, asid := f 11 21 11, sid := f 11 10 0, nofs := f 12 29 22, dvel := f 12 21 17, del := f 12 16 13,
    dsh := f 12 12 10, intl := f 12 9 0, asen := f 13 20 20 = 1, sen := f 13 19 19 = 1, tapc := f 13 18 18 = 1,
    wipe := f 13 17 17 = 1, symcp := f 13 16 12, cpmod := f 13 11 0, wsign := f 14 31 0 }

/-- The reserved bits of a descriptor are zero (R114, RSV). -/
def descRsvOk (ws : List Word) : Bool :=
  decide (bits (wordOf ws 1) 31 19 = 0 ∧ bits (wordOf ws 3) 31 16 = 0 ∧ bits (wordOf ws 5) 31 16 = 0 ∧
    bits (wordOf ws 8) 31 16 = 0 ∧ bits (wordOf ws 9) 31 15 = 0 ∧ bits (wordOf ws 12) 31 30 = 0 ∧
    bits (wordOf ws 13) 31 21 = 0)

/-- The descriptor images of the windows. -/
def Core.stageWords (c : Core) (s : Nat) : List Word := c.mem.words (descStage s) 16
def Core.liveWords (c : Core) (s : Nat) : List Word := c.hot.mem.words (descLive s) 16
/-- The live descriptor of a strand. -/
def Core.live (c : Core) (s : Nat) : Desc := Desc.of (c.liveWords s)

/-- A change of the Mirror-held state. -/
def Core.onHot (c : Core) (f : Hot → Hot) : Core := { c with hot := f c.hot }

/-- A live descriptor word written. -/
def Core.setLive (c : Core) (s k : Nat) (w : Word) : Core :=
  c.onHot fun h => { h with mem := h.mem.putWord (descLive s + 4 * k) w }

/-- CR or KR written into the live descriptor (R116, R119). -/
def Core.setLiveRate (c : Core) (s k v : Nat) : Core :=
  let c1 := c.setLive s k (BitVec.ofNat 32 v)
  c1.setLive s (k + 1) (putBits (wordOf (c1.liveWords s) (k + 1)) 15 0 (v / 2 ^ 32))

/-- A strand's hidden state; a strand without any starts cleared. -/
def strandZero : StrandSt :=
  { cp := 0, kf := 0, ki := 0, cpc := 0, wpos := 0, acc := List.replicate 28 0, edge := false, inB := false, split := 0,
    seen := 0, nep := 0, wipeOff := false, newcfg := false, nocode := false, wipex := false, zf := false, mism := false,
    tsg := false, cyc := 0, crWin := 0, cpcWin := 0, cfgEra := 0, dead := false }

def Core.strand (c : Core) (s : Nat) : StrandSt := mapGet (fun _ => strandZero) c.hot.strands s

def Core.setStrand (c : Core) (s : Nat) (x : StrandSt) : Core :=
  c.onHot fun h => { h with strands := mapPut (fun _ => strandZero) h.strands s x }

/-- A window opened afresh (R137): the accumulators, the split, the epochs and the flags clear; phases stay. -/
def StrandSt.newWindow (x : StrandSt) : StrandSt :=
  { strandZero with
    cp := x.cp, kf := x.kf, ki := x.ki, cpc := x.cpc, wpos := x.wpos, edge := x.edge, cyc := x.cyc, crWin := x.crWin,
    cpcWin := x.cpcWin, cfgEra := x.cfgEra }

/-- The phases and counters taken from a descriptor (R115). -/
def StrandSt.loadPhases (x : StrandSt) (d : Desc) : StrandSt :=
  { x with cp := d.cp, kf := d.kf, ki := d.ki, cpc := d.cpc, wpos := d.wpos }

/-- The live view takes the strand's phases and counters, with ICNT, and CYC its value (R115, R256). -/
def Core.storePhases (c : Core) (s icnt : Nat) : Core :=
  let x := c.strand s
  let ws := c.liveWords s
  let c1 := c.setLive s 2 (BitVec.ofNat 32 x.cp)
  let c2 := c1.setLive s 3 (putBits (wordOf ws 3) 15 0 (x.cp / 2 ^ 32))
  let c3 := c2.setLive s 6 (BitVec.ofNat 32 x.kf)
  let c4 := c3.setLive s 7 (putBits (putBits (wordOf ws 7) 15 0 (x.kf / 2 ^ 32)) 31 16 x.ki)
  let c5 := c4.setLive s 8 (putBits (putBits (wordOf ws 8) 3 0 (x.ki / 2 ^ 16)) 15 4 x.cpc)
  let c6 := c5.setLive s 9 (putBits (putBits (wordOf ws 9) 14 10 x.wpos) 9 0 icnt)
  c6.onHot fun h => { h with mem := h.mem.putWord (cycAddr s) (BitVec.ofNat 32 x.cyc) }

/-! ### Code sources (R125 to R130) -/

/-- A PRN or index lies in a family's range (R125). -/
def famIdxOk (fam idx : Nat) : Bool :=
  let gps := decide (1 ≤ idx ∧ idx ≤ 63)
  let qzss := decide (193 ≤ idx ∧ idx ≤ 202)
  let sbas := decide (120 ≤ idx ∧ idx ≤ 158)
  let gal := decide (1 ≤ idx ∧ idx ≤ 50)
  match fam with
  | 0x01 => decide (1 ≤ idx ∧ idx ≤ 32) || sbas || qzss
  | 0x02 | 0x03 | 0x04 | 0x05 => gps || qzss
  | 0x06 | 0x07 => gps || sbas || qzss
  | 0x08 => idx == 0
  | 0x09 | 0x0A => decide (idx ≤ 63)
  | 0x0B | 0x0C | 0x0D | 0x0E => gal
  | 0x0F | 0x10 | 0x11 | 0x12 | 0x13 | 0x14 | 0x15 => gps
  | 0x16 => decide (1 ≤ idx ∧ idx ≤ 14)
  | 0x17 | 0x18 => qzss
  | _ => false

/-- The chips of a generator family (R125); 0 for a reserved family. -/
def famLen (fam : Nat) : Nat :=
  match fam with
  | 0x01 | 0x16 => 1023
  | 0x05 => 767250
  | 0x08 => 511
  | 0x0F => 2046
  | 0x18 => 1048575
  | 0x02 | 0x03 | 0x04 | 0x06 | 0x07 | 0x09 | 0x0A | 0x0B | 0x0C | 0x0D | 0x0E | 0x10 | 0x11 | 0x12 | 0x13 | 0x14
  | 0x15 | 0x17 => 10230
  | _ => 0

/-- The Hank ROM's rows: first ID, last ID, length (R127). -/
def hankRomRows : List (Nat × Nat × Nat) :=
  [(0x000, 0x031, 4092), (0x040, 0x071, 4092), (0x080, 0x0B1, 5115), (0x0C0, 0x0F1, 5115), (0x140, 0x171, 100),
   (0x180, 0x1B1, 100), (0x1C0, 0x1F1, 100), (0x200, 0x23E, 1800), (0x240, 0x249, 1800), (0x260, 0x29E, 1800),
   (0x2A0, 0x2DE, 100), (0x300, 0x300, 10), (0x301, 0x301, 20), (0x302, 0x302, 5), (0x303, 0x303, 25),
   (0x304, 0x304, 20), (0x305, 0x305, 4), (0x306, 0x306, 20), (0x307, 0x307, 5)]

/-- The length of an assigned Hank ROM ID; none for an unassigned one. -/
def hankRomLen (id : Nat) : Option Nat :=
  (hankRomRows.find? fun r => decide (r.1 ≤ id ∧ id ≤ r.2.1)).map fun r => r.2.2

/-- The assigned Hank ROM IDs and the chips that they hold. -/
def hankRomIds : List Nat := belowSuch 0x400 fun id => (hankRomLen id).isSome
def hankChips (ids : List Nat) : Nat := (ids.map fun id => (hankRomLen id).getD 0).sum

/-- The bit at which an assigned entry starts: entries follow one another without overlap inside the ROM's 1,572,864 bits, in an order
and with gaps that are no interface (R126). -/
def hankRomBase (id : Nat) : Nat :=
  let before := hankRomIds.filter fun j =>
    decide (Config.hankRomKey j < Config.hankRomKey id ∨ (Config.hankRomKey j = Config.hankRomKey id ∧ j < id))
  hankChips before + min (1572864 - hankChips hankRomIds) (((before ++ [id]).map Config.hankRomGap).sum)

/-- A chip of an assigned Hank ROM entry: the meander of 0x306 is stated, the other codes are published elsewhere. -/
def romChip (id i : Nat) : Bool := if id = 0x306 then decide (10 ≤ i) else Config.hankRomChip id i

/-- One bit of the Hank ROM: the chip of the assigned entry that covers it, else 0 (R126). -/
def hankRomBit (k : Nat) : Bool :=
  (belowSuch 0x400 fun id =>
    match hankRomLen id with
    | some n => decide (hankRomBase id ≤ k ∧ k < hankRomBase id + n) && romChip id (k - hankRomBase id)
    | none => false) ≠ []

/-- A byte of the Hank ROM window. -/
def hankRomByte (o : Nat) : Byte :=
  BitVec.ofNat 8 ((List.range 8).foldl (fun v i => v + ofBool (hankRomBit (8 * o + i)) * 2 ^ i) 0)

/-- A word of the Hank ROM directory (R126). -/
def hankRomDirWord (o : Nat) : Word :=
  match hankRomLen (o / 8) with
  | some n => if o % 8 < 4 then BitVec.ofNat 32 (hankRomBase (o / 8)) else BitVec.ofNat 32 (2 ^ 31 + n)
  | none => 0

/-- The RAM directory entry `j` in force: BASE and LEN when VALID (R126). -/
def Core.hankEntry (c : Core) (j : Nat) : Option (Nat × Nat) :=
  let w0 := c.force.reg (hankDir j)
  let w1 := c.force.reg (hankDir j + 4)
  if bits w1 31 31 = 1 then some (bits w0 20 0, bits w1 20 0) else none

/-- The length of the code a family and index name; none for a RAM entry not valid in force. -/
def Core.codeLen (c : Core) (fam idx : Nat) : Option Nat :=
  if fam = 0 then
    if idx < 0x400 then hankRomLen idx else (c.hankEntry (idx - 0x400)).map (·.2)
  else some (famLen fam)

/-- The 64-chip word of Hank that holds a chip, the RAM's words after the ROM's 24,576 (R126, R334). -/
def Core.hankWord (c : Core) (idx i : Nat) : Option Nat :=
  if idx < 0x400 then some ((hankRomBase idx + i) / 64) else (c.hankEntry (idx - 0x400)).map fun e => 24576 + (e.1 + i) / 64

/-- A chip lies in a word of Hank whose fetch meets an uncorrectable error (R334). -/
def Core.chipLost (c : Core) (fam idx i : Nat) : Bool :=
  c.mir.hankBad != [] && fam == 0 && ((c.hankWord idx i).map c.mir.hankBad.contains).getD false

/-- A chip's value, +1 for binary 0 and −1 for 1 (R125); 0 where the code has none or its word cannot be read. -/
def Core.chip (c : Core) (fam idx i : Nat) : Int :=
  if c.chipLost fam idx i then 0 else
  let v : Option Bool :=
    if fam = 0 then
      if idx < 0x400 then (hankRomLen idx).map fun _ => romChip idx i
      else (c.hankEntry (idx - 0x400)).map fun e =>
        bitOf (c.mem.read (hankRamBase + (e.1 + i) / 8)).toNat ((e.1 + i) % 8)
    else some (Config.genChip fam idx i)
  match v with
  | some true => -1
  | some false => 1
  | none => 0

/-- Whether a strand uses its auxiliary code. -/
def Desc.usesAux (d : Desc) : Bool := decide (d.auxm = 1) || d.tapc || decide (d.tdm = 1)

/-- Every Hank RAM entry that the strand's codes name is valid in force (R129). -/
def Core.codesValid (c : Core) (d : Desc) : Bool :=
  (c.codeLen d.kfam d.kidx).isSome && (!d.usesAux || (c.codeLen d.afam d.aidx).isSome) &&
    (!d.sen || (c.codeLen 0 d.sid).isSome) && (!(d.usesAux && d.asen) || (c.codeLen 0 d.asid).isSome)

/-- The code period in chips, or in slots under TDM = 1 (R122, R133). -/
def Core.codePeriod (c : Core) (d : Desc) : Nat :=
  let l := (c.codeLen d.kfam d.kidx).getD 0
  if d.tdm = 1 then 2 * l else l

/-- The strand correlates with a zero code (R129): a code without a valid entry, or KI beyond the code now in force. -/
def Core.zeroCode (c : Core) (d : Desc) (ki : Nat) : Bool := !c.codesValid d || decide (c.codePeriod d ≤ ki)

/-! ### The taps (R124, R131 to R135) -/

/-- The carrier replica's cosine and sine (R124). -/
def cosTable : List Int :=
  [15, 15, 15, 14, 14, 13, 12, 12, 11, 10, 8, 7, 6, 4, 3, 1, 0, -1, -3, -4, -6, -7, -8, -10, -11, -12, -12, -13, -14, -14,
   -15, -15, -15, -15, -15, -14, -14, -13, -12, -12, -11, -10, -8, -7, -6, -4, -3, -1, 0, 1, 3, 4, 6, 7, 8, 10, 11, 12,
   12, 13, 14, 14, 15, 15]
def carrierCos (m : Nat) : Int := cosTable.getD (m % 64) 0
def carrierSin (m : Nat) : Int := cosTable.getD ((m + 48) % 64) 0

/-- The sub-carrier's sign at a phase of `frac / 2^48` chip (R135; at a zero crossing the half-period that begins). -/
def subCarrier (scn : Nat) (cosine : Bool) (frac : Nat) : Int :=
  if scn = 0 then 1
  else
    let half := if cosine then (scn * frac + 2 ^ 47) / 2 ^ 48 else scn * frac / 2 ^ 48
    if half % 2 = 0 then 1 else -1

/-- A secondary code's chip for the period count (R131). -/
def Core.secondary (c : Core) (on : Bool) (id cpc : Nat) : Int :=
  if on then c.chip 0 id (cpc % max 1 ((c.codeLen 0 id).getD 1)) else 1

/-- The main code's value at chip or slot index `i` (R131 to R133). -/
def Core.mainCode (c : Core) (d : Desc) (x : StrandSt) (i : Nat) : Int :=
  let chip := if d.tdm = 1 then (if i % 2 = 0 then c.chip d.kfam d.kidx (i / 2) else 0) else c.chip d.kfam d.kidx i
  let wipe := if d.wipe && !x.wipeOff && bitOf d.wsign x.wpos then -1 else 1
  chip * c.secondary d.sen d.sid x.cpc * wipe

/-- The auxiliary code's value at chip or slot index `i` (R131, R133); one no longer than the main code repeats within its period
(log entry 167). -/
def Core.auxCode (c : Core) (d : Desc) (x : StrandSt) (i : Nat) : Int :=
  let lm := (c.codeLen d.kfam d.kidx).getD 0
  let la := max 1 ((c.codeLen d.afam d.aidx).getD 1)
  let chip :=
    if d.tdm = 1 then (if i % 2 = 1 then c.chip d.afam d.aidx ((x.cpc * lm + (i - 1) / 2) % la) else 0)
    else if lm < la then c.chip d.afam d.aidx ((x.cpc * lm + i) % la) else c.chip d.afam d.aidx (i % la)
  chip * c.secondary d.asen d.asid x.cpc

/-- A tap's code and sub-carrier value at the prompt phase plus `o16` sixteenths of a chip (R134). -/
def Core.tapValue (c : Core) (d : Desc) (x : StrandSt) (aux cosine : Bool) (o16 : Int) : Int :=
  let period := c.codePeriod d * 2 ^ 48
  let p := (((x.ki * 2 ^ 48 + x.kf : Nat) : Int) + o16 * ((2 ^ 44 : Nat) : Int)) % ((max 1 period : Nat) : Int)
  let i := p.toNat / 2 ^ 48
  (if aux then c.auxCode d x i else c.mainCode d x i) * subCarrier d.scn cosine (p.toNat % 2 ^ 48)

/-- The auxiliary code's chip at chip or slot index `i`, where it has one there (R131, R133). -/
def Core.auxIndex (c : Core) (d : Desc) (x : StrandSt) (i : Nat) : Option Nat :=
  let lm := (c.codeLen d.kfam d.kidx).getD 0
  let la := max 1 ((c.codeLen d.afam d.aidx).getD 1)
  if d.tdm = 1 then (if i % 2 = 1 then some ((x.cpc * lm + (i - 1) / 2) % la) else none)
  else some (if lm < la then (x.cpc * lm + i) % la else i % la)

/-- A tap's code value is fetched from a word of Hank that cannot be read. -/
def Core.tapLost (c : Core) (d : Desc) (x : StrandSt) (aux : Bool) (o16 : Int) : Bool :=
  let period := c.codePeriod d * 2 ^ 48
  let p := (((x.ki * 2 ^ 48 + x.kf : Nat) : Int) + o16 * ((2 ^ 44 : Nat) : Int)) % ((max 1 period : Nat) : Int)
  let i := p.toNat / 2 ^ 48
  let sec := fun (on : Bool) (id : Nat) => on && c.chipLost 0 id (x.cpc % max 1 ((c.codeLen 0 id).getD 1))
  if aux then
    match c.auxIndex d x i with
    | some j => c.chipLost d.afam d.aidx j || sec d.asen d.asid
    | none => false
  else if d.tdm = 1 ∧ i % 2 = 1 then false
  else c.chipLost d.kfam d.kidx (if d.tdm = 1 then i / 2 else i) || sec d.sen d.sid

/-- One of a strand's taps meets such a word in this sample: its dump carries NOCODE (R334). -/
def Core.codeLost (c : Core) (d : Desc) (x : StrandSt) : Bool :=
  c.mir.hankBad != [] &&
    ([(d.dvel : Int), d.del, -(d.del : Int), -(d.dvel : Int)] ++ (if d.nofs = 0 then [] else [16 * (d.nofs : Int)])).any
      (c.tapLost d x d.tapc) || c.mir.hankBad != [] && (c.tapLost d x false 0 || (d.auxm == 1 && c.tapLost d x true 0))

/-- The seven taps' values for a sample, in the order VE, E, P, L, VL, N, AUX (R134). -/
def Core.tapValues (c : Core) (d : Desc) (x : StrandSt) : List Int :=
  if c.zeroCode d x.ki then [0, 0, 0, 0, 0, 0, 0]
  else
    let t := fun o => c.tapValue d x d.tapc d.scc o
    [t d.dvel, t d.del, c.tapValue d x false d.scc 0, t (-(d.del : Int)), t (-(d.dvel : Int)),
     (if d.nofs = 0 then 0 else t (16 * (d.nofs : Int))),
     (if d.auxm = 1 then c.tapValue d x true d.scc 0 else if d.auxm = 2 then c.tapValue d x false (!d.scc) 0 else 0)]

/-- A sum as a 36-bit signed accumulator holds it (R136). -/
def hold36 (v : Int) : Int := if satSigned 36 v = v then v else (Config.accOver v).toInt

/-- The products added to one part of the accumulators: tap `t`'s I at `4 t + part`, its Q one further (R134, R138). -/
def addTaps (acc : List Int) (inB : Bool) (i q : Int) (vals : List Int) : List Int :=
  (List.range 28).map fun k =>
    let v := vals.getD (k / 4) 0
    let old := acc.getD k 0
    if (k % 4 / 2 = 1) = (inB = true) then hold36 (old + v * (if k % 2 = 0 then i else q)) else old

/-! ### The NCOs and one sample (R122, R132, R138) -/

/-- The NCO update that follows a sample, with the symbol edge it may bring and the wipe-off position's advance. A main code
without a length (R114) has no period: KI counts on in its 20 bits. -/
def Core.ncoStep (c : Core) (d : Desc) (x : StrandSt) : StrandSt :=
  let cp := unsignedOf 48 ((x.cp : Int) + d.cr)
  let cyc := unsignedOf 32 ((x.cyc : Int) + asr ((x.cp : Int) + d.cr) 48)
  let kf := x.kf + d.kr
  if kf < 2 ^ 48 then { x with cp := cp, cyc := cyc, kf := kf, edge := false }
  else if x.ki + 1 < c.codePeriod d then { x with cp := cp, cyc := cyc, kf := kf - 2 ^ 48, ki := x.ki + 1, edge := false }
  else if (c.codeLen d.kfam d.kidx).isNone then { x with cp := cp, cyc := cyc, kf := kf - 2 ^ 48, ki := (x.ki + 1) % 2 ^ 20, edge := false }
  else
    let cpc := (x.cpc + 1) % max 1 d.cpmod
    let edge := if d.symcp = 0 then decide (cpc = 0) else decide (cpc % d.symcp = 0)
    let past := edge && decide (x.wpos = 31)
    { x with
      cp := cp, cyc := cyc, kf := kf - 2 ^ 48, ki := 0, cpc := cpc, edge := edge,
      wpos := if edge && !past then x.wpos + 1 else x.wpos,
      wipeOff := x.wipeOff || (past && d.wipe),
      wipex := x.wipex || (past && d.wipe) }

/-- One expanded sample correlated (R124, R134, R138). -/
def Core.correlate (c : Core) (d : Desc) (x : StrandSt) (b : Byte) : StrandSt :=
  let split := x.edge && decide (x.seen ≠ 0) && !x.inB
  let x1 := if split then { x with inB := true, split := x.seen } else x
  let i := signedOf 4 (b.toNat / 16)
  let q := signedOf 4 (b.toNat % 16)
  let m := x1.cp / 2 ^ 42
  let ip := i * carrierCos m + q * carrierSin m
  let qp := q * carrierCos m - i * carrierSin m
  let x2 := { x1 with acc := addTaps x1.acc x1.inB ip qp (c.tapValues d x1), seen := x1.seen + 1,
                      nocode := x1.nocode || c.zeroCode d x1.ki || c.codeLost d x1 }
  c.ncoStep d (if x.dead then x else x2)

/-- The ALLOC code of a strand in force (R91). -/
def Core.alloc (c : Core) (s : Nat) : Nat := bits (c.force.reg (R.BOB_ALLOC (s / 8))) (4 * (s % 8) + 3) (4 * (s % 8))

/-- The strand's descriptor names a stream other than its ALLOC code (R91). -/
def Core.misallocated (c : Core) (s : Nat) (d : Desc) : Bool := decide (c.alloc s ≠ d.stream)

/-- Skein island `k` is powered and clocked: not gated, and not in retention in a DOZE off phase (R12, R338, R351). -/
def Core.islandOn (c : Core) (k : Nat) : Bool := bitOf (c.fld F.FAB_SKSTAT.PWR) k && !c.flag F.PWR_STAT.OFFPH

/-- What one half-epoch delivers on each stream: the expanded bytes, zero fill and TSG substitution (R80 to R86). -/
structure StreamFeed where
  bytes : List Byte
  zf : Bool
  tsg : Bool
deriving DecidableEq, Repr

/-- One strand over a half-epoch's samples (R14, R91). -/
def Core.runStrand (c : Core) (feed : Nat → StreamFeed) (s : Nat) : Core :=
  let d := c.live s
  if d.en && c.islandOn (s / 256) then
    let f := feed d.stream
    let mism := c.misallocated s d
    let bytes := if mism then f.bytes.map (fun _ => 0) else f.bytes
    let x := bytes.foldl (c.correlate d) (c.strand s)
    let c1 := c.setStrand s { x with zf := x.zf || f.zf, mism := x.mism || mism, tsg := x.tsg || f.tsg }
    if mism && !c1.flag F.BOB_MAPSTAT.MISM then (c1.raise F.BOB_MAPSTAT.MISM).setFld F.BOB_MAPSTAT.MISMSTR s else c1
  else c

/-- Every strand over a half-epoch (R110). -/
def Core.runFabric (c : Core) (feed : Nat → StreamFeed) : Core := forBelow 2048 (fun c s => c.runStrand feed s) c

/-! ### The dump (R136, R137, R139) -/

/-- A tap part as the dump gives it, with whether it saturated (R136). -/
def tapOut (dsh : Nat) (v : Int) : Int × Bool :=
  let sh := asr v dsh
  (satSigned 32 sh, decide (satSigned 32 sh ≠ sh))

/-- The words of a dump record (R139). -/
def dumpWords (d : Desc) (x : StrandSt) (epoch : Nat) : List Word :=
  let outs := x.acc.map (tapOut d.dsh)
  let satd := outs.any (·.2)
  let flags := ofBool x.newcfg * 2 ^ 15 + ofBool x.nocode * 2 ^ 14 + ofBool x.wipex * 2 ^ 13 + ofBool x.zf * 2 ^ 12 +
    ofBool x.mism * 2 ^ 11 + ofBool satd * 2 ^ 10 + ofBool (!x.inB) * 2 ^ 9 + ofBool x.tsg * 2 ^ 8
  [BitVec.ofNat 32 flags, BitVec.ofNat 32 (x.nep % 1024),
   BitVec.ofNat 32 ((if x.inB then x.split else x.seen) % 2 ^ 27), BitVec.ofNat 32 epoch] ++
    outs.map fun o => BitVec.ofNat 32 (unsignedOf 32 o.1)

/-- A strand's window at the boundary that begins `epoch`: the count of epochs, and the dump when it is due (R137). -/
def Core.closeWindow (c : Core) (epoch s : Nat) : Core :=
  let d := c.live s
  if d.en && c.islandOn (s / 256) then
    let x := c.strand s
    if x.dead then (c.setStrand s x.newWindow).storePhases s 0
    else if d.intl ≤ d.icnt + 1 then
      let x1 := { x with nep := x.nep + 1, crWin := d.cr, cpcWin := x.cpc }
      let ws := dumpWords d x1 epoch
      let c1 := c.onHot fun h => { h with mem := h.mem.putWords (dumpRec s) ws }
      let c2 := applyIf (bits (wordOf ws 0) 10 10 = 1) (·.raise F.STR_IRQ.SATD) c1
      let c3 := applyIf x1.nocode (·.raise F.STR_IRQ.NOCODE) c2
      (c3.setStrand s x1.newWindow).storePhases s 0
    else (c.setStrand s { x with nep := x.nep + 1 }).storePhases s (d.icnt + 1)
  else c

/-- Step 1 of R24: every strand whose window ends dumps. -/
def Core.dumpStep (c : Core) (epoch : Nat) : Core := forBelow 2048 (fun c s => c.closeWindow epoch s) c

/-! ### Group 0: descriptors (R113, R114, R120, R121) -/

/-- A Hank ID that a secondary code may name (R114, IDX). -/
def secIdOk (id : Nat) : Bool := decide (id ≤ 0x4FF) && (decide (0x400 ≤ id) || (hankRomLen id).isSome)

/-- A code's index is in its family's range (R114, IDX). -/
def codeIdxOk (fam idx : Nat) : Bool :=
  if fam = 0 then decide (idx ≤ 0x4FF) && (decide (0x400 ≤ idx) || (hankRomLen idx).isSome) else famIdxOk fam idx

/-- A rule that needs a length passes where the code has none (R114). -/
def withLen (l : Option Nat) (p : Nat → Bool) : Bool := match l with | some n => p n | none => true

/-- The refusal code of a resulting descriptor (R114), 0 when it passes; of several the lowest, in the table's order (log entry 166).
`d34` and `d4` say which of the counters' doublewords are dirty. -/
def Core.descRefusal (c : Core) (ws : List Word) (d34 d4 : Bool) : Nat :=
  let d := Desc.of ws
  let lm := c.codeLen d.kfam d.kidx
  let la := c.codeLen d.afam d.aidx
  if (ws.take 15).all (· == 0) then 0
  else if ¬ descRsvOk ws then 1
  else if 0x18 < d.kfam ∨ (d.auxm = 1 ∧ 0x18 < d.afam) then 2
  else if ¬ codeIdxOk d.kfam d.kidx ∨ (d.auxm = 1 ∧ ¬ codeIdxOk d.afam d.aidx) ∨ (d.sen ∧ ¬ secIdOk d.sid) ∨
      (d.asen ∧ ¬ secIdOk d.asid) then 3
  else if d.del = 0 ∨ d.dvel < d.del ∨ ¬ withLen lm (fun l => decide (d.nofs < l)) then 4
  else if d.intl = 0 ∨ 1000 < d.intl ∨ 4 < d.dsh then 5
  else if d.cpmod = 0 ∨ (d.symcp ≠ 0 ∧ d.cpmod % d.symcp ≠ 0) ∨
      (d.sen ∧ ¬ withLen (c.codeLen 0 d.sid) (fun l => decide (d.cpmod % l = 0))) ∨
      (d.asen ∧ ¬ withLen (c.codeLen 0 d.asid) (fun l => decide (d.cpmod % l = 0))) ∨
      (d.auxm = 1 ∧ ¬ withLen lm (fun m => withLen la (fun a => decide (a ≤ m ∨ d.cpmod * m % a = 0)))) then 6
  else if d.scn % 2 = 1 ∨ 12 < d.scn ∨ d.auxm = 3 ∨ 2 ≤ d.tdm ∨ (d.tdm = 1 ∧ d.scn ≠ 0) then 7
  else if (d34 ∧ ¬ withLen lm (fun l => decide (d.ki < if d.tdm = 1 then 2 * l else l))) ∨
      (d4 ∧ (d.cpmod ≤ d.cpc ∨ d.intl ≤ d.icnt)) then 8
  else if 2 ^ 46 ≤ d.kr then 9
  else 0

/-- The descriptor that results when the dirty doublewords take their staged words (R113). -/
def mergeDesc (live stage : List Word) (dirty : Nat → Bool) : List Word :=
  (List.range 16).map fun k => if dirty (k / 2) then wordOf stage k else wordOf live k

/-- What one strand's dirty doublewords come to at a commit: the resulting descriptor and its refusal code (R113, R114). -/
def Core.mergedDesc (c : Core) (s : Nat) : List Word × Nat :=
  let dirty := fun k => c.plan.dirty.contains (8 * s + k)
  let ws := mergeDesc (c.liveWords s) (c.stageWords s) dirty
  (ws, c.descRefusal ws (dirty 3 || dirty 4) (dirty 4))

/-! ### Loop write-backs at a boundary (R116) -/

/-- One queued write-back: discarded for a disabled strand, counted when a staged rate that applies at the boundary overrides it. -/
def Core.applyWriteBack (applying : Bool) (c : Core) (w : WriteBack) : Core :=
  if (c.live w.strand).en then
    let c1 : Core := match w.cr with | some v => c.setLiveRate w.strand 0 v | none => c
    let c2 : Core := match w.kr with | some v => c1.setLiveRate w.strand 4 v | none => c1
    let late := applying && decide ((c2.mergedDesc w.strand).2 = 0) &&
      ((w.cr.isSome && c.plan.dirty.contains (8 * w.strand)) || (w.kr.isSome && c.plan.dirty.contains (8 * w.strand + 2)))
    if late then ((c2.countSat F.STR_WBOVR.COUNT 1).setFld F.STR_WBOVR.STRAND w.strand).raise F.STR_IRQ.WBOVR else c2
  else c

/-- The write-backs queued during the epoch take effect; `applying` says that group 0 applies at this boundary, next. -/
def Core.applyWriteBacks (c : Core) (applying : Bool) : Core :=
  let c1 := c.hot.wbq.foldl (Core.applyWriteBack applying) c
  c1.onHot fun h => { h with wbq := [] }

/-- A refusal counted in a register of a code, a count of the boundary and the lowest index (R114, R149, R159, R175).
`first` says that the boundary has recorded none yet. -/
def Core.recordRefusal (c : Core) (code count index irq : Fld) (first : Bool) (v k : Nat) : Core :=
  if first then (((c.setFld code v).setFld count 1).setFld index k).raise irq else c.countSat count 1

/-- One strand's dirty doublewords applied or refused (R114, R120, R121). The flag says whether this boundary has refused one. -/
def Core.applyDesc (p : Core × Bool) (s : Nat) : Core × Bool :=
  let c := p.1
  let dirty := fun k => c.plan.dirty.contains (8 * s + k)
  let old := c.live s
  let ws := (c.mergedDesc s).1
  let code := (c.mergedDesc s).2
  if code ≠ 0 then
    (c.recordRefusal F.STR_DESCERR.CODE F.STR_DESCERR.COUNT F.STR_DESCERR.STRAND F.STR_IRQ.DESCERR (!p.2) code s, true)
  else
    let restart := dirty 7 && !dirty 4
    let new := Desc.of ws
    let opens := new.en && !old.en
    let ws1 := if restart then ws.set 9 (putBits (wordOf ws 9) 14 10 0) else ws
    let ws2 := if opens && !dirty 4 then ws1.set 9 (putBits (wordOf ws1 9) 9 0 0) else ws1
    let c1 := c.onHot fun h => { h with mem := h.mem.putWords (descLive s) ws2 }
    let x := c1.strand s
    let x1 := if (opens && !dirty 4) || !new.en then x.newWindow else x
    let x2 := (if dirty 7 || dirty 4 then { x1 with wipeOff := false } else x1).loadPhases (Desc.of ws2)
    let c2 := applyIf opens (fun c => c.onHot fun h => { h with mem := h.mem.putWord (cycAddr s) 0 }) c1
    (c2.setStrand s { x2 with
      newcfg := true, edge := if dirty 3 || dirty 4 then false else x2.edge, cyc := if opens then 0 else x2.cyc,
      cfgEra := if dirty 1 || old.stream != new.stream || old.en != new.en then x2.cfgEra + 1 else x2.cfgEra }, p.2)

/-- Strands with a dirty doubleword, rising. -/
def dirtyStrands (l : List Nat) : List Nat := l.foldl (fun r k => insertNat (k / 8) r) []

/-- Strands with EN = 1 in the live table, into STR_ENCNT. -/
def Core.countEnabled (c : Core) : Core := c.setFld F.STR_ENCNT.COUNT (belowSuch 2048 fun s => (c.live s).en).length

/-- Group 0 applies: every dirty descriptor, then the marks clear (R113). -/
def Core.applyGroup0 (c : Core) : Core :=
  let c1 := ((dirtyStrands c.plan.dirty).foldl Core.applyDesc (c, false)).1
  ({ c1 with plan := { c1.plan with dirty := [] } } : Core).countEnabled

/-- Every live descriptor loaded from the staging copy whole: a template load, a reseed (R331), a snapshot release (R357). -/
def Core.loadAllDescs (c : Core) : Core :=
  ({ c with plan := { c.plan with dirty := List.range (8 * 2048) } } : Core).applyGroup0

/-- The phases of every enabled strand taken from the live view for the epoch that begins (R115). -/
def Core.loadPhases (c : Core) : Core :=
  forBelow 2048 (fun c s => if (c.live s).en then c.setStrand s ((c.strand s).loadPhases (c.live s)) else c) c

/-! ### Group 1 and Hank RAM (R128 to R130) -/

/-- A RAM directory entry keeps the rules of R129. -/
def hankEntryOk (w0 w1 : Word) : Bool :=
  decide (bits w0 31 21 = 0 ∧ bits w1 30 21 = 0 ∧ bits w0 20 0 + bits w1 20 0 ≤ 1048576)

/-- One changed RAM directory entry applied or refused (R129). -/
def Core.applyHankEntry (c : Core) (j : Nat) : Core :=
  let w0 := c.mem.word (hankDir j)
  let w1 := c.mem.word (hankDir j + 4)
  if hankEntryOk w0 w1 then { c with force := (c.force.setReg (hankDir j) w0).setReg (hankDir j + 4) w1 }
  else ((c.raise F.STR_CODEERR.DIRREF).setFld F.STR_CODEERR.ENTRY j).raise F.STR_IRQ.CODEERR

/-- Group 1 applies. -/
def Core.applyGroup1 (c : Core) : Core :=
  let c1 := c.plan.hankChg.foldl Core.applyHankEntry c
  { c1 with plan := { c1.plan with hankChg := [] } }

/-- A byte of Hank RAM lies in the range of an entry that is VALID in force or in the staging copy (R128). -/
def Core.hankInUse (c : Core) (o : Nat) : Bool :=
  (List.range 256).any fun j =>
    let covers := fun (w0 w1 : Word) =>
      decide (bits w1 31 31 = 1 ∧ bits w0 20 0 / 8 ≤ o ∧ o * 8 < bits w0 20 0 + bits w1 20 0)
    covers (c.force.reg (hankDir j)) (c.force.reg (hankDir j + 4)) || covers (c.mem.word (hankDir j)) (c.mem.word (hankDir j + 4))

/-- A write of `n` bytes to Hank RAM at offset `o` (R128). -/
def Core.hankRamWrite (c : Core) (o : Nat) (bs : List Byte) : Core :=
  if (List.range bs.length).any fun k => c.hankInUse (o + k) then
    (c.raise F.STR_CODEERR.INUSE).raise F.STR_IRQ.CODEERR
  else { c with mem := c.mem.writes (hankRamBase + o) bs }

/-- The HANK_RAM body keeps its layout (R130). -/
def hankBodyOk (b : List Byte) : Bool :=
  let n := leAt b 0 2
  let dlen := leAt b 4 4
  let idx := (List.range n).map fun k => leAt b (16 + 12 * k) 4
  decide (n ≤ 256 ∧ dlen ≤ 131072 ∧ b.length = 16 + 12 * n + dlen) && zeroAt b 2 2 && zeroAt b 8 8 &&
    idx.all (· ≤ 255) && idx.all (fun j => idx.count j == 1)

/-- Hank RAM and its directory loaded from the image at reset (R130, R61). A refused entry is not loaded. -/
def Core.loadHankRam (c : Core) (body : Option (List Byte)) : Core :=
  let c0 : Core := { c with
    mem := (c.mem.clear hankRamBase 0x20000).clear (hankDir 0) 2048
    force := c.force.filter fun p => decide (p.1 < hankDir 0 ∨ hankDir 256 ≤ p.1) }
  match body with
  | none => c0
  | some b =>
    if hankBodyOk b then
      let n := leAt b 0 2
      let c1 : Core := { c0 with mem := c0.mem.writes hankRamBase (b.drop (16 + 12 * n)) }
      let c2 := (List.range n).foldl (fun c k =>
        let j := leAt b (16 + 12 * k) 4
        { c with mem := c.mem.writeLe (hankDir j) 8 (leAt b (20 + 12 * k) 8) }) c1
      let js := (List.range n).map fun k => leAt b (16 + 12 * k) 4
      let c3 := ({ c2 with plan := { c2.plan with hankChg := js } } : Core).applyGroup1
      js.foldl (fun c j => { c with mem := c.mem.putWords (hankDir j) [c.force.reg (hankDir j), c.force.reg (hankDir j + 4)] }) c3
    else (c0.raise F.STR_CODEERR.HANKDEF).raise F.STR_IRQ.CODEERR

/-! ### Strand templates (R118) -/

/-- The template number of a strand in a STRAND_TPL body; none where it has none. -/
def templateOf (b : List Byte) (s : Nat) : Option Nat :=
  let k := leAt b (16 + 2 * s) 2
  if k < leAt b 0 2 ∧ b ≠ [] then some k else none

/-- A template's 16 words. -/
def templateWords (b : List Byte) (k : Nat) : List Word :=
  (List.range 16).map fun w => BitVec.ofNat 32 (leAt b (4112 + 64 * k + 4 * w) 4)

/-- The staging copy of a strand filled from its template, or cleared (R118). -/
def Core.stageTemplate (b : List Byte) (c : Core) (s : Nat) : Core :=
  let ws := match templateOf b s with | some k => templateWords b k | none => List.replicate 16 0
  { c with mem := c.mem.putWords (descStage s) ws }

end Sys2Proof.Machine
end

