-- ==== Sys2Proof/Machine/Faults.lean ====
section
/-! DEFINITION. Fault registration and the words that leave the pairs (chapter 13, R312, R315, R316). -/
namespace Sys2Proof.Machine

def Core.onMir (c : Core) (f : MirSt → MirSt) : Core := { c with mir := f c.mir }

/-- A notice queued on every open session (R455). -/
def Core.notify (c : Core) (code : Nat) (detail : List Byte) : Core :=
  { c with links := vecMap c.links fun l => if l.opened then { l with notices := l.notices ++ [(code, detail)] } else l }

/-! ### Fault sources (R315) -/

def srcDigest : Nat := 1
def srcOutcmp : Nat := 2
def srcRdcmp : Nat := 3
def srcParity : Nat := 4
def srcEcc : Nat := 5
def srcOvrun : Nat := 6
def srcDstcmp : Nat := 7
def srcTmr : Nat := 8
def srcCkpt : Nat := 9
def srcReplay : Nat := 10

/-- A fault shown in MIR_FAULT and MIR_FEPOCH and reported (R336). -/
def Core.fault (c : Core) (t : Clock) (src pair copy : Nat) (inj : Bool) : Core :=
  let w := src * 2 ^ 28 + pair * 2 ^ 24 + copy * 2 ^ 22 + ofBool inj * 2 ^ 21 + ofBool (decide (fcPerHalf ≤ t.fc)) * 2 ^ 20 + t.fc
  let c1 := ((c.setReg R.MIR_FAULT (BitVec.ofNat 32 w)).setReg R.MIR_FEPOCH (BitVec.ofNat 32 t.epoch)).raise F.MIR_IRQ.FAULT
  (c1.notify 3 (leBytes 4 w ++ leBytes 4 t.epoch)).onMir fun m => { m with reports := m.reports ++ [[src, pair, copy, t.epoch]] }

/-- The output of an occurrence is suppressed: a replay has to deliver it (R325). -/
def MirSt.missed (m : MirSt) (slot epoch : Nat) : MirSt :=
  { m with cut := true, occs := m.occs.map fun o => if o.slot = slot ∧ o.epoch = epoch then { o with supp := true } else o }

/-- RECORD occurrences cut by a detection (R321): none of their entries is seen. -/
def Core.cutRecords (c : Core) : Core :=
  ({ c with plan := { c.plan with recs := [] } } : Core).onMir fun m => c.plan.recs.foldl (fun m r => m.missed r.slot r.epoch) m

/-- A lockstep fault inside a half-epoch: it is lost, and outputs are suppressed until its check point (R316). -/
def Core.lockstep (c : Core) (t : Clock) (src pair copy : Nat) (inj : Bool) : Core :=
  (((c.cutRecords.fault t src pair copy inj).onMir fun m => { m with lost := true }).setFld F.MIR_STAT.SUPP 1).setFld F.MIR_STAT.REC 1

/-! ### Output words (R312, R316) -/

/-- Words leave the pairs only outside a lost half-epoch (R316). -/
def Core.suppressed (c : Core) : Bool := c.flag F.MIR_STAT.SUPP || c.mir.caught.isSome

/-- An output word or entry that leaves a pair in one instant, and whether it is emitted (R312, R316). Where the copies disagree on it,
by chance or by an injected fault (R337), it is suppressed, and the disagreement waits for `Core.settleCaught`. -/
def Core.emits (c : Core) (pair : Nat) : Core × Bool :=
  if c.suppressed then (c.onMir fun m => { m with cut := true }, false)
  else
    let inj := decide (c.mir.injOut = some pair)
    let rest := c.mir.badOut.map fun b => if b.1 = pair then (b.1, b.2 - 1) else b
    if inj then (c.onMir fun m => { m with injOut := none, caught := some (pair, true), cut := true }, false)
    else if c.mir.badOut.contains (pair, 0) then (c.onMir fun m => { m with caught := some (pair, false), cut := true }, false)
    else (c.onMir fun m => { m with badOut := rest }, true)

/-- A disagreement on an output word is registered as a fault at the instant at which it came (R312). -/
def Core.settleCaught (c : Core) (t : Clock) : Core :=
  match c.mir.caught with
  | some (pair, inj) => (c.onMir fun m => { m with caught := none, badOut := [] }).lockstep t srcOutcmp pair 0 inj
  | none => c

end Sys2Proof.Machine
end

