-- ==== Sys2Proof/Machine/Loops.lean ====
section
/-! DEFINITION. Hardware-closed tracking loops (chapter 06): ply bindings, coefficient sets, the lifecycle table, the standard
loop kernel of R151 with its vector modes (R190 to R195) and verification (R216, R217), and the event and symbol queues. -/
namespace Sys2Proof.Machine

/-! ### Windows and tables -/

/-- Ply windows (chapter 06) and their entries: staging copy and in force. -/
def plyStage (p : Nat) : Nat := 0x31000000 + 64 * p
def plyForce (p : Nat) : Nat := 0x31010000 + 64 * p
def coefStage (i : Nat) : Nat := 0x31020000 + 32 * i
def coefForce (i : Nat) : Nat := 0x31021000 + 32 * i
def lifeStage (r : Nat) : Nat := 0x31030000 + 8 * r
def lifeForce (r : Nat) : Nat := 0x31031000 + 8 * r
def plyStatus (p : Nat) : Nat := 0x31040000 + 64 * p
/-- The range anchor of a ply (R254). -/
def rangeAnchor (p : Nat) : Nat := 0x31028000 + 16 * p
/-- Feed-forward records in force and verification entries (R189, R216). -/
def ffRecord (p : Nat) : Nat := 0x31090000 + 16 * p
def verEntry (p : Nat) : Nat := 0x310C0000 + 16 * p

/-- `n` words of a register map from an address. -/
def RegMap.words (m : RegMap) (a : Nat) : Nat → List Word
  | 0 => []
  | n + 1 => m.reg a :: RegMap.words m (a + 4) n

/-- Words set one after another. -/
def RegMap.setWords (m : RegMap) (a : Nat) : List Word → RegMap
  | [] => m
  | w :: r => RegMap.setWords (m.setReg a w) (a + 4) r

/-- Words put in force. -/
def Core.setForce (c : Core) (a : Nat) (ws : List Word) : Core := { c with force := c.force.setWords a ws }

/-- A member of a binding: its index, role and strand, carrier ratio and base offset (R148). -/
structure Member where
  idx : Nat
  role : Nat
  strand : Nat
  crat : Nat
  cbofs : Int
deriving DecidableEq, Repr

/-- A ply binding entry (R148). -/
structure Binding where
  en : Bool
  bsen : Bool
  symen : Bool
  dtap : Bool
  ctap : Bool
  kdisc : Nat
  cdisc : Nat
  ogrp : Nat
  cset : Nat
  li : Nat
  knom : Nat
  kaid : Nat
  members : List Member
deriving DecidableEq, Repr

/-- The binding that 16 words spell. -/
def Binding.of (ws : List Word) : Binding :=
  let w0 := wordOf ws 0
  let member := fun m =>
    let w := wordOf ws (4 + 3 * m)
    if bits w 13 13 = 1 then
      some { idx := m, role := bits w 12 11, strand := bits w 10 0, crat := (wordOf ws (5 + 3 * m)).toNat,
             cbofs := signedOf 32 (wordOf ws (6 + 3 * m)).toNat }
    else none
  { en := bits w0 31 31 = 1, bsen := bits w0 27 27 = 1, symen := bits w0 26 26 = 1, dtap := bits w0 25 25 = 1,
    ctap := bits w0 24 24 = 1, kdisc := bits w0 23 22, cdisc := bits w0 21 20, ogrp := bits w0 19 16, cset := bits w0 15 10,
    li := bits w0 9 0, knom := (wordOf ws 1).toNat, kaid := (wordOf ws 2).toNat,
    members := (List.range 4).filterMap member }

/-- The words of a binding, staged and in force. -/
def Core.bindStage (c : Core) (p : Nat) : List Word := c.mem.words (plyStage p) 16
def Core.bindForce (c : Core) (p : Nat) : List Word := c.force.words (plyForce p) 16
def Core.bind (c : Core) (p : Nat) : Binding := Binding.of (c.bindForce p)

/-- The MAIN member (R146). -/
def Binding.main (b : Binding) : Member :=
  b.members.headD { idx := 0, role := 0, strand := 0, crat := 2 ^ 30, cbofs := 0 }

/-- A coefficient set (R159); frequencies in rad/s and constants as rationals. -/
structure Coef where
  caid : Bool
  dord : Nat
  ford : Nat
  pord : Nat
  wp : Rat
  wf : Rat
  wd : Rat
  a2 : Rat
  a3 : Rat
  b3 : Rat
  a2f : Rat
deriving DecidableEq, Repr

/-- A number scaled down by a power of two. -/
def scaled (i : Int) (k : Nat) : Rat := (i : Rat) / ((2 ^ k : Nat) : Rat)

/-- The coefficient set that 8 words spell. -/
def Coef.of (ws : List Word) : Coef :=
  let w0 := wordOf ws 0
  let n := fun k hi lo s => scaled (bits (wordOf ws k) hi lo : Nat) s
  { caid := bits w0 6 6 = 1, dord := bits w0 5 4, ford := bits w0 3 2, pord := bits w0 1 0,
    wp := n 1 31 0 16, wf := n 2 31 0 16, wd := n 3 31 0 16, a3 := n 4 31 16 12, a2 := n 4 15 0 12, a2f := n 5 31 16 12,
    b3 := n 5 15 0 12 }

def Core.coefWords (c : Core) (i : Nat) : List Word := c.force.words (coefForce i) 8
def Core.coef (c : Core) (i : Nat) : Coef := Coef.of (c.coefWords i)
/-- A set with PORD = 0 is invalid (R159). -/
def Core.coefValid (c : Core) (i : Nat) : Bool := decide ((c.coef i).pord ≠ 0)

/-! ### Status -/

/-- A cleared status record (R150): IDLE, HOLD, every metric, counter and integrator zero. -/
def plyZero : PlySt :=
  { state := 0, mode := 0, wcset := 0, hcp := false, hcu := false, bsync := false, msync := false, slipf := false, missed := 0,
    slips := 0, slipsIn := 0, slipTotal := 0, lockt := 0, tentry := 0, lastEp := 0, lastUpd := 0, fresh := true,
    integ := ⟨0, 0, 0⟩, ek := 0, ef := 0, ephi := 0, pli := 0, fli := 0, ps := 0, pn := 0, cn0 := 0, cn0Lin := 0, cn0Ok := false, nwin := 0, prev := [],
    sums := ⟨0, 0, 0, 0⟩, bsofs := 0, bsFound := false, bins := [], binsFrom := none, prevData := none, sym := none, symMean := none,
    vsp := 0, vsn := 0, vx := [], verEnd := 0, fmode := 0, fpend := false, phaseEra := 0, gateRej := 0, resumed := false }

def Core.ply (c : Core) (p : Nat) : PlySt := mapGet (fun _ => plyZero) c.hot.plies p
def Core.setPly (c : Core) (p : Nat) (x : PlySt) : Core :=
  c.onHot fun h => { h with plies := mapPut (fun _ => plyZero) h.plies p x }

/-- Lifecycle modes (chapter 06). -/
def mHold : Nat := 0
def mFllw : Nat := 1
def mFll : Nat := 2
def mFllPll : Nat := 3
def mPll : Nat := 4
def mCoast : Nat := 5

/-- The mode is FLLPLL or PLL. -/
def lockMode (m : Nat) : Bool := decide (m = mFllPll ∨ m = mPll)

/-- C/N0 is valid (R164). -/
def PlySt.cn0v (x : PlySt) : Bool := decide (16 ≤ x.nwin) && x.cn0Ok

/-- PLI as the status record encodes it, Q1.15. -/
def PlySt.pliQ (x : PlySt) : Int := satSigned 16 (roundRat (x.pli * 32768))

/-- A rational in a signed 32-bit field of `k` fraction bits, saturating. -/
def enc32 (q : Rat) (k : Nat) : Word := BitVec.ofNat 32 (unsignedOf 32 (satSigned 32 (roundRat (q * ((2 ^ k : Nat) : Rat)))))

/-- C/N0 in 0.01 dB-Hz, as the status record encodes it. -/
def PlySt.cn0Enc (x : PlySt) : Nat := (clampInt 0 0xFFFF (roundRat (x.cn0 * 100))).toNat

/-- The status record (chapter 06). -/
def PlySt.record (x : PlySt) : List Word :=
  let f := fun (b : Bool) k => ofBool b * 2 ^ k
  [BitVec.ofNat 32 (x.state + x.mode * 2 ^ 4 + x.wcset * 2 ^ 8 + f x.hcu 15 + f x.bsync 16 + f x.msync 17 + f x.cn0v 18 +
     f x.slipf 19 + f x.hcp 20),
   BitVec.ofNat 32 (x.cn0Enc * 2 ^ 16 + unsignedOf 16 x.pliQ),
   BitVec.ofNat 32 (unsignedOf 32 (satSigned 32 (roundRat (x.fli * 1000)))),
   BitVec.ofNat 32 (x.missed * 2 ^ 16 + x.slips), BitVec.ofNat 32 x.lockt, BitVec.ofNat 32 x.tentry,
   BitVec.ofNat 32 x.lastEp, enc32 x.integ.x2 12, enc32 x.integ.x3 12, enc32 x.integ.xd 16,
   BitVec.ofNat 32 (unsignedOf 16 (satSigned 16 (roundRat (x.ek * 16384))) * 2 ^ 16 +
     unsignedOf 16 (satSigned 16 (roundRat (x.ephi * 65536)))),
   BitVec.ofNat 32 x.bsofs, 0, 0, 0, 0]

/-! ### Queues (R171, R174) -/

/-- A change of the loop kernel's state outside the pairs. -/
def Core.onLpe (c : Core) (f : LpeSt → LpeSt) : Core := { c with lpe := f c.lpe }

/-- Two words put on the event queue. -/
def Core.putEvq (c : Core) (w : Word × Word) : Core :=
  if 1024 ≤ c.lpe.evq.length then (c.countSat F.LPE_EVQ_STAT.DROP 1).raise F.LPE_LOOPIRQ.EVDROP
  else
    let c1 := applyIf c.lpe.evq.isEmpty (·.raise F.LPE_LOOPIRQ.EVQ) c
    (c1.onLpe fun l => { l with evq := l.evq ++ [w] }).setFld F.LPE_EVQ_STAT.COUNT (c.lpe.evq.length + 1)

/-- Two words put on the symbol queue. -/
def Core.putSymq (c : Core) (w : Word × Word) : Core :=
  if 4096 ≤ c.lpe.symq.length then (c.countSat F.LPE_SYMQ_STAT.DROP 1).raise F.LPE_LOOPIRQ.SYMDROP
  else
    let c1 := applyIf c.lpe.symq.isEmpty (·.raise F.LPE_LOOPIRQ.SYMQ) c
    (c1.onLpe fun l => { l with symq := l.symq ++ [w] }).setFld F.LPE_SYMQ_STAT.COUNT (c.lpe.symq.length + 1)

/-- A push to the event queue or the symbol queue leaves a pair (R311). -/
def Core.pushEvq (c : Core) (pair : Nat) (w : Word × Word) : Core := let r := c.emits pair; if r.2 then r.1.putEvq w else r.1
def Core.pushSymq (c : Core) (pair : Nat) (w : Word × Word) : Core := let r := c.emits pair; if r.2 then r.1.putSymq w else r.1

/-- An event of a ply (R174). -/
def Core.event (c : Core) (p code frm dest epoch : Nat) : Core :=
  c.pushEvq (p / 128) (BitVec.ofNat 32 (p + frm * 2 ^ 10 + dest * 2 ^ 14 + code * 2 ^ 18), BitVec.ofNat 32 epoch)

/-- A read of LPE_EVQ_LO (R174): the oldest entry leaves and LPE_EVQ_HI is latched. -/
def Core.readEvq (c : Core) : Core × Word :=
  match c.lpe.evq with
  | [] => (c, 0)
  | (lo, hi) :: r =>
    (((c.onLpe fun l => { l with evq := r }).setFld F.LPE_EVQ_STAT.COUNT r.length).setReg R.LPE_EVQ_HI hi,
     putBits lo 31 31 1)

/-- A read of LPE_SYMQ_LO (R171). -/
def Core.readSymq (c : Core) : Core × Word :=
  match c.lpe.symq with
  | [] => (c, 0)
  | (lo, hi) :: r =>
    (((c.onLpe fun l => { l with symq := r }).setFld F.LPE_SYMQ_STAT.COUNT r.length).setReg R.LPE_SYMQ_HI hi,
     putBits lo 31 31 1)

/-! ### Commands (R176) -/

/-- No latch set. -/
def latchNone : Latch := { arm := false, stop := false, bsok := false, hc := 0 }

def Core.latch (c : Core) (p : Nat) : Latch := mapGet (fun _ => latchNone) c.lpe.latches p
def Core.setLatch (c : Core) (p : Nat) (x : Latch) : Core :=
  c.onLpe fun l => { l with latches := mapPut (fun _ => latchNone) l.latches p x }

/-- A write of LPE_PLYCMD: one latch is set; a value outside 1 to 5 is discarded. -/
def Core.plyCommand (c : Core) (p cmd : Nat) : Core :=
  let x := c.latch p
  match cmd with
  | 1 => c.setLatch p { x with arm := true }
  | 2 => c.setLatch p { x with stop := true }
  | 3 => c.setLatch p { x with hc := 1 }
  | 4 => c.setLatch p { x with hc := 2 }
  | 5 => c.setLatch p { x with bsok := true }
  | _ => c

/-- The latches of a ply are read and consumed (R176). -/
def Core.consumeLatches (c : Core) (p : Nat) : Core :=
  if c.latch p = latchNone then c
  else (c.onLpe fun l => { l with consumed := l.consumed ++ [(p, c.latch p)] }).setLatch p latchNone

/-- Latches set again after a lost half-epoch; a later HC command stands (R176). -/
def Latch.restore (now old : Latch) : Latch :=
  { arm := now.arm || old.arm, stop := now.stop || old.stop, bsok := now.bsok || old.bsok,
    hc := if now.hc = 0 then old.hc else now.hc }

/-- The rollback sets again every latch that the lost half-epoch consumed. -/
def Core.restoreLatches (c : Core) : Core :=
  (c.lpe.consumed.reverse.foldl (fun c q => c.setLatch q.1 ((c.latch q.1).restore q.2)) c).onLpe fun l => { l with consumed := [] }

/-! ### Dumps as the kernel reads them (R139, R155) -/

def Core.dump (c : Core) (s : Nat) : List Word := c.hot.mem.words (dumpRec s) 32
def dumpFlag (ws : List Word) (k : Nat) : Bool := bitOf (wordOf ws 0).toNat k
def dumpNep (ws : List Word) : Nat := (wordOf ws 1).toNat
/-- The full count of a dump's EPOCH word, read in epoch `now` (R506). -/
def fullEpoch (now : Nat) (w : Nat) : Nat := now - (now + 2 ^ 32 - w % 2 ^ 32) % 2 ^ 32
def dumpEpoch (now : Nat) (ws : List Word) : Nat := fullEpoch now (wordOf ws 3).toNat
def dumpPart (ws : List Word) (t part : Nat) : Int := signedOf 32 (wordOf ws (4 + 4 * t + part)).toNat
/-- X = A + B of a tap (R138, R155). -/
def dumpSum (ws : List Word) (t : Nat) : Int × Int :=
  (dumpPart ws t 0 + dumpPart ws t 2, dumpPart ws t 1 + dumpPart ws t 3)

/-- Tap numbers (R139). -/
def tVE : Nat := 0
def tE : Nat := 1
def tP : Nat := 2
def tL : Nat := 3
def tVL : Nat := 4
def tN : Nat := 5
def tAUX : Nat := 6

/-- |x|² and |x|. -/
def normSq (x : Int × Int) : Int := x.1 * x.1 + x.2 * x.2
def normOf (x : Int × Int) : Rat := Config.sqrtRat (normSq x : Rat)

/-- Sites of an open ratio: values that the spec's formulas do not state (log entry 8). -/
inductive OpenSite where
  | phase | freq | pli | verify | soft | anchor
deriving DecidableEq, Repr

def OpenSite.num : OpenSite → Nat
  | .phase => 0 | .freq => 1 | .pli => 2 | .verify => 3 | .soft => 4 | .anchor => 5

/-- atan(y / x) in turns for x not 0. -/
def atanTurns (y x : Int) : Rat := if 0 < x then Config.atan2Turns y x else Config.atan2Turns (-y) (-x)

/-- ε_φ of a window (R155). -/
def epsPhi (cdisc p e : Nat) (x : Int × Int) : Rat :=
  if x.1 = 0 ∧ x.2 = 0 then Config.openRatio OpenSite.phase.num p e
  else if cdisc = 1 then Config.atan2Turns x.2 x.1
  else if x.1 = 0 then (if 0 < x.2 then 1 / 4 else -(1 / 4))
  else atanTurns x.2 x.1

/-- ε_f of a window of `nep` epochs (R155); 0 without a previous window. -/
def epsF (cdisc p e nep : Nat) (prev : Option (Int × Int)) (x : Int × Int) : Rat :=
  match prev with
  | none => 0
  | some y =>
    let cr := y.1 * x.2 - y.2 * x.1
    let t := y.1 * x.1 + y.2 * x.2
    let turns :=
      if cdisc = 1 then
        if cr = 0 ∧ t = 0 then Config.openRatio OpenSite.freq.num p e else Config.atan2Turns cr t
      else if t = 0 then 0
      else atanTurns cr t
    turns * 1000 / (max 1 nep : Nat)

/-- ε_k of a window (R155). `d16` is the early-to-late spacing in sixteenths of a chip. -/
def epsK (kdisc d16 : Nat) (ws : List Word) : Rat :=
  if kdisc = 1 then
    let e := dumpSum ws tE
    let l := dumpSum ws tL
    let p := dumpSum ws tP
    if normSq p = 0 then 0
    else (((e.1 - l.1) * p.1 + (e.2 - l.2) * p.2 : Int) : Rat) / ((2 * normSq p : Int) : Rat)
  else
    let e := normOf (dumpSum ws (if kdisc = 2 then tVE else tE))
    let l := normOf (dumpSum ws (if kdisc = 2 then tVL else tL))
    if e + l = 0 then 0 else (1 - (d16 : Rat) / 32) * (e - l) / (e + l)

/-! ### Filters (R147, R157, R161) -/

/-- A filter's result: the integrators, the carrier output and Δ_DLL. -/
structure FiltOut where
  integ : Integ
  fD : Rat
  dll : Rat
deriving DecidableEq, Repr

/-- The means of the discriminators (R154). -/
structure Means where
  phi : Rat
  f : Rat
  k : Rat
deriving DecidableEq, Repr

/-- The carrier filter of R157: x₃ first, then x₂, then the output. -/
def carrierFilter (mode : Nat) (k : Coef) (t : Rat) (m : Means) (x : Integ) : Integ × Rat :=
  let ef := if mode = mPll ∨ (mode = mFllPll ∧ k.ford = 0) then 0 else m.f
  if mode = mCoast then
    let x2 := x.x2 + t * x.x3
    ({ x with x2 := x2 }, x2)
  else if mode = mFllw ∨ mode = mFll then
    if k.ford = 2 then
      let x3 := x.x3 + t * k.wf * k.wf * ef
      let x2 := x.x2 + t * (x3 + k.a2f * k.wf * ef)
      ({ x with x2 := x2, x3 := x3 }, x2)
    else
      let x2 := x.x2 + t * k.wf * ef
      ({ x with x2 := x2 }, x2)
  else if k.pord = 1 then
    let x2 := x.x2 + t * k.wf * ef
    ({ x with x2 := x2 }, x2 + k.wp * m.phi)
  else if k.pord = 2 then
    let x2 := x.x2 + t * (k.wp * k.wp * m.phi + k.wf * ef)
    ({ x with x2 := x2 }, x2 + k.a2 * k.wp * m.phi)
  else
    let x3 := x.x3 + t * (k.wp * k.wp * k.wp * m.phi + k.wf * k.wf * ef)
    let x2 := x.x2 + t * (x3 + k.a3 * k.wp * k.wp * m.phi + k.a2f * k.wf * ef)
    ({ x with x2 := x2, x3 := x3 }, x2 + k.b3 * k.wp * m.phi)

/-- The code filter of R157. -/
def codeFilter (k : Coef) (t : Rat) (m : Means) (x : Integ) : Integ × Rat :=
  if k.dord = 2 then
    let xd := x.xd + t * k.wd * k.wd * m.k
    ({ x with xd := xd }, xd + k.a2 * k.wd * m.k)
  else (x, k.wd * m.k)

/-- The feed-forward of a ply as a processing evaluates it (R190). -/
structure FeedFwd where
  valid : Bool
  age : Nat
  f : Rat
  rate : Rat
  ffk : Rat
deriving DecidableEq, Repr

/-- The filters of a mode, with the Focus mode's effect on f_D and Δ_DLL (R157, R161, R191). -/
def runFilters (mode fmode : Nat) (k : Coef) (t : Rat) (m : Means) (ff : FeedFwd) (x : Integ) : FiltOut :=
  let cf := carrierFilter mode k t m x
  let add := if fmode = 0 then 0 else ff.f
  if mode = mCoast then { integ := cf.1, fD := add + cf.2, dll := if fmode = 2 then ff.ffk else 0 }
  else if fmode = 2 ∧ lockMode mode then { integ := cf.1, fD := add + cf.2, dll := ff.ffk }
  else
    let kf := codeFilter k t m cf.1
    { integ := kf.1, fD := add + cf.2, dll := kf.2 }

/-- The set that a filter of a mode uses: FVSET for a full-vector ply in a lock mode, else the working set (R191). -/
def Core.filterSet (c : Core) (mode fmode : Nat) (x : PlySt) : Nat :=
  if fmode = 2 ∧ lockMode mode then c.inForce F.FOC_CFG.FVSET else x.wcset

/-- Rates per Hz (R123). -/
def rateUnit : Rat := (4294967296 : Rat) / 1250

/-- A stream's intermediate frequency in force, in Hz. -/
def Core.ifHz (c : Core) (n : Nat) : Int := signedOf 32 (c.force.reg (R.BOB_IF n)).toNat

/-- The Doppler that a CR of MAIN stands for (R158). -/
def Core.dopplerOf (c : Core) (b : Binding) (cr : Int) : Rat :=
  (cr : Rat) / rateUnit - (c.ifHz (c.live b.main.strand).stream : Rat) - (b.main.cbofs : Rat)

/-- A rate record queued, replacing the fields it writes of one already queued in the epoch (R236). -/
def Core.queueRate (c : Core) (w : WriteBack) : Core :=
  c.onHot fun h =>
    match h.wbq.find? fun v => v.strand == w.strand with
    | some v =>
      let u : WriteBack :=
        { strand := w.strand, cr := if w.cr.isSome then w.cr else v.cr, kr := if w.kr.isSome then w.kr else v.kr }
      { h with wbq := h.wbq.map fun x => if x.strand == w.strand then u else x }
    | none => { h with wbq := h.wbq ++ [w] }

/-- A slice's W1C error bit with its interrupt (chapter 09). -/
def Core.sliceErr (c : Core) (bit irq : Fld) : Core := (c.raise bit).raise irq

/-- Step 7 of R151: CR and KR of every present member (R147, R161); a KR out of range is discarded (R236). -/
def Core.writeRates (c : Core) (p : Nat) (b : Binding) (k : Coef) (o : FiltOut) : Core :=
  let aid := if k.caid then scaled b.kaid 32 * o.fD else 0
  let kr := roundRat (((b.knom : Rat) + aid + o.dll) * rateUnit)
  b.members.foldl (fun c m =>
    let f := (c.ifHz (c.live m.strand).stream : Rat) + (m.cbofs : Rat) + scaled m.crat 30 * o.fD
    if kr < 0 ∨ ((2 ^ 46 : Nat) : Int) ≤ kr then c.sliceErr (F.LPE_SLSTAT.PORTERR (p / 128)) F.LPE_IRQ.PORTERR
    else c.queueRate { strand := m.strand, cr := some (unsignedOf 48 (roundRat (f * rateUnit))), kr := some kr.toNat }) c

/-! ### Focus modes as the kernel sees them (R190 to R195) -/

/-- The Focus mode entry of a ply in force: MODE and USE (R193). -/
def Core.focEntry (c : Core) (p : Nat) : Nat := mapGet (fun _ => 0) c.hot.foc.modes p
def Core.setFocEntry (c : Core) (p v : Nat) : Core :=
  c.onHot fun h => { h with foc := { h.foc with modes := mapPut (fun _ => 0) h.foc.modes p (v % 16) } }

/-- A word of FOC_MODE as it is in force. -/
def Core.modeForce (c : Core) (w : Nat) : Word :=
  BitVec.ofNat 32 ((List.range 8).foldl (fun v i => v + c.focEntry (8 * w + i) * 16 ^ i) 0)

/-- A ply in a vector mode that is not demoted yet (R195). -/
def Core.vectorPly (c : Core) (p : Nat) : Bool := decide ((c.ply p).fmode ≠ 0 ∧ c.focEntry p % 4 ≠ 0)

/-- The filter is in TRACK or COAST. -/
def Core.focusReady (c : Core) : Bool := c.hot.foc.state = 3 || c.hot.foc.state = 4

/-- A demotion (R195): the demoted mode goes into the entry in force, the reason into FOC_DEM. -/
def Core.demote (c : Core) (p reason dest : Nat) : Core :=
  let e := c.focEntry p
  ((((c.setFocEntry p (e / 4 * 4 + dest)).countSat F.FOC_DEM.COUNT 1).setFld F.FOC_DEM.REASON reason).setFld F.FOC_DEM.PLY p).raise
    F.FOC_IRQ.DEMOTE

/-- The feed-forward record in force, evaluated for the dump of epoch `ep` (R190). -/
def Core.feedFwd (c : Core) (p ep : Nat) : FeedFwd :=
  let ws := c.hot.mem.words (ffRecord p) 4
  let ea := ep + 1
  let age := (ea + 2 ^ 32 - (wordOf ws 0).toNat) % 2 ^ 32
  let rate := scaled (signedOf 32 (wordOf ws 2).toNat) 12
  { valid := bits (wordOf ws 3) 0 0 = 1, age := age,
    f := scaled (signedOf 32 (wordOf ws 1).toNat) 12 + rate * ((age : Rat) / 1000 + 1 / 2000), rate := rate,
    ffk := scaled (signedOf 24 (bits (wordOf ws 3) 31 8)) 12 }

/-- The mode that is effective in this processing, and whether the request is pending (R193). -/
def Core.effMode (c : Core) (p : Nat) (x : PlySt) (ff : FeedFwd) : Nat × Bool :=
  let req := c.focEntry p % 4
  let usable := ff.valid && decide (ff.age ≤ c.inForce F.FOC_LIM0.FFMAX)
  if req = 0 then (0, false)
  else if !(c.focusReady && usable) then (0, true)
  else if req = 1 then (1, false)
  else if (lockMode x.mode && decide (c.inForce F.FOC_LIM2.FVLOCK ≤ x.lockt)) ||
      (decide (x.fmode = 2) && (lockMode x.mode || decide (x.mode = mCoast))) then (2, false)
  else (1, true)

/-- The integrator transfer of R194. -/
def transfer (frm dest : Nat) (ff : FeedFwd) (x : Integ) : Integ :=
  if frm = dest then x
  else if frm = 0 then { x with x2 := x.x2 - ff.f, x3 := x.x3 - ff.rate }
  else if dest = 0 then
    { x2 := x.x2 + ff.f, x3 := x.x3 + ff.rate, xd := if frm = 2 then ff.ffk else x.xd }
  else if frm = 2 then { x with xd := ff.ffk }
  else x

/-- The start of step 3 for the Focus modes (R190, R193, R194): a stale or invalid record demotes a ply in a vector mode, then the
effective mode changes with its transfer. -/
def Core.focusStep (c : Core) (p : Nat) (x : PlySt) (ff : FeedFwd) : Core × PlySt :=
  let c1 :=
    if x.fmode = 0 ∨ c.focEntry p % 4 = 0 then c
    else if !ff.valid then c.demote p 4 0
    else if c.inForce F.FOC_LIM0.FFMAX < ff.age then c.demote p 2 0
    else c
  let e := c1.effMode p x ff
  (c1, { x with fmode := e.1, fpend := e.2, integ := transfer x.fmode e.1 ff x.integ })

/-! ### Verification (R216, R217) -/

def Core.verWords (c : Core) (p : Nat) : List Word := c.hot.mem.words (verEntry p) 4
def Core.verArmed (c : Core) (p : Nat) : Bool := bits (wordOf (c.verWords p) 0) 31 31 = 1
/-- VEN cleared, at a result and by STOPPLY. -/
def Core.clearVen (c : Core) (p : Nat) : Core :=
  c.onHot fun h => { h with mem := h.mem.putWord (verEntry p) (putBits (h.mem.word (verEntry p)) 31 31 0) }

/-- The result of a verification. -/
inductive VerAns where
  | none | ok | fail
deriving DecidableEq, Repr

/-- RATIO = ΣP / ΣN in 1/256, saturating. -/
def verRatio (p e vsp vsn : Nat) : Nat :=
  let q : Rat := if vsn = 0 then Config.openRatio OpenSite.verify.num p e else (vsp : Rat) / (vsn : Rat)
  (clampInt 0 0xFFFFFFFF (q * 256).floor).toNat

/-- A verification ends: VRES, VREASON, VSPH and RATIO are written and VEN clears. -/
def Core.endVerify (c : Core) (p ratio : Nat) (pass : Bool) (reason vsph : Nat) : Core :=
  let c1 := c.clearVen p
  let w2 := BitVec.ofNat 32 ((if pass then 1 else 2) * 2 ^ 30 + reason * 2 ^ 26 + vsph)
  c1.onHot fun h => { h with mem := h.mem.putWords (verEntry p + 8) [w2, BitVec.ofNat 32 ratio] }

/-- S(m) of R217. -/
def verScore (sec : Nat → Int) (l : Nat) (xs : List (Int × Int)) (m : Nat) : Rat :=
  let n := xs.length
  ((List.range ((n + m) / l + 1)).map fun g =>
    let ws := belowSuch n fun w => decide ((w + m) / l = g)
    let si := (ws.map fun w => (xs.getD w (0, 0)).1 * sec ((w + m) % l)).sum
    let sq := (ws.map fun w => (xs.getD w (0, 0)).2 * sec ((w + m) % l)).sum
    normOf (si, sq)).sum

/-- m*, the smallest hypothesis that maximises S, and whether the search has succeeded (R217). -/
def verSearch (score : Nat → Rat) (l : Nat) : Nat × Bool :=
  let best := ((List.range l).map score).foldl max 0
  let m := ((List.range l).find? fun m => decide (score m = best)).getD 0
  (m, decide (l = 1) || (List.range l).all fun k => k == m || decide (3 * score k ≤ 2 * score m))

/-- One processed MAIN window under a running verification (R217). -/
def Core.verify (c : Core) (p ep : Nat) (b : Binding) (x : PlySt) (d : List Word) (excluded : Bool) : Core × PlySt × VerAns :=
  let e := c.verWords p
  let w0 := wordOf e 0
  let vnep := bits w0 23 16
  let vsec := bits w0 30 30 = 1
  let aux := bits w0 29 29 = 1
  let live := c.live b.main.strand
  let start := ep - dumpNep d
  let stop := fun (y : PlySt) => { y with vsp := 0, vsn := 0, vx := [] }
  let failWith := fun (y : PlySt) (ratio reason vsph : Nat) =>
    (c.endVerify p ratio false reason vsph, stop y, VerAns.fail)
  let ratioSoFar := fun (y : PlySt) => if y.vx = [] then 0 else verRatio p ep y.vsp y.vsn
  if ¬ (x.state = 1 ∧ c.verArmed p) then (c, x, .none)
  else if vnep < 1 ∨ 100 < vnep then failWith x 0 6 0
  else if serialNewer 32 (wordOf e 1).toNat start then (c, x, .none)
  else if excluded then failWith x (ratioSoFar x) 2 0
  else
    let id := if aux then live.asid else live.sid
    let secLen := if id < 0x400 then hankRomLen id else (c.hankEntry (id - 0x400)).map (·.2)
    let l := secLen.getD 0
    let lm := (c.codeLen live.kfam live.kidx).getD 0
    if x.vx = [] ∧ live.nofs = 0 then failWith x 0 3 0
    else if x.vx = [] ∧ vsec ∧ secLen.isNone then failWith x 0 5 0
    else if x.vx = [] ∧ vsec ∧ (vnep < l ∨ live.intl * b.knom ≠ 1000 * (if live.tdm = 1 then 2 * lm else lm)) then failWith x 0 4 0
    else
      let t := dumpSum d (if aux then tAUX else tP)
      let y : PlySt :=
        { x with vsp := x.vsp + (normSq t).toNat, vsn := x.vsn + (normSq (dumpSum d tN)).toNat, vx := x.vx ++ [t] }
      if y.vx.length < vnep then (c, y, .none)
      else
        let ratio := verRatio p ep y.vsp y.vsn
        let r := verSearch (verScore (fun i => c.chip 0 id i) (max 1 l) y.vx) (max 1 l)
        let vsph := if vsec then (vnep + r.1) % max 1 l else 0
        let high : Bool :=
          if y.vsn = 0 then decide (bits w0 15 0 ≤ ratio) else decide (bits w0 15 0 * y.vsn ≤ 256 * y.vsp)
        if !high then failWith y ratio 1 vsph
        else if vsec && !r.2 then failWith y ratio 7 vsph
        else (c.endVerify p ratio true 0 vsph, { stop y with verEnd := ep }, .ok)

/-! ### The lifecycle table (R172 to R174) -/

/-- A lifecycle row. -/
structure LifeRow where
  valid : Bool
  act : Nat
  ntfy : Bool
  cond : Nat
  next : Nat
  state : Nat
  code : Nat
  set : Nat
  cparam : Nat
deriving DecidableEq, Repr

def LifeRow.of (w0 w1 : Word) : LifeRow :=
  { valid := bits w0 31 31 = 1, act := bits w0 19 16, ntfy := bits w0 14 14 = 1, cond := bits w0 13 8, next := bits w0 7 4,
    state := bits w0 3 0, code := bits w1 31 24, set := bits w1 21 16, cparam := bits w1 15 0 }

def Core.lifeRow (c : Core) (r : Nat) : LifeRow := LifeRow.of (c.force.reg (lifeForce r)) (c.force.reg (lifeForce r + 4))

/-- What a processing has found, for the conditions. -/
structure Found where
  ep : Nat
  slip : Bool
  sigzero : Bool
  latch : Latch
  ver : VerAns
deriving DecidableEq, Repr

/-- A condition of a row (chapter 06); one on an invalid metric is false (R164). -/
def condTrue (x : PlySt) (f : Found) (cond par : Nat) : Bool :=
  match cond with
  | 0x00 => true
  | 0x01 => decide (par ≤ f.ep - x.tentry)
  | 0x02 => decide (16 ≤ x.nwin ∧ signedOf 16 par ≤ x.pliQ)
  | 0x03 => decide (16 ≤ x.nwin ∧ x.pliQ < signedOf 16 par)
  | 0x04 => decide (8 ≤ x.nwin) && decide (x.fli ≤ (par : Rat) / 100) && decide (-(par : Rat) / 100 ≤ x.fli)
  | 0x05 => decide (8 ≤ x.nwin) && (decide ((par : Rat) / 100 < x.fli) || decide (x.fli < -(par : Rat) / 100))
  | 0x06 => x.cn0v && decide ((par : Rat) / 100 ≤ x.cn0)
  | 0x07 => x.cn0v && decide (x.cn0 < (par : Rat) / 100)
  | 0x08 => f.slip
  | 0x09 => decide (par ≤ x.slipsIn)
  | 0x0A => f.sigzero
  | 0x0B => f.latch.arm
  | 0x0C => f.latch.stop
  | 0x0D => decide (f.ver = .ok)
  | 0x0E => decide (f.ver = .fail)
  | 0x0F => x.bsync
  | 0x10 => decide (par ≤ x.lockt)
  | _ => false

/-- The mode that an action leaves. -/
def actMode (act mode : Nat) : Nat :=
  if act = 1 ∨ act = 7 then mHold else if 2 ≤ act ∧ act ≤ 6 then act - 1 else mode

/-- The working set that a mode action names; an invalid one keeps the working set (R172). -/
def Core.actSet (c : Core) (b : Binding) (row : LifeRow) (wcset : Nat) : Nat :=
  if 2 ≤ row.act ∧ row.act ≤ 5 ∧ row.set ≠ 0x3F then
    let s := if row.set = 0x3E then b.cset else row.set
    if c.coefValid s then s else wcset
  else wcset

/-- A fired row's effect on the status (R165, R167, R168, R172, R173). -/
def Core.fireStatus (c : Core) (b : Binding) (row : LifeRow) (ep : Nat) (x : PlySt) : PlySt :=
  let mode := actMode row.act x.mode
  let hold := decide (row.act = 1 ∨ row.act = 7)
  let stop := decide (row.act = 7)
  let enters := lockMode mode && !lockMode x.mode
  let moves := decide (row.next ≠ x.state)
  { x with
    state := row.next
    mode := mode
    wcset := c.actSet b row x.wcset
    bsync := x.bsync && !hold
    bsFound := x.bsFound && !hold
    hcu := if stop then false else if enters then decide (b.cdisc = 0) else x.hcu
    hcp := x.hcp && !stop
    lockt := if row.act = 8 ∨ stop ∨ (mode ≠ x.mode ∧ !lockMode mode) then 0 else x.lockt
    nwin := if mode = mHold ∧ x.mode ≠ mHold then 0 else x.nwin
    phaseEra := if enters then x.phaseEra + 1 else x.phaseEra
    tentry := if moves then ep else x.tentry
    slipsIn := if moves then 0 else x.slipsIn }

/-- VALID of a ply's range anchor cleared (R254). -/
def Core.clearAnchor (c : Core) (p : Nat) : Core :=
  { c with mem := c.mem.putWord (rangeAnchor p) (putBits (c.mem.word (rangeAnchor p)) 31 31 0) }

/-- Step 6: the first valid row of the ply's state whose condition is true fires (R173), with its event (R174). -/
def Core.lifecycle (c : Core) (p : Nat) (b : Binding) (f : Found) (x : PlySt) : Core × PlySt × Bool :=
  match (List.range 64).find? fun r =>
      let row := c.lifeRow r
      row.valid && row.state == x.state && condTrue x f row.cond row.cparam with
  | none => (c, x, false)
  | some r =>
    let row := c.lifeRow r
    let y := c.fireStatus b row f.ep x
    let stop := decide (row.act = 7)
    let c1 := applyIf stop (·.clearVen p) c
    let c2 := applyIf (decide (y.mode = mHold ∧ x.mode ≠ mHold)) (·.clearAnchor p) c1
    let code := if row.ntfy then row.code else if stop then 0xF4 else 0
    (applyIf (decide (row.next ≠ x.state) || row.ntfy || stop) (·.event p code x.state row.next f.ep) c2, y, stop)

/-! ### The parts of a processing -/

/-- A member with its dump, and whether its window takes part (R152). -/
structure Taking where
  m : Member
  d : List Word
  takes : Bool
  sync : Bool
deriving DecidableEq, Repr

/-- Step 1's exclusions (R152). -/
def Core.takings (c : Core) (now : Nat) (b : Binding) : List Taking :=
  let d0 := c.dump b.main.strand
  b.members.map fun m =>
    let d := c.dump m.strand
    let sync := decide (dumpEpoch now d = dumpEpoch now d0 ∧ dumpNep d = dumpNep d0)
    { m := m, d := d, sync := sync, takes := sync && !(dumpFlag d 12 || dumpFlag d 14 || dumpFlag d 11) }

/-- The frequency-discriminator history cleared and the symbol in progress discarded (R153). -/
def PlySt.clearHistory (x : PlySt) : PlySt := { x with prev := [] }

/-- Windows missed since LASTEP (R153). -/
def missedWindows (lastEp ep nep : Nat) : Nat :=
  if lastEp ≠ 0 ∧ lastEp + nep < ep then max 1 ((ep - lastEp) / max 1 nep - 1) else 0

/-- HC and BSOK take effect in step 1 (R167, R168, R176). -/
def PlySt.latches (x : PlySt) (l : Latch) : PlySt :=
  { x with hcp := if l.hc = 2 then !x.hcp else x.hcp, hcu := x.hcu && decide (l.hc = 0), bsync := x.bsync || l.bsok }

/-- x₂ and x_d reloaded from the live rates on NEWCFG (R163, R192). -/
def Core.reload (c : Core) (b : Binding) (ff : FeedFwd) (x : PlySt) : PlySt :=
  let d := c.live b.main.strand
  let k := c.coef x.wcset
  let dop := c.dopplerOf b d.cr
  let xd := (d.kr : Rat) / rateUnit - (b.knom : Rat) - (if k.caid then scaled b.kaid 32 * dop else 0)
  { x.clearHistory with integ :=
    { x.integ with x2 := dop - (if x.fmode = 0 then 0 else ff.f), xd := if k.dord = 2 then xd else x.integ.xd } }

/-- The window discriminators of the MAIN and COMB members that take part, meaned (R155, R156), with the sums they were formed
from: the means, the summed carrier taps and the summed noise taps, and each member's sum for the next window. -/
structure Window where
  n : Nat
  phi : Rat
  f : Rat
  k : Rat
  x : Int × Int
  noise : Int × Int
  sums : List (Nat × (Int × Int))
deriving DecidableEq, Repr

/-- A sum of rationals divided by their count. -/
def meanOf (l : List Rat) : Rat := if l = [] then 0 else l.sum / (l.length : Rat)

/-- The sum of complex values. -/
def sumC (l : List (Int × Int)) : Int × Int := ((l.map (·.1)).sum, (l.map (·.2)).sum)

/-- Step 2 of R151. -/
def Core.window (c : Core) (p ep : Nat) (b : Binding) (x : PlySt) (ts : List Taking) : Window :=
  let tap := if b.ctap then tAUX else tP
  let kdisc := if x.mode = mFllw then 2 else b.kdisc
  let used := ts.filter fun t => t.takes && t.m.role != 2
  let sum := fun (t : Taking) => dumpSum t.d tap
  { n := used.length
    phi := meanOf (used.map fun t => epsPhi b.cdisc p ep (sum t))
    f := meanOf (used.map fun t =>
      epsF b.cdisc p ep (dumpNep t.d) ((x.prev.find? fun q => q.1 == t.m.idx).map (·.2)) (sum t))
    k := meanOf (used.map fun t =>
      let d := c.live t.m.strand
      epsK kdisc (2 * (if kdisc = 2 then d.dvel else d.del)) t.d)
    x := sumC (used.map sum)
    noise := sumC (used.map fun t => dumpSum t.d tN)
    sums := used.map fun t => (t.m.idx, sum t) }

/-- The lock metrics of a window in which MAIN takes part (R164). -/
def PlySt.metrics (x : PlySt) (p ep nep nofs : Nat) (w : Window) : PlySt :=
  let i2 := w.x.1 * w.x.1
  let q2 := w.x.2 * w.x.2
  let ratio : Rat := if i2 + q2 = 0 then Config.openRatio OpenSite.pli.num p ep else ((i2 - q2 : Int) : Rat) / ((i2 + q2 : Int) : Rat)
  let sx : Rat := (normSq w.x : Int)
  let sn : Rat := (normSq w.noise : Int)
  let first := decide (x.nwin = 0)
  let ps := if first then sx else x.ps + (sx - x.ps) / 16
  let pn := if first then sn else x.pn + (sn - x.pn) / 16
  let ok := decide (nofs ≠ 0 ∧ pn ≠ 0)
  { x with
    pli := if first then ratio else x.pli + (ratio - x.pli) / 16
    fli := x.fli + (w.f - x.fli) / 8
    ps := ps
    pn := pn
    cn0 := if ps ≤ pn then 0 else if ok then Config.db10 ((ps - pn) * 1000 / (pn * (max 1 nep : Nat))) else 0
    cn0Lin := if ps ≤ pn then 1 else (ps - pn) * 1000 / (pn * (max 1 nep : Nat))
    cn0Ok := ok
    nwin := if x.mode = mHold then 0 else x.nwin + 1 }

/-- Step 4's slip test (R166). -/
def PlySt.slipped (x : PlySt) (b : Binding) (nep : Nat) (w : Window) : Bool :=
  let a := fun (q : Rat) => if q < 0 then -q else q
  let ft := a w.f * (nep : Rat) / 1000
  lockMode x.mode && decide (16 ≤ x.nwin) &&
    (if b.cdisc = 0 then decide (3 / 16 < a w.phi) || decide (1 / 8 ≤ ft) else decide (3 / 8 < a w.phi) || decide (1 / 4 ≤ ft))

/-- A declared slip's effect on the status (R166, R167). -/
def PlySt.slip (x : PlySt) (cdisc : Nat) : PlySt :=
  { x with slips := satAdd 0xFFFF x.slips 1, slipsIn := x.slipsIn + 1, slipTotal := x.slipTotal + 1, lockt := 0,
           phaseEra := x.phaseEra + 1,
           hcu := x.hcu || decide (cdisc = 0) }

/-- The count of a bin. -/
def binCount (l : List (Nat × Nat)) (b : Nat) : Nat := ((l.find? fun q => q.1 == b).map (·.2)).getD 0

/-- Step 5's bit-sync search (R168). -/
def Core.bitSync (c : Core) (p ep : Nat) (b : Binding) (x : PlySt) (d : List Word) (mainIn : Bool) : Core × PlySt :=
  let s := (c.live b.main.strand).symcp
  if b.bsen && !x.bsync && lockMode x.mode && decide (1 < s ∧ dumpNep d = 1) && mainIn then
    let i := (dumpSum d (if b.dtap then tAUX else tP)).1
    let frm := x.binsFrom.getD ep
    let bin := (c.strand b.main.strand).cpcWin % s
    let bins := match x.prevData with
      | some j => if (j < 0) = (i < 0) then x.bins else mapInsert x.bins bin (binCount x.bins bin + 1)
      | none => x.bins
    let n := binCount bins bin
    let all := (bins.map (·.2)).sum
    let y : PlySt := { x with prevData := some i }
    if 16 ≤ n ∧ 4 * all ≤ 5 * n then
      (c.event p 0xF1 x.state x.state ep, { y with bsofs := (s - bin) % s, bsFound := true, bins := [], binsFrom := none })
    else if 2000 ≤ ep - frm then (c, { y with bins := [], binsFrom := none })
    else (c, { y with bins := bins, binsFrom := some frm })
  else (c, { x with prevData := none })

/-- A symbol emitted (R169). -/
def Core.emitSymbol (c : Core) (p ep cpc : Nat) (x : PlySt) (i : Int) (part : Bool) : Core × PlySt :=
  let a : Rat := if i < 0 then -(i : Rat) else (i : Rat)
  let m := x.symMean.getD a
  let s : Rat := if x.hcp then -1 else 1
  let soft := if m = 0 then Config.openRatio OpenSite.soft.num p ep else 8192 * s * (i : Rat) / m
  let lo := p + ofBool x.hcu * 2 ^ 10 + ofBool part * 2 ^ 11 + ep % 1024 * 2 ^ 21
  let hi := unsignedOf 16 (satSigned 16 (roundRat soft)) + cpc * 2 ^ 16
  (c.pushSymq (p / 128) (BitVec.ofNat 32 lo, BitVec.ofNat 32 hi), { x with symMean := some (m + (a - m) / 32) })

/-- Step 5's symbols (R169). -/
def Core.symbols (c : Core) (p ep : Nat) (b : Binding) (x : PlySt) (d : List Word) (mainIn : Bool) : Core × PlySt :=
  if b.symen && x.bsync && lockMode x.mode then
    let cur := x.sym.getD (0, true)
    if !mainIn then (c, { x with sym := some (cur.1, true) })
    else
      let tap := if b.dtap then tAUX else tP
      let sum := cur.1 + dumpPart d tap 0
      if dumpFlag d 9 then (c, { x with sym := some (sum, cur.2) })
      else
        let r := c.emitSymbol p ep (c.strand b.main.strand).cpcWin x sum cur.2
        (r.1, { r.2 with sym := some (dumpPart d tap 2, false) })
  else (c, { x with sym := none })

/-- Step 3's filter update under R154: the status after it, the output where one ran, and the means and interval used. -/
structure Update where
  st : PlySt
  out : Option FiltOut
  due : Bool
  haveMeans : Bool
  means : Means
  t : Rat
  upd0 : Nat
  fresh0 : Bool
deriving DecidableEq, Repr

/-- The filter of a mode may run: COAST uses no means, every other mode needs means and a valid set (R154, R159). -/
def Core.canFilter (c : Core) (mode set : Nat) (haveMeans : Bool) : Bool :=
  decide (mode ≠ mHold) && (decide (mode = mCoast) || (haveMeans && c.coefValid set))

/-- The filter update of step 3 (R154, R157). -/
def Core.update (c : Core) (b : Binding) (ep nep : Nat) (ff : FeedFwd) (x : PlySt) (w : Window) (mainIn : Bool) : Update :=
  let s := x.sums
  let sums : DiscSum :=
    if mainIn ∧ x.mode ≠ mHold then ⟨s.phi + w.phi, s.f + w.f, s.k + w.k, s.n + 1⟩ else s
  let due := decide (x.mode ≠ mHold) && (x.fresh || decide (x.lastUpd + b.li ≤ ep))
  let t : Rat := ((if x.fresh then nep else ep - x.lastUpd : Nat) : Rat) / 1000
  let n : Rat := ((max 1 sums.n : Nat) : Rat)
  let m : Means := ⟨sums.phi / n, sums.f / n, sums.k / n⟩
  let have_ := decide (0 < sums.n)
  let set := c.filterSet x.mode x.fmode x
  let y : PlySt := { x with sums := sums }
  if due && c.canFilter x.mode set have_ then
    let o := runFilters x.mode x.fmode (c.coef set) t m ff x.integ
    { st := { y with integ := o.integ, lastUpd := ep, fresh := false, sums := ⟨0, 0, 0, 0⟩,
                     ek := if have_ then m.k else x.ek, ef := if have_ then m.f else x.ef,
                     ephi := if have_ then m.phi else x.ephi },
      out := some o, due := due, haveMeans := have_, means := m, t := t, upd0 := x.lastUpd, fresh0 := x.fresh }
  else
    { st := y, out := none, due := due, haveMeans := have_, means := m, t := t, upd0 := x.lastUpd, fresh0 := x.fresh }

/-- What a mode change in step 6 makes of the filter update (R158, R162). `pre` holds the integrators before step 3, `mode0` the
mode before step 6. -/
def Core.modeChange (c : Core) (b : Binding) (ep : Nat) (ff : FeedFwd) (u : Update) (pre : Integ) (mode0 : Nat) (stop : Bool)
    (x : PlySt) : PlySt × Option FiltOut :=
  if stop then ({ x with integ := ⟨0, 0, 0⟩ }, none)
  else if x.mode = mode0 then (x, u.out)
  else if x.mode = mHold then ({ x with integ := pre }, none)
  else if mode0 = mHold then
    let x2 := c.dopplerOf b (c.live b.main.strand).cr - (if x.fmode = 0 then 0 else ff.f)
    ({ x.clearHistory with integ := ⟨x2, 0, 0⟩, fresh := true, sums := ⟨0, 0, 0, 0⟩ }, none)
  else
    let set := c.filterSet x.mode x.fmode x
    if u.due && c.canFilter x.mode set u.haveMeans then
      let o := runFilters x.mode x.fmode (c.coef set) u.t u.means ff pre
      ({ x with integ := o.integ, lastUpd := ep, fresh := false }, some o)
    else ({ x with integ := pre, lastUpd := u.upd0, fresh := u.fresh0 }, none)

/-! ### One ply, one slot (R151) -/

/-- The number of plies of skein `k` under the running image (R239). -/
def Core.uply (c : Core) (k : Nat) : Nat := min 128 (leAt (c.plan.img.sec .plyBind) 0 2 - 128 * k)

/-- Events 0xF3 for the members out of step (R152). -/
def Core.syncEvents (c : Core) (p ep state : Nat) (ts : List Taking) : Core :=
  (ts.filter fun t => !t.sync).foldl (fun c _ => c.event p 0xF3 state state ep) c

/-- Steps 1 to 7 of R151 for a ply whose MAIN strand holds a dump above LASTEP. -/
def Core.processPly (c : Core) (now p : Nat) : Core :=
  let b := c.bind p
  let d0 := c.dump b.main.strand
  let ep := dumpEpoch now d0
  let nep := dumpNep d0
  let latch := c.latch p
  let x0 := (c.ply p).latches latch
  let ff := c.feedFwd p ep
  -- step 1
  let ts := c.takings now b
  let mainIn := (ts.head?.map (·.takes)).getD false
  let miss := if x0.resumed then 0 else missedWindows x0.lastEp ep nep
  let c1 := applyIf (decide (0 < miss)) (·.event p 0xF2 x0.state x0.state ep) (c.consumeLatches p)
  let c2 := c1.syncEvents p ep x0.state ts
  let x1 := if decide (0 < miss) || x0.resumed then
      { x0.clearHistory with
        missed := satAdd 0xFFFF x0.missed miss, sym := none, prevData := none, resumed := false } else x0
  let x2 := { (if dumpFlag d0 15 then c2.reload b ff x1 else x1) with lastEp := ep, msync := ts.any fun t => !t.sync }
  -- step 2
  let w := c2.window p ep b x2 ts
  let x3 := { x2 with prev := w.sums }
  -- step 3
  let pf := c2.focusStep p x3 ff
  let c3 := pf.1
  let live := c3.live b.main.strand
  let x4 := if mainIn then pf.2.metrics p ep nep live.nofs w else pf.2
  let x5 := if lockMode x4.mode then { x4 with lockt := satAdd 0xFFFFFFFF x4.lockt nep } else x4
  let pv := c3.verify p ep b x5 d0 (!mainIn)
  let x6 := pv.2.1
  let u := pv.1.update b ep nep ff x6 w mainIn
  -- step 4
  let slip := mainIn && u.st.slipped b nep w
  let c4 := applyIf slip (·.event p 0xF0 u.st.state u.st.state ep) pv.1
  let x7 := { (if slip then u.st.slip b.cdisc else u.st) with slipf := slip }
  let x8 := if b.cdisc = 1 then { x7 with hcu := false } else x7
  -- step 5
  let ps := c4.bitSync p ep b x8 d0 mainIn
  let py := ps.1.symbols p ep b ps.2 d0 mainIn
  -- step 6
  let found : Found := { ep := ep, slip := slip, sigzero := !mainIn, latch := latch, ver := pv.2.2 }
  let pl := py.1.lifecycle p b found py.2
  let r := pl.1.modeChange b ep ff u x6.integ x8.mode pl.2.2 pl.2.1
  -- step 7
  let c5 := pl.1.setPly p r.1
  match r.2 with
  | some o =>
    if r.1.mode = mHold then c5 else c5.writeRates p b (c5.coef (c5.filterSet r.1.mode r.1.fmode r.1)) o
  | none => c5

/-- A ply is due: enabled, within UPLY, with a new dump of MAIN (R151, R239). -/
def Core.plyDue (c : Core) (now p : Nat) : Bool :=
  let b := c.bind p
  b.en && decide (p % 128 < c.uply (p / 128)) && decide ((c.ply p).lastEp < dumpEpoch now (c.dump b.main.strand))

/-- The LOOP slot of skein `k` under the standard kernel (R144, R151): its plies in ascending number. -/
def Core.loopSlot (c : Core) (now k : Nat) : Core :=
  forBelow 128 (fun c i => if c.plyDue now (128 * k + i) then c.processPly now (128 * k + i) else c) c

/-! ### Groups 2, 3 and 4 (R149, R150, R159, R175) -/

/-- A ply's status cleared (R150), with its members' phase accumulation (R258) and its range anchor (R254). -/
def Core.clearPly (c : Core) (p : Nat) : Core :=
  ((c.setPly p plyZero).onHot fun h => { h with phases := h.phases.filter fun x => x.1 / 4 != p }).clearAnchor p

/-- The reserved bits of a binding are zero (R149, RSV). -/
def bindRsvOk (ws : List Word) : Bool :=
  decide (bits (wordOf ws 0) 30 28 = 0 ∧ wordOf ws 3 = 0) &&
    (List.range 4).all fun m => decide (bits (wordOf ws (4 + 3 * m)) 31 14 = 0)

/-- A binding's refusal code under the rules that look at the entry alone (R149); 4 where it names a strand twice. -/
def Core.bindOwn (c : Core) (p : Nat) (ws : List Word) : Nat :=
  let b := Binding.of ws
  let ss := b.members.map (·.strand)
  if ¬ bindRsvOk ws then 1
  else if !b.en then 0
  else if b.main.idx ≠ 0 ∨ b.members = [] ∨ b.main.role ≠ 0 ∨ b.main.crat ≠ 0x40000000 ∨
      (b.members.drop 1).any (·.role == 0) ∨ b.members.any (·.role == 3) then 2
  else if b.members.any (fun m => m.strand / 256 != p / 128) then 3
  else if ss.any (fun s => ss.count s != 1) then 4
  else if b.li = 0 ∨ 1000 < b.li ∨ 2 ≤ b.cdisc ∨ b.kdisc = 3 ∨ b.knom = 0 then 5
  else if !c.coefValid b.cset then 6
  else 0

/-- The strands of an enabled binding. -/
def strandsOf (ws : List Word) : List Nat :=
  let b := Binding.of ws
  if b.en then b.members.map (·.strand) else []

/-- An entry that is staged without a refusal so far conflicts with another ply: one that keeps its binding in force, or a
lower-numbered one that takes its staged binding (R149, DUP). -/
def Core.bindClash (c : Core) (chg refused : List Nat) (p : Nat) : Bool :=
  let ss := strandsOf (c.bindStage p)
  ss ≠ [] && (List.range 1024).any fun q =>
    q != p &&
      (let other :=
        if chg.contains q && !refused.contains q then (if q < p then strandsOf (c.bindStage q) else [])
        else strandsOf (c.bindForce q)
       other.any ss.contains)

/-- Refusals under DUP follow one another until none is added. -/
def Core.bindClashes (c : Core) (chg : List Nat) : Nat → List Nat → List Nat
  | 0, r => r
  | n + 1, r =>
    let more := chg.filter fun p => !r.contains p && c.bindClash chg r p
    if more = [] then r else c.bindClashes chg n (r ++ more)

/-- Group 2 applies (R149, R150). -/
def Core.applyGroup2 (c : Core) : Core :=
  let chg := c.plan.plyChg
  let own := chg.filter fun p => c.bindOwn p (c.bindStage p) != 0
  let refused := c.bindClashes chg chg.length own
  let step := fun (c : Core) (p : Nat) =>
    if refused.contains p then c
    else
      let old := c.bindForce p
      let new := c.bindStage p
      let e0 := (Binding.of old).en
      let e1 := (Binding.of new).en
      let c1 := c.setForce (plyForce p) new
      let c2 := applyIf (e1 && !e0 && decide (c.uply (p / 128) ≤ p % 128))
        (fun c => c.sliceErr (F.LPE_SLSTAT.UNPL (p / 128)) F.LPE_IRQ.PORTERR) c1
      applyIf ((e0 || e1) && (e0 != e1 || (Binding.of old).main.strand != (Binding.of new).main.strand)) (·.clearPly p) c2
  let c1 := chg.foldl step c
  let rej := chg.filter refused.contains
  let c2 := (rej.foldl (fun (q : Core × Bool) p =>
    let code := c.bindOwn p (c.bindStage p)
    (q.1.recordRefusal F.LPE_BINDERR.CODE F.LPE_BINDERR.COUNT F.LPE_BINDERR.INDEX F.LPE_LOOPIRQ.BINDERR (!q.2)
      (if code = 0 then 4 else code) p, true)) (c1, false)).1
  { c2 with plan := { c2.plan with plyChg := [] } }

/-- The bindings after the boundary, those that group 2 stages for it taken as accepted (R159). -/
def Core.bindAfter (c : Core) (with2 : Bool) (p : Nat) : List Word :=
  if with2 && c.plan.plyChg.contains p then c.bindStage p else c.bindForce p

/-- A set is some enabled ply's CSET or working set after the boundary (R159, INUSE). -/
def Core.setUsed (c : Core) (with2 : Bool) (i : Nat) : Bool :=
  (List.range 1024).any fun p =>
    let new := Binding.of (c.bindAfter with2 p)
    let old := c.bind p
    let cleared := new.en != old.en || new.main.strand != old.main.strand
    new.en && (new.cset == i || (if cleared then 0 else (c.ply p).wcset) == i)

/-- A coefficient set's refusal code (R159). -/
def Core.coefRefusal (c : Core) (with2 : Bool) (i : Nat) (ws : List Word) : Nat :=
  let k := Coef.of ws
  if bits (wordOf ws 0) 31 7 ≠ 0 ∨ wordOf ws 6 ≠ 0 ∨ wordOf ws 7 ≠ 0 then 1
  else if k.pord ≠ 0 ∧ (k.ford = 3 ∨ k.dord = 0 ∨ k.dord = 3) then 2
  else if k.pord = 0 ∧ c.setUsed with2 i then 3
  else if k.dord = 1 ∧ !k.caid then 4
  else 0

/-- FVSET names a valid set within the bandwidth limit of R196. -/
def Core.fvsetOk (c : Core) (set : Nat) : Bool :=
  let ws := c.coefWords set
  let w0p := (wordOf ws 1).toNat
  match (Coef.of ws).pord with
  | 1 => decide (w0p ≤ 0x00040000)
  | 2 => decide (w0p ≤ 0x0001E304)
  | 3 => decide (w0p ≤ 0x00014652)
  | _ => false

/-- Every full-vector ply demoted when FVSET fails (R195, R196). -/
def Core.demoteFvset (c : Core) : Core :=
  if c.fvsetOk (c.inForce F.FOC_CFG.FVSET) then c
  else forBelow 1024 (fun c p => if c.focEntry p % 4 = 2 then c.demote p 6 1 else c) c

/-- Group 3 applies (R159); `with2` says that group 2 applies at the same boundary. -/
def Core.applyGroup3 (c : Core) (with2 : Bool) : Core :=
  let r := c.plan.coefChg.foldl (fun (q : Core × Bool) i =>
    let ws := c.mem.words (coefStage i) 8
    let code := c.coefRefusal with2 i ws
    if code = 0 then (q.1.setForce (coefForce i) ws, q.2)
    else (q.1.recordRefusal F.LPE_COEFERR.CODE F.LPE_COEFERR.COUNT F.LPE_COEFERR.INDEX F.LPE_LOOPIRQ.COEFERR (!q.2) code i, true))
    (c, false)
  ({ r.1 with plan := { r.1.plan with coefChg := [] } } : Core).demoteFvset

/-- A lifecycle row's refusal code (R175). -/
def lifeRefusal (w0 w1 : Word) : Nat :=
  let row := LifeRow.of w0 w1
  if bits w0 30 20 ≠ 0 ∨ bits w0 15 15 ≠ 0 ∨ bits w1 23 22 ≠ 0 then 1
  else if 0x10 < row.cond then 2
  else if 0x8 < row.act then 3
  else if row.ntfy ∧ (row.code = 0 ∨ 0xEF < row.code) then 4
  else 0

/-- Group 4 applies (R175). -/
def Core.applyGroup4 (c : Core) : Core :=
  let r := c.plan.lifeChg.foldl (fun (q : Core × Bool) i =>
    let w0 := c.mem.word (lifeStage i)
    let w1 := c.mem.word (lifeStage i + 4)
    let code := lifeRefusal w0 w1
    if code = 0 then (q.1.setForce (lifeForce i) [w0, w1], q.2)
    else (q.1.recordRefusal F.LPE_LIFEERR.CODE F.LPE_LIFEERR.COUNT F.LPE_LIFEERR.INDEX F.LPE_LOOPIRQ.LIFEERR (!q.2) code i, true))
    (c, false)
  { r.1 with plan := { r.1.plan with lifeChg := [] } }

/-- The three sections of an image staged whole, entries beyond their counts zero, as the load commits of groups 2, 3 and 4
(R149, R159, R175). -/
def Core.stageTables (c : Core) (bindB coefB lifeB : List Byte) : Core :=
  let entry := fun (b : List Byte) (w i : Nat) =>
    (List.range w).map fun k => if i < leAt b 0 2 then b.getD (16 + w * i + k) 0 else 0
  let fill := fun (c : Core) (n w : Nat) (base : Nat → Nat) (b : List Byte) =>
    forBelow n (fun (c : Core) i => { c with mem := c.mem.writes (base i) (entry b w i) }) c
  let c1 := fill (fill (fill c 1024 64 plyStage bindB) 64 32 coefStage coefB) 64 8 lifeStage lifeB
  { c1 with plan := { c1.plan with plyChg := List.range 1024, coefChg := List.range 64, lifeChg := List.range 64 } }

/-- LPE_PLYCNT, as a read shows it. -/
def Core.plyCnt (c : Core) : Word :=
  BitVec.ofNat 32 ((belowSuch 1024 fun p => (c.bind p).en).length +
    (belowSuch 1024 fun p => lockMode (c.ply p).mode).length * 2 ^ 16)

/-- FOC_MODEACTw, as a read shows it (R193). -/
def Core.modeAct (c : Core) (w : Nat) : Word :=
  BitVec.ofNat 32 ((List.range 8).foldl (fun v i =>
    let x := c.ply (8 * w + i)
    v + (x.fmode + ofBool x.fpend * 4) * 16 ^ i) 0)

end Sys2Proof.Machine
end

