-- ==== Sys2Proof/Machine/Slots.lean ====
section
/-! DEFINITION. The plan's slots (R28 to R32): the entries of the PLAN section, when they occur, and their programs' headers
(R244). -/
namespace Sys2Proof.Machine

/-- Owner kinds (R32). -/
def kLoop : Nat := 1
def kFocus : Nat := 2
def kPrism : Nat := 3
def kRecord : Nat := 4
def kSolution : Nat := 5
def kPort : Nat := 6
def kUser : Nat := 7

/-- The slot entry at index `i` of a PLAN section body (R28, R29). -/
def slotAt (b : List Byte) (i : Nat) : SlotEntry :=
  let w := fun k => BitVec.ofNat 32 (leAt b (16 + 16 * i + 4 * k) 4)
  { start := bits (w 0) 19 0, phase := bits (w 0) 29 20, length := bits (w 1) 17 0, period := bits (w 1) 21 18,
    resource := bits (w 2) 7 0, kind := bits (w 2) 15 12, index := bits (w 2) 27 16, paramA := bits (w 3) 15 0,
    rsv := decide (bits (w 0) 31 30 ≠ 0 ∨ bits (w 1) 31 22 ≠ 0 ∨ bits (w 2) 31 28 ≠ 0 ∨ bits (w 2) 11 8 ≠ 0 ∨
      bits (w 3) 31 16 ≠ 0) }

/-- The slots of a PLAN section body. -/
def slotsOf (b : List Byte) : List SlotEntry := (List.range (leAt b 2 2)).map (slotAt b)

/-- PLAN_ID of a PLAN section body. -/
def planIdOf (b : List Byte) : Nat := leAt b 4 4

/-- The slots of the running plan. -/
def Core.slots (c : Core) : List SlotEntry := slotsOf (c.plan.img.sec .plan)

/-- A slot occurs in an epoch (R30). -/
def SlotEntry.occurs (s : SlotEntry) (epoch : Nat) : Bool := decide (planPhase epoch % periodOf s.period = s.phase)

/-- The last fc of a slot. -/
def SlotEntry.last (s : SlotEntry) : Nat := s.start + s.length - 1

/-! ### Loupe program headers (R244) -/

/-- A program as a section holds it: its 64-byte header's fields and where its bundles begin. -/
structure Program where
  kmask : Nat
  bmode : Nat
  nbun : Nat
  irqmax : Nat
  wcb : Nat
  wcbu : Nat
  hbound : Nat
  entry : Nat
  vdbell : Nat
  vflag : Nat
  hdrZero : Bool
  body : Nat
deriving DecidableEq, Repr

/-- The program whose header lies at byte `o` of a section body. -/
def programAt (b : List Byte) (o : Nat) : Program :=
  { kmask := leAt b o 1, bmode := leAt b (o + 1) 1, nbun := leAt b (o + 2) 2, irqmax := leAt b (o + 4) 1, wcb := leAt b (o + 8) 4,
    wcbu := leAt b (o + 12) 4, hbound := leAt b (o + 16) 4, entry := leAt b (o + 20) 2, vdbell := leAt b (o + 22) 2,
    vflag := leAt b (o + 24) 2, hdrZero := zeroAt b (o + 5) 3 && zeroAt b (o + 26) 38, body := o + 64 }

/-- The byte at which program `j` of a section begins, programs lying back to back from byte `o`; none where it overruns. -/
def programOfs (b : List Byte) : Nat → Nat → Option Nat
  | o, 0 => if o + 64 ≤ b.length then some o else none
  | o, j + 1 => if o + 64 ≤ b.length then programOfs b (o + 64 + 16 * leAt b (o + 2) 2) j else none

/-- Where the programs of LOUPE_PROG and FOCUS_PROG begin (R202, R244). -/
def progBase (focus : Bool) : Nat := if focus then 656 else 16

/-- Program `j` of a section of an image, when the section holds it. -/
def Image.program (i : Image) (focus : Bool) (j : Nat) : Option Program :=
  let b := i.sec (if focus then .focusProg else .loupeProg)
  if j < leAt b 0 2 then
    match programOfs b (progBase focus) j with
    | some o => if o + 64 + 16 * leAt b (o + 2) 2 ≤ b.length then some (programAt b o) else none
    | none => none
  else none

/-- UPLY of skein `k` under an image (R239). -/
def Image.uply (i : Image) (k : Nat) : Nat := min 128 (leAt (i.sec .plyBind) 0 2 - 128 * k)

/-- ⌈a / b⌉. -/
def ceilDiv (a b : Nat) : Nat := (a + b - 1) / b

/-- The cost C of one update of Focus program 0 (R179): selected states, rows, aiding. -/
def focusCost (n mmax aiden : Nat) : Nat := 2048 + ceilDiv (n * n * n) 4 + mmax * (ceilDiv (n * n) 4 + 64) + 3072 * aiden

/-- The number of set bits below `n`. -/
def popCount (n v : Nat) : Nat := (belowSuch n (bitOf v)).length

end Sys2Proof.Machine
end

