-- ==== Sys2Proof/Machine/Jobs.lean ====
section
/-! DEFINITION. The job queue (R48 to R52): tags, submissions, completion entries and cancels, with the Prism descriptor (R206)
and the result record that a Prism job leaves (R214). -/
namespace Sys2Proof.Machine

/-- Job status codes (chapter 02). -/
inductive JobStatus where
  | ok | lost | overtaken | aborted | tooLong | fault
deriving DecidableEq, Repr

def JobStatus.code : JobStatus → Nat
  | .ok => 0 | .lost => 1 | .overtaken => 2 | .aborted => 3 | .tooLong => 4 | .fault => 5

/-- A change of the plan block. -/
def Core.onPlan (c : Core) (f : PlanSt → PlanSt) : Core := { c with plan := f c.plan }

/-- The job holding a tag. -/
def Core.job (c : Core) (tag : Nat) : Option Job := c.plan.jobs.find? fun j => j.tag == tag

/-- The job holding a tag replaced. -/
def Core.setJob (c : Core) (j : Job) : Core :=
  c.onPlan fun p => { p with jobs := p.jobs.map fun k => if k.tag == j.tag then j else k }

/-- Whether a job has not yet ended. -/
def Job.live (j : Job) : Bool :=
  match j.phase with
  | .done _ => false
  | _ => true

/-- PLAN_JQ_STAT and BOB_SNAP_STAT.JOBS follow the tags held (R48, R109). -/
def Core.recountJobs (c : Core) : Core :=
  let held := c.plan.jobs.length
  let prm := (c.plan.jobs.filter fun j => j.cls == 0).length
  let snap := (c.plan.jobs.filter fun j => j.live && ((j.cursor.map (·.snap)).getD false)).length
  ((c.setFld F.PLAN_JQ_STAT.FREE (256 - held)).setFld F.PLAN_JQ_STAT.PRMUSE prm).setFld F.BOB_SNAP_STAT.JOBS snap

/-- The lowest-numbered free tag (R48). -/
def Core.freeTag (c : Core) : Option Nat := (List.range 256).find? fun t => !(c.plan.jobs.any fun j => j.tag == t)

/-- The most tags Prism jobs may hold (PLAN_JQ_PRMMAX). -/
def Core.prmMax (c : Core) : Nat := min 256 (c.fld F.PLAN_JQ_PRMMAX.PRMMAX)

/-- Why a submission is refused (R49). -/
inductive SubmitRefusal where
  | full | classLim
deriving DecidableEq, Repr

/-- The refusal a submission of a class meets, if any (R49). -/
def Core.submitRefusal (c : Core) (cls : Nat) : Option SubmitRefusal :=
  if c.freeTag.isNone then some .full
  else if cls = 0 ∧ c.prmMax ≤ (c.plan.jobs.filter fun j => j.cls == 0).length then some .classLim
  else none

/-- An accepted submission: the lowest free tag is taken and the job queued in submission order (R48). -/
def Core.submitJob (c : Core) (mk : Nat → Nat → Job) : Core :=
  match c.freeTag with
  | some t =>
    (c.onPlan fun p => { p with jobs := p.jobs ++ [mk t p.nextSeq], nextSeq := p.nextSeq + 1 }).recountJobs
  | none => c

/-! ### The Prism descriptor and its steps (R204 to R206) -/

/-- A Prism job descriptor. -/
structure PrmDesc where
  prio : Nat
  snap : Bool
  stream : Nat
  n : Nat
  flog : Nat
  b : Nat
  gsh : Nat
  rbuf : Nat
  nnc : Nat
  k : Nat
  sidx0 : Nat
  fc : Int
  khi : Int
  klo : Int
  kaid : Nat
  knom : Nat
deriving DecidableEq, Repr

/-- The descriptor that 16 words spell. -/
def PrmDesc.of (ws : List Word) : PrmDesc :=
  let f := fun k hi lo => bits (wordOf ws k) hi lo
  { prio := f 0 27 24, snap := f 0 23 23 = 1, stream := f 0 22 20, n := f 0 16 12, flog := f 0 11 10, b := f 0 9 5, gsh := f 0 4 0,
    rbuf := f 1 31 24, nnc := f 1 15 8, k := f 1 3 0, sidx0 := f 2 31 0 + 2 ^ 32 * f 3 31 0,
    fc := signedOf 32 (wordOf ws 4).toNat, khi := signedOf 16 (f 5 31 16), klo := signedOf 16 (f 5 15 0),
    kaid := (wordOf ws 6).toNat, knom := (wordOf ws 7).toNat }

/-- N, F and D of a descriptor (R203, R206, R208). -/
def PrmDesc.pts (d : PrmDesc) : Nat := 2 ^ d.n
def PrmDesc.fracs (d : PrmDesc) : Nat := 2 ^ d.flog
def PrmDesc.shifts (d : PrmDesc) : Nat := (d.khi - d.klo + 1).toNat
/-- C, the chips in a block, times 1,000. -/
def PrmDesc.chips1000 (d : PrmDesc) : Nat := d.knom * d.b
/-- Code `j`'s family and index. -/
def prmCode (ws : List Word) (j : Nat) : Nat × Nat := (bits (wordOf ws (8 + j)) 4 0, bits (wordOf ws (8 + j)) 15 5)

/-- Pages of working RAM (R208). -/
def PrmDesc.pages (d : PrmDesc) : Nat :=
  (4 * d.pts * (d.fracs + d.k) + 2 * d.pts * d.fracs * d.shifts * d.k + 4095) / 4096

/-- A step of a job (R204). -/
inductive PrismStep where
  | code (j : Nat)
  | load (b : Nat)
  | search (j f : Nat) (k : Int) (lastOfBlock : Bool)
deriving DecidableEq, Repr

/-- The search steps of a block and the steps of a job. -/
def PrmDesc.perBlock (d : PrmDesc) : Nat := d.k * d.fracs * d.shifts
def PrmDesc.steps (d : PrmDesc) : Nat := d.k + d.nnc * (1 + d.perBlock)

/-- Step `i` of a job. -/
def PrmDesc.step (d : PrmDesc) (i : Nat) : PrismStep :=
  if i < d.k then .code i
  else
    let m := i - d.k
    let r := m % (1 + d.perBlock)
    if r = 0 then .load (m / (1 + d.perBlock))
    else
      let q := r - 1
      .search (q / (d.fracs * d.shifts)) (q / d.shifts % d.fracs) (d.klo + (q % d.shifts : Nat)) (decide (r = d.perBlock))

/-! ### The result record (R214) -/

/-- The result buffer of a job. -/
def resultBuf (rbuf : Nat) : Nat := 0x34204000 + 512 * rbuf

/-- A job's code `j` in the result record. -/
def Core.prmCodeBytes (c : Core) (ws : List Word) (j : Nat) (a : PrismAcc) : List Byte :=
  let d := PrmDesc.of ws
  let cd := prmCode ws j
  let l := (c.codeLen cd.1 cd.2).getD 1
  let cells := d.fracs * d.shifts * d.pts
  let lag := a.peakI * d.chips1000 * 2 ^ 16 / (1000 * d.pts) % (l * 2 ^ 16)
  let fd : Rat := (d.fc : Rat) + ((a.peakK : Rat) + (a.peakF : Rat) / (d.fracs : Rat)) * 16000 / (d.b : Rat)
  leBytes 4 (wordOf ws (8 + j)).toNat ++ leBytes 2 a.peak ++ leBytes 2 a.second ++ leBytes 4 (a.sum * 256 / max 1 cells) ++
    leBytes 2 a.peakI ++ leBytes 2 (unsignedOf 16 a.peakK) ++ leBytes 1 a.peakF ++
    leBytes 1 (ofBool a.sat + ofBool a.nocode * 2) ++ leBytes 2 0 ++
    leBytes 8 ((l * 2 ^ 16 - lag) % (l * 2 ^ 16)) ++ leBytes 4 (unsignedOf 32 (roundRat fd))

/-- A fresh accumulator. -/
def accZero : PrismAcc :=
  { peak := 0, peakI := 0, peakF := 0, peakK := 0, second := 0, secondI := 0, sum := 0, sat := false, nocode := false }

/-- The accumulator restarted for a block; SAT and NOCODE stay (R213). -/
def PrismAcc.restart (x : PrismAcc) : PrismAcc := { accZero with sat := x.sat, nocode := x.nocode }

/-- The result record of a Prism job that ends: header, and where the status gives them the per-code results after the last completed
block, which are empty before the first. -/
def Core.prmResult (c : Core) (epoch : Nat) (j : Job) (st : JobStatus) : List Byte :=
  let d := PrmDesc.of j.desc
  let r : PrismRun := j.prism.getD ⟨d.sidx0, false, 0, [], [], [], [], [], 0, false, false⟩
  let accs := if r.lastAccs = [] then r.accs.map PrismAcc.restart else r.lastAccs
  let flags := ofBool r.zf + ofBool r.tsg * 2 + ofBool (r.lastAccs.any (·.sat)) * 4
  let codes := match st with
    | .ok | .lost | .overtaken => (List.range accs.length).flatMap fun k =>
        match accs[k]? with
        | some a => c.prmCodeBytes j.desc k a
        | none => []
    | _ => []
  leBytes 4 (r.nbdone + st.code * 2 ^ 12 + j.tag * 2 ^ 16) ++ leBytes 4 epoch ++ leBytes 8 r.sidx0 ++ leBytes 4 flags ++
    List.replicate 12 0 ++ codes

/-! ### Endings -/

/-- A Prism job's pages are free again (R208). -/
def Core.countPages (c : Core) : Core :=
  let held := (c.plan.jobs.filter fun j => j.live && ((j.prism.map (·.begun)).getD false)).map fun j => (PrmDesc.of j.desc).pages
  c.setFld F.PRM_STAT.FREEPG (512 - held.sum)

/-- A job ends: a Prism job's result record is written first, then its completion entry joins the FIFO and PLAN_IRQ.JQ is raised
(R48, R51, R214). -/
def Core.endJob (c : Core) (epoch tag : Nat) (st : JobStatus) : Core :=
  match c.job tag with
  | some j =>
    if j.live then
      let res := c.prmResult epoch j st
      let c1 := if j.cls = 0 then { c with mem := c.mem.writes (resultBuf (PrmDesc.of j.desc).rbuf) res } else c
      let c2 := applyIf (decide (j.cls = 0 ∧ st = .fault)) (·.raise F.PRM_IRQ.FAULT) c1
      let link := if j.cls = 1 ∨ j.cls = 2 then [((wordOf j.desc 0).toNat, tag, st.code)] else []
      (((c2.setJob { j with phase := .done st.code }).onPlan fun p =>
        { p with doneFifo := p.doneFifo ++ [(j.cls, st.code, tag)], xdone := p.xdone ++ link }).raise
          F.PLAN_IRQ.JQ).recountJobs.countPages
    else c
  | none => c

/-- The class that marks a completion entry that cannot be read: it is delivered with all fields zero (R334). -/
def lostClass : Nat := 16

/-- A read of PLAN_JQ_DONE: the oldest completion entry leaves and its tag is freed (R48). -/
def Core.readJqDone (c : Core) : Core × Word :=
  match c.plan.doneFifo with
  | [] => (c, 0)
  | (cls, st, tag) :: r =>
    ((c.onPlan fun p => { p with doneFifo := r, jobs := p.jobs.filter fun j => j.tag != tag }).recountJobs,
     BitVec.ofNat 32 (2 ^ 31 + if cls = lostClass then 0 else cls * 2 ^ 12 + st * 2 ^ 8 + tag))

/-- A cancel (R52): a queued job ends at once, and so does a begun Prism job between its steps; a running one stops at its step's end
or next 4 KiB boundary. A step that ends in this very cycle stands. A cancel naming a free tag has no effect. -/
def Core.cancelJob (c : Core) (t : Clock) (tag : Nat) : Core :=
  match c.job tag with
  | some j =>
    match j.phase with
    | .queued => c.endJob t.epoch tag .aborted
    | .running =>
      if j.cls = 0 ∧ (c.prm.busy.map fun b => b.tag == tag).getD false = false then c.endJob t.epoch tag .aborted
      else if j.cls = 0 ∧ (c.prm.busy.map fun b => decide (b.ends ≤ t.fc)).getD false then c
      else c.setJob { j with phase := .cancelling }
    | _ => c
  | none => c

end Sys2Proof.Machine
end

