-- ==== Sys2Proof/Machine/Streams.lean ====
section
/-! DEFINITION. Sample streams and the Bobbin ring (chapter 04): formats, training, the stream map, rings, read cursors and
the snapshot. -/
namespace Sys2Proof.Machine

/-- A change of chapter 04's state. -/
def Core.onBob (c : Core) (f : BobSt → BobSt) : Core := { c with bob := f c.bob }

/-- Stream `n`'s state, and a change of it. -/
def Core.stream (c : Core) (n : Nat) : StreamSt :=
  vecAt { taps := [0, 0, 0, 0], fifo := 0, strobeLost := false, org := 0, wrote := [] } c.bob.streams n
def Core.onStream (c : Core) (n : Nat) (f : StreamSt → StreamSt) : Core :=
  c.onBob fun b => { b with streams := modAt b.streams n f }

/-- Training states (BOB_LVDS_STATn.STATE). -/
def lvdsOff : Nat := 0
def lvdsTraining : Nat := 1
def lvdsLocked : Nat := 2
def lvdsFailed : Nat := 3

/-- The stream is enabled in force (R98). -/
def Core.streamEn (c : Core) (n : Nat) : Bool := c.inForceFlag (F.BOB_STRCFG.EN n)

/-- The TSG replaces the stream (R466). -/
def Core.tsgOn (c : Core) (n : Nat) : Bool := bitOf (c.inForce F.TSG_SUB.MASK) n

/-! ### Formats (R80, R81) -/

/-- One component's pin value expanded to 4 bits (R80). -/
def expand4 (fmt v : Nat) : Int :=
  match fmt with
  | 0 => signedOf 4 v
  | 1 => 2 * signedOf 3 (v / 2) + 1
  | _ => 4 * signedOf 2 (v / 4) + 2

/-- Q negated under INV; −8 becomes +7 (R81). -/
def negateQ (q : Int) : Int := if q = -8 then 7 else -q

/-- A pin byte, I in bits [7:4] and Q in bits [3:0], expanded under a stream's format (R80, R81). -/
def expandByte (fmt : Nat) (inv : Bool) (b : Byte) : Byte :=
  let i := expand4 fmt (b.toNat / 16)
  let q := expand4 fmt (b.toNat % 16)
  BitVec.ofNat 8 (unsignedOf 4 i * 16 + unsignedOf 4 (if inv then negateQ q else q))

/-- Run-length pin samples spread out to `n` bytes; what is not given is 0x00. -/
def spreadRuns : Nat → List (Nat × Byte) → List Byte
  | n, [] => List.replicate n 0
  | n, (k, b) :: r => List.replicate (min k n) b ++ spreadRuns (n - min k n) r

def tsgWords : List (Nat → Nat) :=
  [R.TSG_SIG_W0, R.TSG_SIG_W1, R.TSG_SIG_W2, R.TSG_SIG_W3, R.TSG_SIG_W4, R.TSG_SIG_W5, R.TSG_SIG_W6, R.TSG_SIG_W7]

def group13Regs : List Nat := R.TSG_SUB :: (List.range 16).flatMap fun i => tsgWords.map fun f => f i

/-- Sample `i` of a substituted stream (R466). -/
def Core.tsgSample (c : Core) (n i : Nat) : Byte :=
  Config.tsgByte (group13Regs.map fun a => c.force.reg a) n (c.force.reg (R.BOB_STRCFG n)) (c.force.reg (R.BOB_IF n)) (i - c.svc.tsgFrom)

/-- A stream delivers zeros (R86, R106, R345): disabled, or not substituted and its receiver off or unsupplied, training, failed or without
strobe. -/
def Core.zeroFed (c : Core) (n : Nat) : Bool :=
  !c.streamEn n || (!c.tsgOn n && (c.bob.rxOff || !bitOf (c.fld F.PWR_SUPSTAT.OK) 3 ||
    decide (c.fld (F.BOB_LVDS_STAT.STATE n) ≠ lvdsLocked) || (c.stream n).strobeLost))

/-- What stream `n` delivers for the samples from offset `a` up to `b` of an epoch, in one half-epoch (R80 to R86): zeros, the TSG's samples
where it is substituted, else the pins' samples expanded. -/
def Core.samplesOf (c : Core) (epoch a b n : Nat) : List Byte :=
  if c.zeroFed n then List.replicate (b - a) 0
  else if c.tsgOn n then (List.range (b - a)).map fun i => c.tsgSample n (tsPerEpoch * epoch + a + i)
  else
    let raw := spreadRuns (tsPerEpoch / 2) (((c.bob.pins.find? fun p => p.1 == n).map (·.2)).getD [])
    ((raw.drop (a % (tsPerEpoch / 2))).take (b - a)).map
      (expandByte (c.inForce (F.BOB_STRCFG.FMT n)) (c.inForceFlag (F.BOB_STRCFG.INV n)))

/-! ### Deskew training (R82 to R88) -/

/-- Training starts on a stream that is enabled and not already training (R88). -/
def Core.trainStream (c : Core) (n : Nat) : Core :=
  if c.streamEn n && decide (c.fld (F.BOB_LVDS_STAT.STATE n) ≠ lvdsTraining) then
    (c.setFld (F.BOB_LVDS_STAT.STATE n) lvdsTraining).raise (F.BOB_STRSTAT.ZFILL n)
  else c

/-- A write of BOB_LVDS_CTRL.TRAIN. -/
def Core.train (c : Core) (mask : Nat) : Core := forBelow 8 (fun c n => if bitOf mask n then c.trainStream n else c) c

/-- Every enabled stream is LOCKED or FAILED (R109); a substituted one, on which training has no effect, counts as settled (log entry 185). -/
def Core.allSettled (c : Core) : Bool :=
  (List.range 8).all fun n => !c.streamEn n || c.tsgOn n || decide (lvdsLocked ≤ c.fld (F.BOB_LVDS_STAT.STATE n))

/-- RESTARTING ends when every enabled stream has settled (R109). -/
def Core.settleSnapshot (c : Core) : Core :=
  if c.fld F.BOB_SNAP_STAT.STATE = 4 ∧ c.allSettled ∧ !c.bob.rxOff then c.setFld F.BOB_SNAP_STAT.STATE 0 else c

/-- A pair is STUCK below 64 transitions (R83). -/
def PairSweep.stuck (p : PairSweep) : Bool := decide (p.transitions < 64)
/-- The eye a pair counts; a STUCK pair counts 0. -/
def PairSweep.eye (p : PairSweep) : Nat := if p.stuck then 0 else p.width

/-- The centre tap of the widest stable run; of two middle taps the upper one (log entry 168). -/
def PairSweep.centre (p : PairSweep) : Nat := p.first + p.width / 2

/-- The lowest-numbered pair with a cause. -/
def firstPair (ps : List PairSweep) (bad : PairSweep → Bool) : Option Nat :=
  (List.range ps.length).find? fun k => (ps[k]?.map bad).getD false

/-- The tap sweep of a training stream ends (R82, R83): LOCKED at the eye centres, or FAILED with its code and pair. -/
def Core.trainingComplete (c : Core) (n : Nat) (ps : List PairSweep) : Core :=
  if c.fld (F.BOB_LVDS_STAT.STATE n) = lvdsTraining then
    let c1 := c.setFld (F.BOB_LVDS_STAT.EYEMIN n) ((ps.map PairSweep.eye).foldl min 128)
    let fail := fun (code pair : Nat) =>
      ((c1.setFld (F.BOB_LVDS_STAT.STATE n) lvdsFailed).setFld (F.BOB_LVDS_STAT.FCODE n) code).setFld
        (F.BOB_LVDS_STAT.FPAIR n) pair
    match firstPair ps PairSweep.stuck with
    | some k => (fail 2 k).settleSnapshot
    | none =>
      match firstPair ps (fun p => decide (p.eye < 16)) with
      | some k => (fail 3 k).settleSnapshot
      | none =>
        ((((c1.setFld (F.BOB_LVDS_STAT.STATE n) lvdsLocked).setFld (F.BOB_LVDS_STAT.FCODE n) 0).setFld
          (F.BOB_LVDS_STAT.FPAIR n) 0).onStream n fun s =>
            { s with taps := ps.map PairSweep.centre, fifo := 4, strobeLost := false }).settleSnapshot
  else c

/-- No strobe edge within 1.5 ms: training fails with NOSTB on pair 4 (R83). -/
def Core.noStrobe (c : Core) (n : Nat) : Core :=
  if c.fld (F.BOB_LVDS_STAT.STATE n) = lvdsTraining then
    (((c.setFld (F.BOB_LVDS_STAT.STATE n) lvdsFailed).setFld (F.BOB_LVDS_STAT.FCODE n) 1).setFld
      (F.BOB_LVDS_STAT.FPAIR n) 4).settleSnapshot
  else c

/-- Eight Ts without a strobe edge on an enabled stream (R86). -/
def Core.strobeLoss (c : Core) (n : Nat) : Core :=
  if c.streamEn n then
    ((c.onStream n fun s => { s with strobeLost := true }).raise (F.BOB_STRSTAT.STBLOSS n)).raise (F.BOB_STRSTAT.ZFILL n)
  else c

/-- The strobe returns: a LOCKED stream recentres its FIFO and keeps its taps (R86). -/
def Core.strobeReturn (c : Core) (n : Nat) : Core :=
  if c.fld (F.BOB_LVDS_STAT.STATE n) = lvdsLocked then c.onStream n fun s => { s with strobeLost := false, fifo := 4 }
  else c.onStream n fun s => { s with strobeLost := false }

/-- The elastic FIFO's fill leaves 1 to 7 while the strobe runs: recentred at once, SLIP set (R85). -/
def Core.fifoSlip (c : Core) (n : Nat) : Core :=
  if c.fld (F.BOB_LVDS_STAT.STATE n) = lvdsLocked ∧ (c.stream n).strobeLost = false then
    let c1 := (c.onStream n fun s => { s with fifo := 4 }).raise (F.BOB_STRSTAT.SLIP n)
    if c1.fld F.BOB_SNAP_STAT.STATE = 2 ∧ bitOf c1.bob.snapMask n then c1.onBob fun b => { b with snapSlip := true } else c1
  else c

/-- A monitor capture differs from the capture at the trained tap of a LOCKED stream (R87). -/
def Core.eyeWarn (c : Core) (n : Nat) : Core :=
  if c.fld (F.BOB_LVDS_STAT.STATE n) = lvdsLocked then c.raise (F.BOB_STRSTAT.EYEWARN n) else c

/-! ### The stream map of an image (R90, R92) -/

/-- Stream map check (R92). -/
def mapCheck (b : List Byte) : Nat :=
  let e := fun n k => leAt b (8 * n + k) 1
  let ns := List.range 8
  let codes := (List.range 2048).map fun s => leAt b (64 + s / 2) 1 / 16 ^ (s % 2) % 16
  if b.length ≠ 1088 then 1
  else if ns.any (fun n => decide (e n 0 / 16 ≠ 0 ∨ e n 1 / 4 ≠ 0 ∨ e n 2 / 4 ≠ 0 ∨ e n 3 / 128 ≠ 0 ∨ e n 0 / 2 % 4 = 3)) then 2
  else if ns.any (fun n => decide (64 < e n 3)) then 3
  else if 76 < (ns.map fun n => e n 3).sum then 4
  else if codes.any (fun k => decide (8 ≤ k ∧ k ≤ 0xE)) then 5
  else 0

/-- A stream entry's fields in an image's map; a map that fails disables every stream (R92). -/
structure MapEntry where
  en : Bool
  fmt : Nat
  inv : Bool
  ant : Nat
  band : Nat
  ring : Nat
  ifHz : Nat
deriving DecidableEq, Repr

def mapEntry (b : List Byte) (n : Nat) : MapEntry :=
  if mapCheck b = 0 then
    let e := fun k => leAt b (8 * n + k) 1
    { en := decide (e 0 % 2 = 1), fmt := e 0 / 2 % 4, inv := bitOf (e 0) 3, ant := e 1 % 4, band := e 2 % 4, ring := e 3 % 128,
      ifHz := leAt b (8 * n + 4) 4 }
  else { en := false, fmt := 0, inv := false, ant := 0, band := 0, ring := 0, ifHz := 0 }

/-- A strand's ALLOC code in an image's map (R90, R92). -/
def mapAlloc (b : List Byte) (s : Nat) : Nat := if mapCheck b = 0 then leAt b (64 + s / 2) 1 / 16 ^ (s % 2) % 16 else 0xF

/-- A strand is allocated to an enabled stream by an image's map (R91). -/
def mapAllocated (b : List Byte) (s : Nat) : Bool := decide (mapAlloc b s < 8) && (mapEntry b (mapAlloc b s)).en

/-- BOB_STRCFGn as an entry spells it. -/
def MapEntry.cfg (e : MapEntry) : Word :=
  BitVec.ofNat 32 (ofBool e.en + e.fmt * 2 + ofBool e.inv * 8 + e.ant * 16 + e.band * 64)

/-- A staged write to the map that places a reserved value (R93): FMT = 3, a reserved bit, an ALLOC code of 0x8 to 0xE. -/
def mapWriteBad (a : Nat) (w : Word) : Bool :=
  if 0x40002000 ≤ a ∧ a < 0x40002020 then decide (bits w 31 8 ≠ 0 ∨ bits w 2 1 = 3)
  else if 0x40002400 ≤ a ∧ a < 0x40002800 then
    (List.range 8).any fun i => decide (8 ≤ bits w (4 * i + 3) (4 * i) ∧ bits w (4 * i + 3) (4 * i) ≤ 0xE)
  else false

/-! ### Rings (R94 to R98) -/

/-- The 16-bit page map entry of page `p` (BOB_PGMAPw). -/
def Core.page (c : Core) (p : Nat) : Nat := bits (c.reg (R.BOB_PGMAP (p / 2))) (if p % 2 = 0 then 15 else 31) (if p % 2 = 0 then 0 else 16)
def Core.setPage (c : Core) (p v : Nat) : Core :=
  c.setReg (R.BOB_PGMAP (p / 2))
    (putBits (c.reg (R.BOB_PGMAP (p / 2))) (if p % 2 = 0 then 15 else 31) (if p % 2 = 0 then 0 else 16) v)
def pageUsed (e : Nat) : Bool := bitOf e 15
def pageSnap (e : Nat) : Bool := bitOf e 14
def pageStream (e : Nat) : Nat := e / 256 % 8
def pagePos (e : Nat) : Nat := e % 128
/-- A ring page's entry; a snapshot page's entry, whose POS is the page's index (log entry 169). -/
def ringEntry (n pos : Nat) : Nat := 2 ^ 15 + n * 256 + pos
def snapEntry (n p : Nat) : Nat := 2 ^ 15 + 2 ^ 14 + n * 256 + p

/-- The page at a position of a stream's ring. -/
def Core.ringPage (c : Core) (n pos : Nat) : Option Nat :=
  (List.range 76).find? fun p => c.page p == ringEntry n pos

/-- A page's bus address (R94). -/
def pageAddr (p : Nat) : Nat := 0x38000000 + 0x14000 * p
/-- The snapshot header's bus address. -/
def snapHeader : Nat := 0x385F0000

/-- The ring length in force. -/
def Core.ringLen (c : Core) (n : Nat) : Nat := c.fld (F.BOB_STRSTAT.RINGACT n)

/-- The status bits that follow the configuration: RUN, NORING, TSG (R98, R466). -/
def Core.refreshStream (c : Core) (n : Nat) : Core :=
  ((c.setFld (F.BOB_STRSTAT.RUN n) (ofBool (c.streamEn n))).setFld (F.BOB_STRSTAT.NORING n)
    (ofBool (c.streamEn n && decide (c.inForce (F.BOB_RING.RING n) = 0)))).setFld (F.BOB_STRSTAT.TSG n) (ofBool (c.tsgOn n && c.streamEn n))
def Core.refreshStreams (c : Core) : Core := forBelow 8 Core.refreshStream c

/-- The stream's ring restarts at this epoch: write pointer at position 0, ORG at the epoch (R95, R97). -/
def Core.restartRing (c : Core) (epoch n : Nat) : Core :=
  (c.onStream n fun s => { s with org := epoch }).setReg (R.BOB_ORG n) (BitVec.ofNat 32 epoch)

/-- Pages of stream `n` at or above a position are freed (R97, step 1). -/
def Core.freePages (c : Core) (n len : Nat) : Core :=
  let c1 := forBelow 76 (fun c p =>
    let e := c.page p
    if pageUsed e && !pageSnap e && decide (pageStream e = n ∧ len ≤ pagePos e) then c.setPage p 0 else c) c
  c1.onStream n fun s => { s with wrote := s.wrote.map fun w => if len ≤ w.pos then { w with kept := false } else w }

/-- The lowest-numbered free page given to a ring position (R97, step 2). -/
def Core.givePage (n : Nat) (c : Core) (pos : Nat) : Core :=
  match (List.range 76).find? fun p => !pageUsed (c.page p) with
  | some p => c.setPage p (ringEntry n pos)
  | none => c

/-- Each cursor whose next sample lies at a ring offset at or beyond the new length ends with LOST (R97, step 4). -/
def Core.loseCursors (c : Core) (epoch n len : Nat) : Core :=
  c.plan.jobs.foldl (fun c j =>
    match j.cursor with
    | some u =>
      if u.stream = n ∧ !u.snap ∧ j.live ∧ (u.offset.map fun o => decide (len * tsPerEpoch ≤ o)).getD false then
        (c.setJob { j with cursor := some { u with lost := true } }).endJob epoch j.tag .lost
      else c
    | none => c) c

/-- The rings take new lengths (R97). -/
def Core.changeRings (c : Core) (epoch : Nat) (len : Nat → Nat) : Core :=
  let c1 := forBelow 8 (fun c n => if len n < c.ringLen n then c.freePages n (len n) else c) c
  let c2 := forBelow 8 (fun c n =>
    if c.ringLen n < len n then (List.range (len n - c.ringLen n)).foldl (fun c k => c.givePage n (c.ringLen n + k)) c else c) c1
  forBelow 8 (fun c n =>
    if len n ≠ c.ringLen n then
      (((c.setFld (F.BOB_STRSTAT.RINGACT n) (len n)).restartRing epoch n).loseCursors epoch n (len n)).refreshStream n
    else c) c2

/-- A snapshot holds the memory: CAPTURING, HELD (R105). -/
def Core.snapHolds (c : Core) : Bool := c.fld F.BOB_SNAP_STAT.STATE = 2 || c.fld F.BOB_SNAP_STAT.STATE = 3

/-- Group 7 applies (R96, R97); during a snapshot only the committed lengths change (R105). -/
def Core.applyGroup7 (c : Core) (epoch : Nat) : Core :=
  let len := fun n => c.fld (F.BOB_RING.RING n)
  if (List.range 8).any (fun n => decide (64 < len n)) ∨ 76 < ((List.range 8).map len).sum then
    (forBelow 8 (fun c n => c.setReg (R.BOB_RING n) (c.force.reg (R.BOB_RING n))) c).raise F.BOB_CFGERR.REJ
  else
    let c1 := forBelow 8 (fun c n => { c with force := c.force.setReg (R.BOB_RING n) (c.reg (R.BOB_RING n)) }) c
    (if c1.snapHolds then c1 else c1.changeRings epoch len).refreshStreams

/-- EN changed from its old value: training starts, or the receivers power down (R93). The ring keeps its ORG (log entry 170). -/
def Core.streamEnChange (old : Nat → Bool) (c : Core) (n : Nat) : Core :=
  if c.streamEn n && !old n then c.trainStream n
  else if !c.streamEn n && old n then c.setFld (F.BOB_LVDS_STAT.STATE n) lvdsOff
  else c

/-- Group 8 applies: formats, map and allocation (R93). -/
def Core.applyGroup8 (c : Core) : Core :=
  let old := c.streamEn
  let copy := fun (c : Core) (a : Nat) => ({ c with force := c.force.setReg a (c.reg a) } : Core)
  let c1 := forBelow 8 (fun c n => copy (copy c (R.BOB_STRCFG n)) (R.BOB_IF n)) c
  let c2 := forBelow 256 (fun c w => copy c (R.BOB_ALLOC w)) c1
  (forBelow 8 (Core.streamEnChange old) c2).refreshStreams.settleSnapshot

/-- An epoch opens on a running ring: its position is recorded (R95, R102). -/
def Core.openEpoch (c : Core) (epoch n : Nat) : Core :=
  let len := c.ringLen n
  if c.streamEn n && decide (0 < len) && !c.snapHolds then
    let pos := (epoch - (c.stream n).org) % len
    c.onStream n fun s => { s with wrote := ({ epoch := epoch, pos := pos, kept := true, zf := [], tsg := c.tsgOn n } :: s.wrote).take 160 }
  else c

/-- Samples of a stream recorded at an offset of the epoch: to its ring's page, or to its snapshot page while capturing (R95, R105, R107). -/
def Core.recordSamples (c : Core) (epoch a : Nat) (bs : List Byte) (zf : Bool) (n : Nat) : Core :=
  let put := fun (p : Nat) => ({ c with mem := c.mem.writes (pageAddr p + a) bs } : Core)
  if !c.streamEn n then c
  else if c.fld F.BOB_SNAP_STAT.STATE = 2 then
    if bitOf c.bob.snapMask n then
      let rank := (belowSuch n fun m => bitOf c.bob.snapMask m).length
      let k := epoch - c.bob.snapStart
      let first := tsPerEpoch * epoch + a
      let c1 := if k < c.bob.snapNep then put (rank * c.bob.snapNep + k) else c
      let c2 := applyIf zf (fun (c : Core) => (c.setFld F.BOB_SNAP_STAT.ZFILL 1).onBob fun b =>
        { b with snapZf := b.snapZf ++ [(n, first, first + bs.length)] }) c1
      if c.tsgOn n then c2.onBob fun b => { b with snapTsgs := (b.snapTsgs.filter (· != (n, epoch))) ++ [(n, epoch)] } else c2
    else c
  else if c.snapHolds || decide (c.ringLen n = 0) then c
  else
    let mark := fun (c : Core) => c.onStream n fun s => { s with wrote := s.wrote.map fun w =>
      if w.epoch = epoch ∧ zf then { w with zf := w.zf ++ [(a, a + bs.length)] } else w }
    match c.ringPage n ((epoch - (c.stream n).org) % c.ringLen n) with
    | some p => mark (put p)
    | none => c

/-- The samples of stream `n` up to offset `b` of the epoch: delivered to the fabric and recorded, with ZFILL where zeros are delivered on an
enabled stream (R86, R95). -/
def Core.deliverStream (epoch a b : Nat) (c : Core) (n : Nat) : Core :=
  let bs := c.samplesOf epoch a b n
  let zf := c.zeroFed n
  let c1 := applyIf (c.streamEn n && zf) (·.raise (F.BOB_STRSTAT.ZFILL n)) (c.recordSamples epoch a bs zf n)
  c1.onBob fun s => { s with
    half := modAt s.half n (· ++ bs), halfZf := if zf then (s.halfZf.filter (· != n)) ++ [n] else s.halfZf }

/-- The samples before offset `b` of the epoch have passed (R84, R86, R95). -/
def Core.deliver (c : Core) (epoch b : Nat) : Core :=
  if c.bob.taken < b then
    (forBelow 8 (Core.deliverStream epoch c.bob.taken b) c).onBob fun s => { s with taken := b }
  else c

/-- What each stream has delivered in the half-epoch that runs. -/
def Core.halfFeed (c : Core) (n : Nat) : StreamFeed :=
  { bytes := vecAt [] c.bob.half n, zf := c.bob.halfZf.contains n, tsg := c.tsgOn n && c.streamEn n }

/-- The next half-epoch begins, with its samples at the pins and its first offset in the epoch. -/
def Core.nextHalf (c : Core) (pins : List (Nat × List (Nat × Byte))) (from' : Nat) : Core :=
  c.onBob fun b => { b with pins := pins, taken := from', half := Vector.replicate 8 [], halfZf := [] }

/-! ### Read cursors (R101 to R103) -/

/-- The ring offset at which a sample was written, and whether its page still belongs to the position. -/
def StreamSt.offsetOf (s : StreamSt) (i : Nat) : Option (Nat × Bool) :=
  (s.wrote.find? fun w => w.epoch == i / tsPerEpoch).map fun w => (w.pos * tsPerEpoch + i % tsPerEpoch, w.kept)

/-- A written sample is held until the write pointer next writes its offset (R102). -/
def StreamSt.holds (s : StreamSt) (sidx i : Nat) : Bool :=
  match s.wrote.find? fun w => w.epoch == i / tsPerEpoch with
  | some w =>
    w.kept && !(s.wrote.any fun v => v.pos == w.pos && decide (w.epoch < v.epoch) &&
      decide (v.epoch * tsPerEpoch + i % tsPerEpoch ≤ sidx))
  | none => false

/-- What the rule of R102 finds for a cursor's next sample. -/
inductive CursorAns where
  | wait | lost | overtaken | deliver
deriving DecidableEq, Repr

/-- The rule of R102. A disabled stream writes nothing, so its guard has no write offset. -/
def Core.cursorRule (c : Core) (t : Clock) (u : Cursor) : CursorAns :=
  if u.snap then .deliver
  else
    let s := c.stream u.stream
    let len := c.ringLen u.stream * tsPerEpoch
    if t.sidx ≤ u.next then .wait
    else
      match s.offsetOf u.next with
      | none => .overtaken
      | some (o, _) =>
        if len ≤ o then .lost
        else if !s.holds t.sidx u.next then .overtaken
        else
          let w := (t.sidx - s.org * tsPerEpoch) % len
          if c.streamEn u.stream ∧ (o + len - w) % len < 256 then .overtaken else .deliver

/-- A cursor opened by a submission (R101, R102): OVERTAKEN at once when its first sample was overwritten or never held. -/
def Core.openCursor (c : Core) (t : Clock) (stream next : Nat) (snap : Bool) : Cursor × Option JobStatus :=
  let u : Cursor := { stream := stream, next := next, offset := none, snap := snap, waiting := false, lost := false, ovtk := false }
  if snap then
    if c.fld F.BOB_SNAP_STAT.STATE = 3 then (u, none) else ({ u with lost := true }, some .lost)
  else
    match c.cursorRule t u with
    | .wait => ({ u with waiting := true }, none)
    | .deliver => ({ u with offset := ((c.stream stream).offsetOf next).map (·.1) }, none)
    | _ => ({ u with ovtk := true }, some .overtaken)

/-- A job's cursor moved on to its next sample `i`, or its job ended, under R102. -/
def Core.advanceCursor (c : Core) (t : Clock) (tag i : Nat) : Core :=
  match c.job tag with
  | some j =>
    match j.cursor with
    | some u =>
      let v : Cursor := { u with next := i, offset := ((c.stream u.stream).offsetOf i).map (·.1), waiting := false }
      match c.cursorRule t v with
      | .deliver => c.setJob { j with cursor := some v }
      | .wait => c.setJob { j with cursor := some { v with waiting := true } }
      | .lost => (c.setJob { j with cursor := some { v with lost := true } }).endJob t.epoch tag .lost
      | .overtaken => (c.setJob { j with cursor := some { v with ovtk := true } }).endJob t.epoch tag .overtaken
    | none => c
  | none => c

/-- A waiting cursor's sample is now written: it goes on from it (R102). -/
def Core.cursorResume (c : Core) (t : Clock) (tag : Nat) : Core :=
  match c.job tag with
  | some j =>
    match j.cursor with
    | some u => if j.live && u.waiting && decide (u.next < t.sidx) then c.advanceCursor t tag u.next else c
    | none => c
  | none => c

/-- A cursor's next sample stops being held: its job ends with OVERTAKEN in that Ts (R102). -/
def Core.cursorOvertaken (c : Core) (t : Clock) (tag : Nat) : Core :=
  match c.job tag with
  | some j =>
    match j.cursor with
    | some u =>
      if j.live && c.cursorRule t u == .overtaken then
        (c.setJob { j with cursor := some { u with ovtk := true } }).endJob t.epoch tag .overtaken
      else c
    | none => c
  | none => c

/-- Every ring cursor whose next sample, written before, is no longer held ends its job with OVERTAKEN, whether or not it is being served
(R102); a LOAD in progress reads on past its cursor's first sample (R210), so the job `busy` is judged at its step's end. -/
def Core.dropOvertaken (c : Core) (t : Clock) (busy : Option Nat) : Core :=
  c.plan.jobs.foldl (fun (c : Core) j =>
    match j.cursor with
    | some u =>
      if j.live && !u.snap && u.offset.isSome && busy != some j.tag && !(c.stream u.stream).holds t.sidx u.next then
        (c.setJob { j with cursor := some { u with ovtk := true } }).endJob t.epoch j.tag .overtaken
      else c
    | none => c) c

/-- BOB_CURSTAT and the cursor's position for the tag in BOB_CURSEL (R103). -/
def Core.curStat (c : Core) : Word :=
  match (c.job (c.fld F.BOB_CURSEL.TAG)).bind (·.cursor) with
  | some u => BitVec.ofNat 32 (u.stream * 256 + ofBool u.ovtk * 8 + ofBool u.lost * 4 + ofBool u.waiting * 2 + 1)
  | none => 0
def Core.curPos (c : Core) : Nat :=
  (((c.job (c.fld F.BOB_CURSEL.TAG)).bind (·.cursor)).map (·.next)).getD 0

/-! ### The snapshot (R104 to R109) -/

/-- The reason an ARM is refused (BOB_SNAP_STAT.RCODE), 0 when it is accepted. -/
def Core.snapArmCode (c : Core) (t : Clock) : Nat :=
  let mask := c.fld F.BOB_SNAP_CFG.MASK
  let nep := c.fld F.BOB_SNAP_CFG.NEP
  let start := c.fld F.BOB_SNAP_START_LO.START + 2 ^ 32 * c.fld F.BOB_SNAP_START_HI.START
  if c.fld F.BOB_SNAP_STAT.STATE ≠ 0 then 5
  else if mask = 0 ∨ nep = 0 ∨ 76 < nep * (belowSuch 8 (bitOf mask)).length then 1
  else if (belowSuch 8 (bitOf mask)).any (fun n => !c.streamEn n) then 2
  else if start ≠ 0 ∧ start ≤ t.epoch then 3
  else 0

/-- A write of BOB_SNAP_CTRL.ARM (R105): MASK, NEP and FEOFF are taken with it (log entry 171). -/
def Core.snapArm (c : Core) (t : Clock) : Core :=
  let code := c.snapArmCode t
  let start := c.fld F.BOB_SNAP_START_LO.START + 2 ^ 32 * c.fld F.BOB_SNAP_START_HI.START
  if code = 0 then
    (c.setFld F.BOB_SNAP_STAT.STATE 1).onBob fun b =>
      { b with snapStart := if start = 0 then t.nextBoundary64 else start, snapMask := c.fld F.BOB_SNAP_CFG.MASK,
               snapNep := c.fld F.BOB_SNAP_CFG.NEP, snapFeoff := c.flag F.BOB_SNAP_CFG.FEOFF }
  else (c.setFld F.BOB_SNAP_STAT.RCODE code).raise F.BOB_SNAP_STAT.REFUSED

/-- A write of BOB_SNAP_CTRL.DISARM: it has effect only 64 fc or more before the start boundary (R109). -/
def Core.snapDisarm (c : Core) (t : Clock) : Core :=
  if c.fld F.BOB_SNAP_STAT.STATE = 1 ∧ t.nextBoundary64 ≤ c.bob.snapStart then c.setFld F.BOB_SNAP_STAT.STATE 0 else c

/-- The snapshot header's bytes (R107). -/
def Core.snapHeaderBytes (c : Core) (flags temp wtick gtime : Nat) : List Byte :=
  let entry := fun n =>
    let w := c.force.reg (R.BOB_STRCFG n)
    leBytes 4 (bits w 3 0 + bits w 5 4 * 2 ^ 8 + bits w 7 6 * 2 ^ 16 + c.inForce (F.BOB_RING.RING n) * 2 ^ 24) ++
      leBytes 4 (c.force.reg (R.BOB_IF n)).toNat
  leBytes 8 (tsPerEpoch * c.bob.snapStart) ++ leBytes 4 c.bob.snapNep ++ leBytes 1 c.bob.snapMask ++ leBytes 1 flags ++
    leBytes 2 temp ++ leBytes 6 wtick ++ leBytes 2 0 ++ leBytes 8 gtime ++ leBytes 4 (c.fld F.FLY_UNC.UNC) ++
    List.replicate 28 0 ++ (List.range 8).flatMap entry

/-- The capture starts at its boundary, after the staging groups (R105): every page passes to the snapshot, every ring stops and
every cursor on a stream ends with LOST. -/
def Core.captureStart (c : Core) (epoch temp wtick gtime : Nat) : Core :=
  if c.fld F.BOB_SNAP_STAT.STATE = 1 ∧ c.bob.snapStart = epoch then
    let mask := c.bob.snapMask
    let nep := c.bob.snapNep
    let c1 := c.plan.jobs.foldl (fun c j =>
      match j.cursor with
      | some u =>
        if j.live && !u.snap then (c.setJob { j with cursor := some { u with lost := true } }).endJob epoch j.tag .lost else c
      | none => c) c
    let c2 := forBelow 76 (fun c p => c.setPage p (snapEntry 0 p)) c1
    let streams := belowSuch 8 (bitOf mask)
    let c3 := forBelow streams.length (fun c r =>
      forBelow nep (fun c k => c.setPage (r * nep + k) (snapEntry (streams.getD r 0) (r * nep + k))) c) c2
    let c4 := forBelow 8 (fun c n =>
      (c.setFld (F.BOB_STRSTAT.RINGACT n) 0).onStream n fun s => { s with wrote := s.wrote.map fun w => { w with kept := false } }) c3
    let c5 := ((c4.setFld F.BOB_SNAP_STAT.STATE 2).setFld F.BOB_SNAP_STAT.ZFILL 0).onBob fun b =>
      { b with snapSlip := false, snapZf := [], snapTsgs := [] }
    { c5 with mem := c5.mem.writes snapHeader (c5.snapHeaderBytes 0 temp wtick gtime) }
  else c

/-- The front ends and SCLK_OUT driven on or off, with the LVDS receivers (R79, R106, R109). -/
def Core.frontEnds (c : Core) (on : Bool) : Core :=
  c.onBob fun b => { b with fePwr := List.replicate 4 on, sclk := on, rxOff := !on }

/-- The capture ends NEP epochs after its start (R106): STATE HELD, the header's FLAGS complete, and with FEOFF the front ends,
SCLK_OUT and the receivers off. -/
def Core.captureEnd (c : Core) (t : Clock) : Core :=
  if c.fld F.BOB_SNAP_STAT.STATE = 2 ∧ c.bob.snapStart + c.bob.snapNep ≤ t.epoch then
    let flags := 1 + ofBool (c.flag F.BOB_SNAP_STAT.ZFILL) * 2 + ofBool c.bob.snapSlip * 4 + ofBool (!c.bob.snapTsgs.isEmpty) * 8
    let c1 := c.setFld F.BOB_SNAP_STAT.STATE 3
    let c2 : Core := { c1 with mem := c1.mem.write (snapHeader + 13) (BitVec.ofNat 8 flags) }
    if c.bob.snapFeoff then c2.frontEnds false else c2
  else c

/-- A write of BOB_SNAP_CTRL.RELEASE (R109). -/
def Core.snapRelease (c : Core) : Core :=
  if c.fld F.BOB_SNAP_STAT.STATE = 3 ∧ c.fld F.BOB_SNAP_STAT.JOBS = 0 then c.onBob fun b => { b with releasePending := true }
  else (c.setFld F.BOB_SNAP_STAT.RCODE 4).raise F.BOB_SNAP_STAT.REFUSED

/-- The release at its boundary (R109): every ring restarts empty with its committed length; with FEOFF the front ends come
back and FEWAIT runs before training. -/
def Core.releaseBoundary (c : Core) (epoch : Nat) : Core :=
  if c.bob.releasePending then
    let c1 := (forBelow 76 (fun c p => c.setPage p 0) c).onBob fun b => { b with releasePending := false }
    let c2 := c1.changeRings epoch fun n => c1.inForce (F.BOB_RING.RING n)
    let c3 := forBelow 8 (fun c n => c.restartRing epoch n) (c2.setFld F.BOB_SNAP_STAT.STATE 4)
    let c4 := if c.bob.snapFeoff then c3.onBob fun b => { b with
        fePwr := List.replicate 4 true, sclk := true, feAt := some (epoch + c.fld F.BOB_SNAP_CFG.FEWAIT) } else c3
    c4.refreshStreams.settleSnapshot
  else c

/-- FEWAIT has passed since the release boundary: the receivers are powered and every enabled stream trains (R109). -/
def Core.fewaitExpiry (c : Core) (t : Clock) : Core :=
  match c.bob.feAt with
  | some e =>
    if e ≤ t.epoch ∧ c.fld F.BOB_SNAP_STAT.STATE = 4 then
      ((c.onBob fun b => { b with rxOff := false, feAt := none }).train 0xFF).settleSnapshot
    else c
  | none => c

end Sys2Proof.Machine
end

