-- ==== Sys2Proof/Machine/Measure.lean ====
section
/-! DEFINITION. Measurements, time scales and outputs (chapter 10): receiver time, range anchors and pseudoranges, the carrier
phase, RECORD occurrences, group 9, the time-scale table and heading products. -/
namespace Sys2Proof.Machine

/-- Windows of chapter 10. -/
def rangeConst : Nat := 0x3102C000
def headProduct (b : Nat) : Nat := 0x3102D000 + 32 * b
def timeScale (k : Nat) : Nat := 0x3102E000 + 16 * k
def outEntry (i : Nat) : Nat := 0x310D0000 + 40 * (i % 4096)

/-- The speed of light in m/s (R184). -/
def lightSpeed : Rat := 299792458

/-- A change of the output state. -/
def Core.onOut (c : Core) (f : OutSt → OutSt) : Core := { c with out := f c.out }

/-- RXBASE in force and whether it is valid (R252). -/
def Core.rxBase (c : Core) : Nat := c.inForce F.PLAN_RXBASE_LO.RXBASE_LO + 2 ^ 32 * c.inForce F.PLAN_RXBASE_HI.RXBASE_HI
def Core.rxValid (c : Core) : Bool := c.inForceFlag F.PLAN_RXBASE_HI.RXBV

/-- Receiver time at a boundary, in ms (R252). -/
def Core.rxt (c : Core) (epoch : Nat) : Nat := c.rxBase + epoch

/-! ### Pseudorange (R254, R255) -/

/-- The nominal offset of a system's time to GPST, in s (R255). -/
def Core.nominalOffset (c : Core) (sys : Nat) : Rat :=
  if sys = 3 then 14
  else if sys = 1 then (signedOf 8 (c.inForce F.PLAN_OUTCFG.LS) : Rat) - 10800
  else 0

/-- The anchor's age in epochs at a boundary. -/
def Core.anchorAge (c : Core) (epoch p : Nat) : Int :=
  signedOf 32 (epoch % 2 ^ 32 + 2 ^ 32 - (c.mem.word (rangeAnchor p + 4)).toNat)

/-- A ply's anchor can be used at a boundary (R255). -/
def Core.anchorOk (c : Core) (epoch p : Nat) : Bool :=
  bits (c.mem.word (rangeAnchor p)) 31 31 = 1 && decide (c.anchorAge epoch p ≤ 10000)

/-- ρ of R255 for a strand of a ply at a boundary. -/
def Core.pseudorange (c : Core) (epoch p s : Nat) : Rat :=
  let d := c.live s
  let knom : Rat := ((c.bind p).knom : Nat)
  let per := c.codePeriod d
  let pm : Rat := ((d.cpmod * per : Nat) : Rat) / knom
  let tau : Rat := (((d.cpc * per + d.ki : Nat) : Rat) + scaled d.kf 48) / knom
  let txa := c.mem.readLe (rangeAnchor p + 8) 8
  let that : Rat := scaled txa 32 + (c.anchorAge epoch p : Rat) / 1000
  let t := tau + pm * (roundRat ((that - tau) / pm) : Rat)
  let tg := t + c.nominalOffset (bits (c.mem.word (rangeAnchor p)) 30 28)
  let dt := ((c.rxt epoch % 604800000 : Nat) : Rat) / 1000 - tg
  lightSpeed * (dt - 604800 * (((dt + 302400) / 604800).floor : Rat))

/-- The pseudorange is valid (R255). -/
def Core.rhoValid (c : Core) (epoch p : Nat) : Bool := c.anchorOk epoch p && c.rxValid

/-! ### Carrier phase (R258) -/

/-- A member's phase accumulation. -/
def phaseZero : PhaseAcc :=
  { run := false, e0 := 0, k := 0, cyc := 0, cyc0 := 0, cp0 := 0, rx0 := 0, plyEra := 0, strandEra := 0, slipsSeen := 0 }
def Core.phase (c : Core) (p m : Nat) : PhaseAcc := mapGet (fun _ => phaseZero) c.hot.phases (4 * p + m)
def Core.setPhase (c : Core) (p m : Nat) (x : PhaseAcc) : Core :=
  c.onHot fun h => { h with phases := mapPut (fun _ => phaseZero) h.phases (4 * p + m) x }

/-- The carrier frequency of a member, in Hz (R258). -/
def carrierHz (b : Binding) (m : Member) : Rat :=
  (b.knom : Rat) * 4294967296 / (b.kaid : Rat) * scaled m.crat 30

/-- The cycle counter of a strand extended from its last extension (R258). -/
def extendCyc (last : Int) (cyc : Nat) : Int := last + signedOf 32 (unsignedOf 32 ((cyc : Int) - last))

/-- The phase accumulation at a record: it starts again when one of R258's events has happened since it began. -/
def Core.phaseAt (c : Core) (epoch p : Nat) (b : Binding) (m : Member) : PhaseAcc × Bool :=
  let x := c.phase p m.idx
  let y := c.ply p
  let era := (c.strand m.strand).cfgEra
  let cyc := (c.hot.mem.word (cycAddr m.strand)).toNat
  if !lockMode y.mode then ({ x with run := false }, false)
  else if x.run && x.plyEra == y.phaseEra && x.strandEra == era then ({ x with cyc := extendCyc x.cyc cyc }, false)
  else
    let hcp : Rat := if y.hcp then 1 / 2 else 0
    let target : Rat :=
      if c.rhoValid epoch p then c.pseudorange epoch p b.main.strand * carrierHz b m / lightSpeed
      else Config.openRatio OpenSite.anchor.num p epoch
    ({ x with run := true, e0 := epoch, k := roundRat (target - hcp), cyc := signedOf 32 cyc, cyc0 := signedOf 32 cyc,
              cp0 := (c.live m.strand).cp, rx0 := c.out.rxSum, plyEra := y.phaseEra, strandEra := era }, true)

/-- PH of R258, in 1/1,024 cycle. -/
def Core.phaseValue (c : Core) (epoch p : Nat) (b : Binding) (m : Member) (x : PhaseAcc) : Int :=
  let d := c.live m.strand
  let hcp : Rat := if (c.ply p).hcp then 1 / 2 else 0
  let dA : Rat := (x.cyc - x.cyc0 : Int) + scaled ((d.cp : Int) - x.cp0) 48
  let nom : Rat := ((c.ifHz d.stream + m.cbofs : Int) : Rat) * ((epoch - x.e0 : Nat) : Rat) / 1000
  roundRat (((x.k : Rat) + hcp - (dA - nom) + carrierHz b m * ((c.out.rxSum - x.rx0 : Int) : Rat) / 1000) * 1024)

/-! ### Records (R257, R258) -/

/-- An unsigned field that saturates at 255 where a rational exceeds it. -/
def enc8 (q : Rat) : Nat := (clampInt 0 255 (roundRat q)).toNat

/-- The spacing d of R155 for the tap code of a ply, in sixteenths of a chip. -/
def Core.spacing16 (c : Core) (p : Nat) : Nat :=
  let b := c.bind p
  let d := c.live b.main.strand
  2 * (if b.kdisc = 2 ∨ (c.ply p).mode = mFllw then d.dvel else d.del)

/-- f_D of MAIN for the CR in force (R258). -/
def Core.mainDoppler (c : Core) (p : Nat) : Rat :=
  let b := c.bind p
  c.dopplerOf b (c.live b.main.strand).cr

/-- The ten words of a member's record, with the phase state it leaves (R257, R258). -/
def Core.record (c : Core) (epoch p : Nat) (m : Member) : List Word × PhaseAcc :=
  let b := c.bind p
  let y := c.ply p
  let d0 := c.dump b.main.strand
  let st := (c.live m.strand).stream
  let pa := c.phaseAt epoch p b m
  let x := pa.1
  let isMain := decide (m.role = 0)
  let rho := c.pseudorange epoch p b.main.strand
  let prv := isMain && decide (y.mode = mFll ∨ lockMode y.mode = true) && c.rhoValid epoch p
  let slip := decide (x.slipsSeen < y.slipTotal)
  let f := fun (v : Bool) k => ofBool v * 2 ^ k
  let flags := f prv 0 + f (lockMode y.mode && x.run) 1 + f (decide (y.mode ≠ mHold)) 2 + f y.cn0v 3 + f y.hcu 4 + f y.hcp 5 +
    f slip 6 + f pa.2 7 + f (decide (c.out.clkj = some epoch)) 8 +
    f (decide (wordOf d0 3 = BitVec.ofNat 32 epoch) && dumpFlag d0 12) 10 + f (c.tsgOn st) 11 + y.fmode * 2 ^ 12 +
    f (decide (y.mode = mCoast)) 14
  let t : Rat := ((c.live b.main.strand).intl : Rat) / 1000
  let ct := y.cn0Lin * t
  let lam := lightSpeed / (b.knom : Rat)
  let prsd := if y.cn0v then enc8 (lam * Config.sqrtRat ((c.spacing16 p : Rat) / 16 / (4 * ct)) * 20) else 255
  let phsd := if y.cn0v then enc8 (Config.sqrtRat (1 / (2 * ct)) / (2 * Config.pi) * 1024) else 255
  let pr := unsignedOf 64 (roundRat (rho * 65536))
  let ph := unsignedOf 64 (c.phaseValue epoch p b m x)
  let ant := bits (c.force.reg (R.BOB_STRCFG st)) 5 4
  ([BitVec.ofNat 32 (m.idx * 2 ^ 12 + ant * 2 ^ 10 + p), BitVec.ofNat 32 epoch, BitVec.ofNat 32 pr, BitVec.ofNat 32 (pr / 2 ^ 32),
    BitVec.ofNat 32 ph, BitVec.ofNat 32 (ph / 2 ^ 32), enc32 (scaled m.crat 30 * c.mainDoppler p) 8,
    BitVec.ofNat 32 (y.cn0Enc * 2 ^ 16 + flags), BitVec.ofNat 32 y.lockt,
    BitVec.ofNat 32 (y.slips * 2 ^ 16 + prsd * 2 ^ 8 + phsd)],
   { x with slipsSeen := y.slipTotal })

/-- The members of a group that give a record, in the port's order (R257); none of an island that is off or retained (R353). -/
def Core.recordMembers (c : Core) (g : Nat) : List (Nat × Member) :=
  let fol := c.inForceFlag (F.PLAN_OGCFG.FOLEN g)
  (List.range 1024).flatMap fun p =>
    let b := c.bind p
    if b.en && b.ogrp == g && decide ((c.ply p).mode ≠ mHold) && c.islandOn (p / 128) then
      (b.members.filter fun m => m.role == 0 || (m.role == 2 && fol)).map fun m => (p, m)
    else []

/-- A group is due at a boundary (R259). -/
def Core.groupDue (c : Core) (g epoch : Nat) : Bool :=
  c.inForceFlag (F.PLAN_OGCFG.EN g) && !bitOf (c.fld F.PLAN_OUTERR.SLOTLESS) g &&
    decide (planPhase epoch % periodOf (c.inForce (F.PLAN_OGCFG.PERIOD g)) = c.inForce (F.PLAN_OGCFG.PHASE g))

/-- The header entry of an occurrence (R260). -/
def Core.outHeader (c : Core) (g epoch count : Nat) : List Word :=
  let gap := vecAt false c.out.gap g
  let rxt := c.rxt epoch
  [BitVec.ofNat 32 (count * 2 ^ 16 + 2 ^ 14 + ofBool gap * 2 ^ 4 + g), BitVec.ofNat 32 epoch,
   BitVec.ofNat 32 (vecAt 0 c.out.occ g + 1), BitVec.ofNat 32 (ofBool c.rxValid * 2 + ofBool (decide (c.out.clkj = some epoch))),
   BitVec.ofNat 32 rxt, BitVec.ofNat 32 (rxt / 2 ^ 32 % 2 ^ 16), 0, 0, 0, 0]

/-- Free entries of the output buffer (R260). -/
def Core.outFree (c : Core) : Nat := (c.fld F.PLAN_ORD.ORD + 4096 - c.fld F.PLAN_OWR.OWR - 1) % 4096

/-- Entries written one after another from the write index. -/
def Core.putEntries (c : Core) : List (List Word) → Core
  | [] => c
  | e :: r =>
    let w := c.fld F.PLAN_OWR.OWR
    Core.putEntries (({ c with mem := c.mem.putWords (outEntry w) e } : Core).setFld F.PLAN_OWR.OWR (w + 1)) r

/-- A record marked REPLAY (R327). -/
def markReplay (e : List Word) : List Word := e.set 7 (putBits (wordOf e 7) 9 9 1)

/-- A group still has to give its occurrence for a boundary. -/
def Core.groupWaits (c : Core) (g epoch : Nat) : Bool := c.groupDue g epoch && vecAt none c.out.last g != some epoch

/-- The members that an occurrence of group `g` records with PARAM_A = `most`, and how many PARAM_A cuts (R257). -/
def Core.recordCut (c : Core) (g most : Nat) : List (Nat × Member) × Nat :=
  let all := c.recordMembers g
  (all.take most, all.length - most)

/-- The records of members at a boundary; their phase accumulations go on (R258). -/
def Core.takeRecords (c : Core) (epoch : Nat) (ms : List (Nat × Member)) : Core × List (List Word) :=
  let rs := ms.map fun pm => (pm, c.record epoch pm.1 pm.2)
  (rs.foldl (fun c r => c.setPhase r.1.1 r.1.2.idx r.2.2) c, rs.map (·.2.1))

/-- An occurrence that finds too little room is dropped whole (R260). -/
def Core.dropOcc (c : Core) (epoch g cut : Nat) : Core :=
  ((c.countSat F.PLAN_OSTAT.TRUNC cut).countSat F.PLAN_OSTAT.ODROP 1).onOut fun o =>
    { o with gap := putAt o.gap g true, last := putAt o.last g (some epoch) }

/-- The entries of an occurrence written, PLAN_OWR past them (R260, R321); `cut` records were cut by PARAM_A. -/
def Core.writeOcc (c : Core) (epoch g cut : Nat) (es : List (List Word)) : Core :=
  ((c.countSat F.PLAN_OSTAT.TRUNC cut).putEntries es).onOut fun o =>
    { o with gap := putAt o.gap g false, last := putAt o.last g (some epoch), occ := putAt o.occ g (vecAt 0 o.occ g + 1) }

/-- An occurrence of RECORD slot `i` begins (R251, R257): its header leaves the port at once, the rest on the way to
`Core.recordEnd`. -/
def Core.recordSlot (c : Core) (i : Nat) (s : SlotEntry) (epoch : Nat) : Core :=
  let g := s.index
  if !c.groupWaits g epoch then c
  else
    let ms := c.recordCut g s.paramA
    if c.suppressed then c.onMir fun m => m.missed i epoch
    else if c.outFree < ms.1.length + 1 then c.dropOcc epoch g ms.2
    else
      let r := c.takeRecords epoch ms.1
      let bad := ((c.mir.badOut.find? fun b => b.1 == 9).map (·.2)).filter fun e => decide (0 < e ∧ e ≤ ms.1.length)
      let q := r.1.emits 9
      if q.2 then
        let rec' : Recording := ⟨i, epoch, s.start, g, c.outHeader g epoch ms.1.length :: r.2, ms.2, bad⟩
        { q.1 with plan := { q.1.plan with recs := q.1.plan.recs ++ [rec'] }, mir := { q.1.mir with badOut := [] } }
      else q.1.onMir fun m => m.missed i epoch

/-- The fc at which a RECORD occurrence writes its last entry: R33's cost of 64 fc and 5 a record. -/
def Recording.ends (r : Recording) : Nat := r.start + 64 + 5 * (r.entries.length - 1)

/-- A RECORD occurrence at an fc of its epoch: cut where the copies disagree on an entry, entry `e` leaving at START + 5 `e` (log entry
175); complete once its last entry is written (R321). -/
def Core.recordEnd (c : Core) (t : Clock) (fc : Nat) : Core :=
  c.plan.recs.foldl (fun (c : Core) r =>
    if ¬ c.plan.recs.contains r then c
    else
      match r.bad with
      | some e => if r.start + 5 * e ≤ fc then c.lockstep { t with fc := r.start + 5 * e } srcOutcmp 9 0 false else c
      | none =>
        if r.ends ≤ fc then
          ({ c with plan := { c.plan with recs := c.plan.recs.filter (· != r) } } : Core).writeOcc r.epoch r.group r.cut r.entries
        else c) c

/-- A replayed RECORD occurrence (R327): written whole, every record marked REPLAY. -/
def Core.recordReplay (c : Core) (epoch g most : Nat) : Core :=
  if !c.groupWaits g epoch then c
  else
    let ms := c.recordCut g most
    if c.outFree < ms.1.length + 1 then c.dropOcc epoch g ms.2
    else
      let r := c.takeRecords epoch ms.1
      r.1.writeOcc epoch g ms.2 (c.outHeader g epoch ms.1.length :: r.2.map markReplay)

/-- PLAN_OSTAT.FILL, as a read shows it. -/
def Core.outFill (c : Core) : Nat := (c.fld F.PLAN_OWR.OWR + 4096 - c.fld F.PLAN_ORD.ORD) % 4096

/-! ### Group 9 (R253, R259) -/

/-- The running plan holds a RECORD slot for a group's staged or committed settings. -/
def Core.hasRecordSlot (c : Core) (g period phase : Nat) : Bool :=
  c.slots.any fun s => s.kind == kRecord && s.index == g && s.period == period && s.phase == phase

/-- The staged settings of a group. -/
def Core.ogStaged (c : Core) (g : Nat) : Word := c.reg (R.PLAN_OGCFG g)

/-- The refusal of a group 9 commit: its code and the lowest group at fault; code 0 when it applies. -/
def Core.outRefusal (c : Core) : Nat × Nat :=
  let gs := List.range 16
  let en := fun (w : Word) => bits w 14 14 = 1
  let old := fun g => c.force.reg (R.PLAN_OGCFG g)
  let badPeriod := fun g =>
    let w := c.ogStaged g
    decide (en w) && (decide (bits w 13 10 < 5) || decide (periodOf (bits w 13 10) ≤ bits w 9 0))
  let noSlot := fun g =>
    let w := c.ogStaged g
    decide (en w) && (!decide (en (old g)) || bits w 13 10 != bits (old g) 13 10 || bits w 9 0 != bits (old g) 9 0) &&
      !c.hasRecordSlot g (bits w 13 10) (bits w 9 0)
  if gs.any (fun g => bits (c.ogStaged g) 31 16 != 0) ∨ bits (c.reg R.PLAN_OUTCFG) 31 11 ≠ 0 ∨
      5 < c.fld F.PLAN_OUTCFG.TSOUT ∨ bits (c.reg R.PLAN_RXBASE_HI) 30 16 ≠ 0 then (1, 0)
  else
    match gs.find? badPeriod with
    | some g => (2, g)
    | none => match gs.find? noSlot with
      | some g => (3, g)
      | none => (0, 0)

/-- PLAN_OUTERR.SLOTLESS follows the groups in force and the running plan (R259). -/
def Core.markSlotless (c : Core) : Core :=
  c.setFld F.PLAN_OUTERR.SLOTLESS ((List.range 16).foldl (fun v g =>
    let w := c.force.reg (R.PLAN_OGCFG g)
    v + ofBool (decide (bits w 14 14 = 1) && !c.hasRecordSlot g (bits w 13 10) (bits w 9 0)) * 2 ^ g) 0)

/-- The range constants (chapter 10). -/
def Core.writeRangeConst (c : Core) (changed : Option Nat) : Core :=
  let ws := [BitVec.ofNat 32 c.rxBase, BitVec.ofNat 32 (c.rxBase / 2 ^ 32 + ofBool c.rxValid * 2 ^ 31),
    BitVec.ofNat 32 (c.inForce F.PLAN_OUTCFG.LS), match changed with
      | some e => BitVec.ofNat 32 e
      | none => c.mem.word (rangeConst + 12)]
  { c with mem := c.mem.putWords rangeConst ws }

/-- The registers of group 9. -/
def group9Regs : List Nat := (List.range 16).map R.PLAN_OGCFG ++ [R.PLAN_OUTCFG, R.PLAN_RXBASE_LO, R.PLAN_RXBASE_HI]

/-- Registers copied from their staged to their in-force values. -/
def Core.putInForce (c : Core) (l : List Nat) : Core := l.foldl (fun c a => { c with force := c.force.setReg a (c.reg a) }) c

/-- Group 9 applies at a boundary (R253, R259); the change of RXBASE in ms comes back for Focus slot 9. -/
def Core.applyGroup9 (c : Core) (epoch : Nat) : Core × Int :=
  let r := c.outRefusal
  if r.1 ≠ 0 then ((c.setFld F.PLAN_OUTERR.CODE r.1).setFld F.PLAN_OUTERR.GRP r.2, 0)
  else
    let c1 := c.putInForce group9Regs
    let d : Int := if c.rxValid && c1.rxValid then (c1.rxBase : Int) - c.rxBase else 0
    let c2 := if d ≠ 0 then c1.onOut fun o => { o with rxSum := o.rxSum + d, clkj := some epoch } else c1
    let moved := c1.rxBase != c.rxBase || c1.rxValid != c.rxValid
    ((c2.writeRangeConst (if moved then some epoch else none)).markSlotless, d)

/-! ### Time scales and heading products (R261, R264) -/

/-- A time-scale entry (R261). -/
def scaleEntry (valid : Bool) (src epoch : Nat) (ofs : Int) : List Word :=
  let v := unsignedOf 64 ofs
  [BitVec.ofNat 32 (ofBool valid * 2 ^ 31 + src * 2 ^ 28), BitVec.ofNat 32 epoch, BitVec.ofNat 32 v, BitVec.ofNat 32 (v / 2 ^ 32)]

/-- A Focus estimate in ns × 2^16 from metres (R261). -/
def metresToNs16 (m : Rat) : Int := roundRat (m / lightSpeed * 1000000000 * 65536)

/-- The UTC parameters in use: those of the first source that has been decoded, of GPS, Galileo and BeiDou (R261). -/
def utcInUse (utc : Vector (Option (Int × Int)) 3) : Option (Int × Int) := utc.toList.findSome? id

/-- The offset of scale `k`: the broadcast offset where one is known, else the Focus estimate of the scales that have one, else
none (R261). `utc` holds the leap-second count and the polynomial of each UTC source, `slot` a Focus slot where it is estimated; offsets
are in ns × 2^16. -/
def scaleOffset (k : Nat) (utc : Vector (Option (Int × Int)) 3) (bcast : Option Int) (slot : Nat → Option Rat) : Option (Nat × Int) :=
  let sec : Int := 1000000000 * 65536
  let pick := fun (base : Int) (i : Nat) =>
    match bcast with
    | some v => some (1, base - v)
    | none => (slot i).map fun m => (2, base - metresToNs16 m)
  match k with
  | 0 => some (3, 0)
  | 5 => some (3, 19 * sec)
  | 1 => pick 0 12
  | 2 => pick (-(14 * sec)) 13
  | 3 => (utcInUse utc).bind fun u => pick ((10800 - u.1) * sec) 11
  | 4 => (utcInUse utc).map fun u => (1, -(u.1 * sec) - u.2)
  | _ => none

/-- Distaff computes a time-scale entry (R261). -/
def Core.writeTimeScale (c : Core) (epoch k : Nat) (utc : Vector (Option (Int × Int)) 3) (bcast : Option Int) (slot : Nat → Option Rat) :
    Core :=
  let ws := match scaleOffset k utc bcast slot with
    | some (src, ofs) => scaleEntry true src epoch ofs
    | none => scaleEntry false 0 epoch 0
  { c with mem := c.mem.putWords (timeScale k) ws }

/-- The offset of a scale from GPST in force, in ns × 2^16; none where its entry is not valid. -/
def Core.scaleOfs (c : Core) (k : Nat) : Option Int :=
  if bits (c.mem.word (timeScale k)) 31 31 = 1 then some (signedOf 64 (c.mem.readLe (timeScale k + 8) 8)) else none

/-- The scale of the Twine time and PVT messages, GPST where the selected one is not valid (R262). -/
def Core.outScale (c : Core) : Nat × Bool :=
  let k := c.inForce F.PLAN_OUTCFG.TSOUT
  if (c.scaleOfs k).isSome then (k, true) else (0, false)

/-- A heading product published (R264). -/
def Core.publishHeading (c : Core) (b : Nat) (ws : List Word) : Core :=
  { c with mem := c.mem.putWords (headProduct b) ((List.range 8).map fun k => ws.getD k 0) }

end Sys2Proof.Machine
end

