-- ==== Sys2Proof/Machine/Focus.lean ====
section
/-! DEFINITION. Vector tracking and the Focus filter (chapter 07): the standard Focus program's update, feed-forward records,
demotions, inertial aiding, the solution record and the group 5 and 6 commits. The numbers of one propagation and of one row's update
are constants without a body (log entry 9). -/
namespace Sys2Proof.Machine

/-- Windows of chapter 07. -/
def satEntry (p : Nat) : Nat := 0x31080000 + 64 * p
def focStateAddr : Nat := 0x310A0000
def focCovAddr : Nat := 0x310A0200

/-- A change of Focus inside and outside its pair. -/
def Core.onFoc (c : Core) (f : FocSt → FocSt) : Core := c.onHot fun h => { h with foc := f h.foc }
def Core.onFocOut (c : Core) (f : FocOut → FocOut) : Core := { c with foc := f c.foc }

/-- The selected states in force, bit i for slot i. -/
def Core.stsel (c : Core) : Nat := c.inForce F.FOC_STSEL_LO.SEL + 2 ^ 32 * (c.inForce F.FOC_STSEL_HI.SEL % 256)

/-- FOC_PARn in force (value × 2^16). -/
def Core.focPar (c : Core) (n : Nat) : Rat := scaled (signedOf 32 (c.force.reg (R.FOC_PAR n)).toNat) 16

/-- A Focus state slot and a diagonal covariance term. -/
def FocNum.slot (n : FocNum) (i : Nat) : Rat := n.x.getD i 0
def FocNum.var (n : FocNum) (i : Nat) : Rat := n.cov.getD (41 * i) 0

/-! ### The satellite table (R183) -/

/-- A Distaff write of a word of a satellite entry goes to the shadow copy; a write of word 0 publishes the shadow. -/
def Core.writeSat (c : Core) (p k : Nat) (w : Word) : Core :=
  let c1 := c.onFocOut fun f => { f with shadow := f.shadow.putWord (satEntry p + 4 * k) w }
  if k = 0 then { c1 with mem := c1.mem.writes (satEntry p) (c1.foc.shadow.reads (satEntry p) 64) } else c1

/-- The published copies take effect at the start of a FOCUS slot. -/
def Core.takeSats (c : Core) : Core :=
  c.onFocOut fun f => { f with effect := c.mem.filter fun q => decide (satEntry 0 ≤ q.1 ∧ q.1 < satEntry 1024) }

/-- The satellite entry of a ply in effect. -/
def Core.sat (c : Core) (p : Nat) : List Word := c.foc.effect.words (satEntry p) 16

/-- The age of an entry at a boundary, in epochs. -/
def satAge (epoch : Nat) (e : List Word) : Int := signedOf 32 (epoch % 2 ^ 32 + 2 ^ 32 - (wordOf e 1).toNat)

/-- A ply's entry is usable (R183). -/
def Core.satUsable (c : Core) (epoch p : Nat) : Bool :=
  bits (wordOf (c.sat p) 0) 31 31 = 1 && decide (satAge epoch (c.sat p) ≤ c.inForce F.FOC_LIM2.SVMAX)

/-- A vector of three rationals. -/
abbrev Vec3 := Rat × Rat × Rat
def dot3 (a b : Vec3) : Rat := a.1 * b.1 + a.2.1 * b.2.1 + a.2.2 * b.2.2
def sub3 (a b : Vec3) : Vec3 := (a.1 - b.1, a.2.1 - b.2.1, a.2.2 - b.2.2)
def add3 (a b : Vec3) (t : Rat) : Vec3 := (a.1 + t * b.1, a.2.1 + t * b.2.1, a.2.2 + t * b.2.2)
def scale3 (a : Vec3) (t : Rat) : Vec3 := (a.1 * t, a.2.1 * t, a.2.2 * t)
def of3 (f : Nat → Rat) : Vec3 := (f 0, f 1, f 2)

/-- c times the satellite clock correction at a boundary in m, extrapolated linearly, and its rate in m/s (R183). -/
def satClock (epoch : Nat) (e : List Word) : Rat × Rat :=
  let ddt := (signedOf 32 (wordOf e 15).toNat : Rat) / 1000000
  ((signedOf 32 (wordOf e 14).toNat : Rat) / 1000 + ddt * (satAge epoch e : Rat) / 1000, ddt)

/-- Position, velocity and acceleration of the satellite at a boundary, extrapolated (R183). -/
def satMotion (epoch : Nat) (e : List Word) : Vec3 × Vec3 × Vec3 :=
  let dt : Rat := (satAge epoch e : Rat) / 1000
  let s32 := fun k => (signedOf 32 (wordOf e k).toNat : Rat)
  let x0 := of3 fun i => scaled (signedOf 64 ((wordOf e (2 + 2 * i)).toNat + 2 ^ 32 * (wordOf e (3 + 2 * i)).toNat)) 16
  let v0 := of3 fun i => s32 (8 + i) / 10000
  let a := of3 fun i => s32 (11 + i) / 1000000
  (add3 (add3 x0 v0 dt) a (dt * dt / 2), add3 v0 a dt, a)

/-! ### Rows (R184 to R186) -/

/-- A ply gives rows to the update of a boundary (R184). -/
def Core.givesRows (c : Core) (epoch p : Nat) : Bool :=
  let y := c.ply p
  (c.bind p).en && bitOf (c.focEntry p) 2 && decide (y.mode = mFll ∨ lockMode y.mode = true) && y.cn0v && c.satUsable epoch p &&
    decide (y.lastEp = epoch) && c.islandOn (p / 128)

/-- A ply's system (R183). -/
def Core.plySys (c : Core) (p : Nat) : Nat := bits (wordOf (c.sat p) 0) 30 28

/-- The selected offset states of a ply's code row (R181): its system's, its antenna's and its band's. GPS and SBAS have none of their
own. -/
def Core.offsetSlots (c : Core) (p : Nat) : List Nat :=
  let w := c.force.reg (R.BOB_STRCFG (c.live (c.bind p).main.strand).stream)
  let sys := c.plySys p
  let band := bits w 7 6
  ((if 1 ≤ sys ∧ sys ≤ 5 then [10 + sys] else []) ++ [16 + bits w 5 4] ++ (if 1 ≤ band then [25 + band] else [])).filter (bitOf c.stsel)

/-- A row of a ply at a boundary, with its satellite as it is extrapolated to there (R183). -/
def Core.plyRow (c : Core) (epoch p kind : Nat) (z var : Rat) (slots : List Nat) : FocRow :=
  let m := satMotion epoch (c.sat p)
  let k := satClock epoch (c.sat p)
  { kind := kind, idx := p, z := z, var := var, pos := m.1, vel := m.2.1, clk := k.1, clkRate := k.2, slots := slots, body := [] }

/-- The code row of a ply, when its pseudorange can be formed (R184, R185). -/
def Core.codeRow (c : Core) (epoch p : Nat) : List FocRow :=
  let b := c.bind p
  let y := c.ply p
  let lam := lightSpeed / (b.knom : Rat)
  let t : Rat := (dumpNep (c.dump b.main.strand) : Rat) / 1000
  let var := (c.focPar 7 * lam) * (c.focPar 7 * lam) * ((c.spacing16 p : Rat) / 16) / (4 * y.cn0Lin * t) + c.focPar 9 * c.focPar 9
  if c.anchorOk epoch p then
    [c.plyRow epoch p 2 (c.pseudorange epoch p b.main.strand - lam * y.ek) var (c.offsetSlots p)]
  else []

/-- λ of a ply's carrier (R184). -/
def Binding.lambda (b : Binding) : Rat := lightSpeed * (b.kaid : Rat) / (4294967296 * (b.knom : Rat))

/-- The rate row of a ply (R184, R185). -/
def Core.rateRow (c : Core) (epoch p : Nat) : List FocRow :=
  let b := c.bind p
  let y := c.ply p
  let t : Rat := (dumpNep (c.dump b.main.strand) : Rat) / 1000
  let fD := c.dopplerOf b (c.strand b.main.strand).crWin
  let sf := c.focPar 8 * b.lambda
  let var := sf * sf / (2 * Config.pi * Config.pi * y.cn0Lin * t * t * t) + c.focPar 10 * c.focPar 10
  [c.plyRow epoch p 3 (-(b.lambda) * (fD + y.ef)) var []]

/-- The heading products that program 0 takes at an update (R265): each once, at t_u at or after EPOCH and within 50 epochs. -/
def Core.freshProducts (c : Core) (epoch : Nat) : List (Nat × Nat) :=
  (List.range 3).filterMap fun b =>
    let e := fullEpoch epoch (c.mem.word (headProduct b + 4)).toNat
    if bits (c.mem.word (headProduct b)) 31 31 = 1 ∧ epoch - e ≤ 50 ∧ c.hot.foc.products.getD b none ≠ some e then some (b, e) else none

/-- The body-frame vector of a baseline in mm (R263, settings 12 to 14). -/
def Core.bodyVector (c : Core) (b : Nat) : List Int := (List.range 3).map fun i => signedOf 32 (leAt (c.setting (12 + b)) (8 + 4 * i) 4)

/-- The attitude rows: a heading and a pitch row of each product taken, when slots 20 to 22 are selected (R184, R265). -/
def Core.attitudeRows (c : Core) (epoch : Nat) : List FocRow :=
  if c.stsel / 2 ^ 20 % 8 = 7 then
    (c.freshProducts epoch).flatMap fun q =>
      let w := fun k => c.mem.word (headProduct q.1 + 4 * k)
      let sg := fun kind => ((w (4 + kind)).toNat : Rat) / 1000000
      let z := fun kind => scaled (signedOf 32 (w (2 + kind)).toNat) 29
      let row : Nat → FocRow := fun kind => ⟨kind, q.1, z kind, sg kind * sg kind, (0, 0, 0), (0, 0, 0), 0, 0, [20, 21, 22], c.bodyVector q.1⟩
      [row 0, row 1]
  else []

/-- Every row of an update, in the order of R186. -/
def Core.allRows (c : Core) (epoch : Nat) : List FocRow :=
  let of := fun m => ((belowSuch 1024 fun p => c.givesRows epoch p && (c.ply p).fmode == m).flatMap fun p =>
    c.codeRow epoch p ++ c.rateRow epoch p)
  c.attitudeRows epoch ++ of 2 ++ of 1 ++ of 0

/-! ### The filter (R187, R188) -/

/-- The unit vector from the receiver to a row's satellite, and the range. -/
def FocNum.sight (n : FocNum) (r : FocRow) : Vec3 × Rat :=
  let dx := sub3 r.pos (of3 fun i => n.slot i)
  let d := Config.sqrtRat (dot3 dx dx)
  (scale3 dx (1 / d), d)

/-- What the filter predicts of a row (R181): range plus the receiver's bias and offsets less c times the satellite clock; its rate; a
baseline's azimuth or elevation, which its body vector has under slots 20 to 22. -/
def FocNum.predict (n : FocNum) (r : FocRow) : Rat :=
  let u := n.sight r
  match r.kind with
  | 2 => u.2 + n.slot 9 + (r.slots.map n.slot).sum - r.clk
  | 3 => dot3 u.1 (sub3 r.vel (of3 fun i => n.slot (3 + i))) + n.slot 10 - r.clkRate
  | k => (Config.attitude k (r.slots.map n.slot) r.body).1

/-- The states that a row depends on, each with its partial derivative (R181). -/
def FocNum.partials (n : FocNum) (r : FocRow) : List (Nat × Rat) :=
  let u := (n.sight r).1
  let los := fun (i : Nat) => [(i, -u.1), (i + 1, -u.2.1), (i + 2, -u.2.2)]
  match r.kind with
  | 2 => los 0 ++ [(9, 1)] ++ r.slots.map fun i => (i, 1)
  | 3 => los 3 ++ [(10, 1)]
  | k => r.slots.zip (Config.attitude k (r.slots.map n.slot) r.body).2

/-- An angle difference brought into [−π, π). -/
def wrapAngle (a : Rat) : Rat := a - 2 * Config.pi * (((a + Config.pi) / (2 * Config.pi)).floor : Rat)

/-- The innovation of a row and its variance (R187): that of the predicted value under the covariance, and the row's own. -/
def FocNum.innovation (n : FocNum) (r : FocRow) : Rat × Rat :=
  let h := n.partials r
  let d := r.z - n.predict r
  let s := (h.map fun i => (h.map fun j => i.2 * n.cov.getD (40 * i.1 + j.1) 0 * j.2).sum).sum
  (if r.kind = 0 then wrapAngle d else d, s + r.var)

/-- What the rows of an update have done so far. -/
structure RowsDone where
  num : FocNum
  accepted : Nat
  codes : Nat
  rejected : Nat
  gate : List (Nat × Bool)            -- each ply's code row: rejected or not
deriving DecidableEq, Repr

/-- One row under the gate of R187. -/
def applyRow (sel : Nat) (gate : Rat) (r : RowsDone) (row : FocRow) : RowsDone :=
  let i := r.num.innovation row
  let code := decide (row.kind = 2)
  if gate * gate * i.2 < i.1 * i.1 then
    { r with rejected := r.rejected + 1, gate := if code then r.gate ++ [(row.idx, true)] else r.gate }
  else
    { r with num := Config.focApply sel r.num (r.num.partials row) i.1 i.2, accepted := r.accepted + 1, codes := r.codes + ofBool code,
             gate := if code then r.gate ++ [(row.idx, false)] else r.gate }

/-- A ply's consecutive rejected code rows, and its demotion when they reach REJMAX (R187). -/
def Core.gateCount (c : Core) (g : Nat × Bool) : Core :=
  let y := c.ply g.1
  if g.2 then
    let n := y.gateRej + 1
    if c.inForce F.FOC_LIM0.REJMAX ≤ n then
      let c1 := c.setPly g.1 { y with gateRej := 0 }
      if c1.vectorPly g.1 then c1.demote g.1 3 0 else c1
    else c.setPly g.1 { y with gateRej := n }
  else c.setPly g.1 { y with gateRej := 0 }

/-- The 3-D position and velocity standard deviations. -/
def FocNum.posSigma (n : FocNum) : Rat := Config.sqrtRat (n.var 0 + n.var 1 + n.var 2)
def FocNum.velSigma (n : FocNum) : Rat := Config.sqrtRat (n.var 3 + n.var 4 + n.var 5)

/-- The standard deviation a seeded state starts with (R188). -/
def seedSigma (i : Nat) : Rat :=
  if 6 ≤ i ∧ i ≤ 8 then 1
  else if (11 ≤ i ∧ i ≤ 19) ∨ (26 ≤ i ∧ i ≤ 28) then 100
  else if 20 ≤ i ∧ i ≤ 22 then Config.pi
  else if (23 ≤ i ∧ i ≤ 25) ∨ (29 ≤ i ∧ i ≤ 31) then 1 / 2
  else if (32 ≤ i ∧ i ≤ 34) ∨ i = 35 then 1 / 100
  else 0

/-- The states that the least-squares solution sets (R188). -/
def seeded (i : Nat) : Bool := decide (i ≤ 5 ∨ i = 9 ∨ i = 10)

/-- The filter as a seed leaves it. -/
def seedNum (n : FocNum) : FocNum :=
  { x := (List.range 40).map fun i => if seeded i then n.slot i else 0
    cov := (List.range 1600).map fun k =>
      let i := k / 40
      let j := k % 40
      if seeded i && seeded j then n.cov.getD k 0 else if i = j then seedSigma i * seedSigma i else 0 }

/-- A covariance term on the diagonal is not positive (R188). -/
def Core.covBad (c : Core) (n : FocNum) : Bool := (belowSuch 40 (bitOf c.stsel)).any fun i => decide (n.var i ≤ 0)

/-- The filter meets the TRACK limits. -/
def Core.tracks (c : Core) (n : FocNum) : Bool := decide (n.posSigma ≤ c.focPar 12) && decide (n.velSigma ≤ c.focPar 13)

/-- The offset states selected that have code rows. -/
def offsetsUsed (rows : List FocRow) : Nat :=
  (belowSuch 5 fun k => rows.any fun r => r.kind == 2 && r.slots.contains (11 + k)).length

/-- Aiding is in use. -/
def Core.aidAct (c : Core) : Bool := c.inForceFlag F.FOC_CFG.AIDEN && c.hot.foc.lastAid.isSome && !c.hot.foc.aidLost

/-- The filter state after an update that propagated (R188). -/
def Core.nextState (c : Core) (epoch : Nat) (n : FocNum) (coast : Bool) : Nat :=
  let f := c.hot.foc
  let lim := if c.aidAct then 10 * c.inForce F.FOC_LIM1.COASTAID else c.inForce F.FOC_LIM1.COASTLIM
  let expired := coast && decide (f.state ≠ 3 ∧ lim < epoch - f.lastGood)
  if c.covBad n ∨ expired then 5
  else match f.state with
    | 2 => if !coast && c.tracks n then 3 else 2
    | 3 => if coast then 4 else 3
    | 4 => if !coast && c.tracks n then 3 else 4
    | s => s

/-- A change of the filter's state, with its interrupt; leaving TRACK and COAST demotes every vector ply (R195). -/
def Core.setFocState (c : Core) (s : Nat) : Core :=
  let old := c.hot.foc.state
  let c1 := c.onFoc fun f => { f with state := s }
  let c2 := if old = s then c1 else c1.raise F.FOC_IRQ.STATE
  if (old = 3 ∨ old = 4) ∧ ¬ (s = 3 ∨ s = 4) then
    forBelow 1024 (fun c p => if c.vectorPly p then c.demote p 1 0 else c) c2
  else c2

/-! ### Feed-forward (R189) -/

/-- A rational as a signed field of `n` bits with `k` fraction bits, saturating. -/
def encS (n k : Nat) (q : Rat) : Nat := unsignedOf n (satSigned n (roundRat (q * ((2 ^ k : Nat) : Rat))))

/-- FFD and FFR of a ply (R189). -/
def Core.feedRates (c : Core) (epoch p : Nat) (n : FocNum) : Rat × Rat :=
  let b := c.bind p
  let m := satMotion epoch (c.sat p)
  let s := n.sight (c.plyRow epoch p 3 0 0 [])
  let dv := sub3 m.2.1 (of3 fun i => n.slot (3 + i))
  let da := sub3 m.2.2 (of3 fun i => n.slot (6 + i))
  let rr := dot3 s.1 dv
  (-(rr + n.slot 10 - (satClock epoch (c.sat p)).2) / b.lambda, -(dot3 s.1 da + (dot3 dv dv - rr * rr) / s.2 + n.slot 35) / b.lambda)

/-- A feed-forward record (R189). -/
def Core.feedRecord (c : Core) (epoch p : Nat) (n : FocNum) : List Word :=
  let b := c.bind p
  let f := c.feedRates epoch p n
  let row := c.plyRow epoch p 2 0 0 (c.offsetSlots p)
  let lamC := lightSpeed / (b.knom : Rat)
  let k := if (c.ply p).fmode = 2 then
      (c.pseudorange epoch p b.main.strand - n.predict row) / (lamC * c.focPar 14) else 0
  [BitVec.ofNat 32 epoch, BitVec.ofNat 32 (encS 32 12 f.1), BitVec.ofNat 32 (encS 32 12 f.2), BitVec.ofNat 32 (encS 24 12 k * 2 ^ 8 + 1)]

/-- Every feed-forward record of an update, written to the back buffer (R189). -/
def Core.writeFeed (c : Core) (epoch : Nat) : Core :=
  let ready := c.focusReady
  forBelow 1024 (fun c p =>
    if !(ready && c.satUsable epoch p) then
      c.onFoc fun f => { f with back := f.back.putWord (ffRecord p + 12) (putBits (f.back.word (ffRecord p + 12)) 0 0 0) }
    else if c.focEntry p % 4 ≠ 0 then
      let ws := c.feedRecord epoch p c.hot.foc.num
      c.onFoc fun f => { f with back := f.back.putWords (ffRecord p) ws }
    else c) c

/-- The feed-forward back buffer and the buffer in force change places (R189, R237). -/
def Core.swapFeed (c : Core) : Core :=
  c.onHot fun h =>
    let front := h.mem.filter fun x => inRange 0x31090000 0x4000 x.1
    let mem := (h.mem.clear 0x31090000 0x4000).writes 0x31090000 (h.foc.back.reads 0x31090000 0x4000)
    { h with mem := mem, foc := { h.foc with back := front } }

/-- The state and diagonal covariance windows (R201). -/
def Core.writeFocWindows (c : Core) : Core :=
  let n := c.hot.foc.num
  c.onHot fun h =>
    let m1 := (List.range 40).foldl (fun m i => Memory.writeLe m (focStateAddr + 8 * i) 8 (encS 64 24 (n.slot i))) h.mem
    let m2 := (List.range 40).foldl (fun m i =>
      Memory.writeLe m (focCovAddr + 8 * i) 8 (clampInt 0 (2 ^ 64 - 1) (roundRat (n.var i * 16777216))).toNat) m1
    { h with mem := m2 }

/-! ### Inertial aiding (R198 to R200) -/

/-- A write of FOC_AIDINn; n = 7 pushes the sample, displacing the oldest of 64 (R198, R199). -/
def Core.aidIn (c : Core) (n : Nat) (w : Word) : Core :=
  let c1 := c.setReg (R.FOC_AIDIN n) w
  if n = 7 then
    let s := (List.range 8).map fun k => c1.reg (R.FOC_AIDIN k)
    let full := decide (64 ≤ c1.foc.fifo.length)
    let c2 := c1.onFocOut fun f => { f with fifo := (if full then f.fifo.drop 1 else f.fifo) ++ [s] }
    let c3 := c2.setFld F.FOC_AIDSTAT.FILL c2.foc.fifo.length
    if full then (c3.countSat F.FOC_AIDSTAT.OVF 1).raise F.FOC_IRQ.AIDREJ else c3
  else c1

/-- A sample's time of validity in fc, by its epoch and offset or by its event's tag (R198). -/
def sampleTime (now : Nat) (tag : Nat → Nat → Option Nat) (s : List Word) : Option Nat :=
  let w1 := wordOf s 1
  if bits w1 23 23 = 0 then some (fcPerEpoch * fullEpoch now (wordOf s 0).toNat + bits w1 19 0)
  else tag (bits w1 22 20) (wordOf s 0).toNat

/-- Why a sample is rejected (R199), 0 when it is accepted. `start` is the slot's start in fc. -/
def sampleCause (start : Nat) (prev : Option Nat) (time : Option Nat) (s : List Word) : Nat :=
  let w1 := wordOf s 1
  if bits w1 25 25 = 1 ∨ bits w1 31 26 ≠ 0 ∨ (bits w1 23 23 = 1 ∧ bits w1 19 0 ≠ 0) then 1
  else match time with
    | none => 4
    | some t =>
      if (prev.map fun q => decide (t < q + 2 * fcPerEpoch)).getD false then 2
      else if t + 20 * fcPerEpoch < start then 3
      else 0

/-- One sample taken by an update. -/
def Core.takeSample (now start : Nat) (tag : Nat → Nat → Option Nat) (q : Core × List (List Word × Nat)) (s : List Word) :
    Core × List (List Word × Nat) :=
  let t := sampleTime now tag s
  let cause := sampleCause start q.1.hot.foc.lastAid t s
  if cause = 0 then
    (q.1.onFoc fun f => { f with lastAid := t, aidAt := some start, aidLost := false }, q.2 ++ [(s, t.getD 0)])
  else (((q.1.countSat F.FOC_AIDSTAT.REJ 1).setFld F.FOC_AIDSTAT.LASTREJ cause).raise F.FOC_IRQ.AIDREJ, q.2)

/-- The samples an update takes: at most 8, oldest first (R199). -/
def Core.takeSamples (c : Core) (t : Clock) (tag : Nat → Nat → Option Nat) : Core × List (List Word × Nat) :=
  if c.inForceFlag F.FOC_CFG.AIDEN then
    let r := (c.foc.fifo.take 8).foldl (Core.takeSample t.epoch (fcPerEpoch * t.epoch + t.fc) tag) (c, [])
    let c1 := r.1.onFocOut fun f => { f with fifo := f.fifo.drop 8, taken := f.taken ++ f.fifo.take 8 }
    (c1.setFld F.FOC_AIDSTAT.FILL c1.foc.fifo.length, r.2)
  else (c, [])

/-- The samples that a rolled-back update took wait again (R320); of more than 64 the oldest go, as at a push. -/
def Core.returnSamples (c : Core) : Core :=
  let c1 := c.onFocOut fun f => { f with fifo := (f.taken ++ f.fifo).drop ((f.taken ++ f.fifo).length - 64), taken := [] }
  c1.setFld F.FOC_AIDSTAT.FILL c1.foc.fifo.length

/-- No sample has been accepted for 50 ms (R200). -/
def Core.aidLost (c : Core) (t : Clock) : Core :=
  let now := fcPerEpoch * t.epoch + t.fc
  if c.inForceFlag F.FOC_CFG.AIDEN && !c.hot.foc.aidLost && (c.hot.foc.aidAt.map fun q => decide (q + 50 * fcPerEpoch ≤ now)).getD true then
    (c.onFoc fun f => { f with aidLost := true }).raise F.FOC_IRQ.AIDLOST
  else c

/-! ### One update (R178) -/

/-- The heading products taken by an update are remembered (R265). -/
def Core.markProducts (c : Core) (epoch : Nat) : Core :=
  if c.stsel / 2 ^ 20 % 8 = 7 then
    (c.freshProducts epoch).foldl (fun c q => c.onFoc fun f => { f with products := setAt f.products q.1 (some q.2) }) c
  else c

/-- INIT: the filter is seeded when the rows suffice and PDOP is at most 10 (R188). -/
def Core.focInit (c : Core) (epoch : Nat) (rows : List FocRow) (drop : Nat) : Core :=
  let codes := (rows.filter fun r => r.kind == 2).length
  let c1 := c.onFoc fun f => { f with rows := 0, rej := 0, mdrop := drop, coasted := true }
  if c.inForce F.FOC_LIM0.MINROW + offsetsUsed rows ≤ codes then
    match Config.focSeed c.stsel rows with
    | some (n, pdop) =>
      if pdop ≤ 10 then
        (c1.onFoc fun f => { f with num := seedNum n, rows := rows.length, lastGood := epoch, coasted := false }).setFocState 2
      else c1
    | none => c1
  else c1

/-- An update of a seeded filter: propagation, the rows under their gate, and the next state. -/
def Core.focTrack (c : Core) (epoch : Nat) (dt : Rat) (aid : List (List Word × Nat)) (rows : List FocRow) (drop : Nat) : Core :=
  let par := (List.range 24).map c.focPar
  let n0 := Config.focPropagate c.stsel par dt aid c.aidAct c.hot.foc.num
  let r := rows.foldl (applyRow c.stsel (c.focPar 11)) { num := n0, accepted := 0, codes := 0, rejected := 0, gate := [] }
  let coast := decide (r.codes < c.inForce F.FOC_LIM0.MINROW)
  let s := c.nextState epoch r.num coast
  let c1 := c.onFoc fun f => { f with
    num := r.num, rows := r.accepted, rej := r.rejected, mdrop := drop, coasted := coast,
    lastGood := if coast then f.lastGood else epoch }
  (r.gate.foldl Core.gateCount c1).setFocState s

/-- A FOCUS slot of any program opens (R178, R183): the published satellite entries take effect, and the next update interval runs from
here. -/
def Core.openFocus (c : Core) (t : Clock) : Core :=
  c.takeSats.onFoc fun f => { f with lastFc := some (fcPerEpoch * t.epoch + t.fc) }

/-- One occurrence of a FOCUS slot under the standard Focus program (R178): one filter update with t_u the boundary that began the
epoch; its records go to the back buffer, and what it publishes waits for the slot's last fc. -/
def Core.focusSlot (c : Core) (t : Clock) (tag : Nat → Nat → Option Nat) : Core :=
  let now := fcPerEpoch * t.epoch + t.fc
  let last := c.hot.foc.lastFc
  let c0 := c.openFocus t
  let c1 := if c0.hot.foc.restart then (c0.onFoc fun f => { f with restart := false }).setFocState 1 else c0
  if c1.hot.foc.state = 0 then c1.writeFeed t.epoch
  else
    let sm := c1.takeSamples t tag
    let c2 := sm.1
    let rows := c2.allRows t.epoch
    let used := rows.take (c2.inForce F.FOC_CFG.MMAX)
    let drop := rows.length - used.length
    let dt : Rat := ((now - last.getD now : Nat) : Rat) / 655360000
    let c3 := match c2.hot.foc.state with
      | 5 => (c2.onFoc fun f => { f with rows := 0, rej := 0, mdrop := 0, coasted := true }).setFocState 1
      | 1 => c2.focInit t.epoch used drop
      | _ => c2.focTrack t.epoch dt sm.2 used drop
    ((c3.markProducts t.epoch).writeFeed t.epoch).onFoc fun f => { f with due := some t.epoch }

/-- The last fc of a FOCUS slot (R189, R201): the back buffer comes into force; an update of program 0 is complete, with its windows,
FOC_UPD and its interrupt. -/
def Core.publishFocus (c : Core) (program : Bool) : Core :=
  match c.hot.foc.due with
  | some e => ((c.onFoc fun f => { f with due := none, upd := e }).writeFocWindows.swapFeed).raise F.FOC_IRQ.UPD
  | none => if program ∨ c.hot.foc.state = 0 then c.swapFeed else c

/-! ### The solution record and the registers Focus shows (R201) -/

/-- The solution record of the last completed update (R201). -/
def Core.solutionRecord (c : Core) : List Byte :=
  let f := c.hot.foc
  let n := f.num
  let mm := fun (q : Rat) => (clampInt 0 0xFFFFFFFF (roundRat (q * 1000))).toNat
  let att := fun i => if bitOf c.stsel i then encS 32 29 (n.slot i) else 0
  let flags := ofBool c.aidAct + ofBool f.aidLost * 2 + ofBool f.coasted * 4
  leBytes 4 f.upd ++ leBytes 1 f.state ++ leBytes 1 flags ++ leBytes 2 f.rows ++
    (List.range 3).flatMap (fun i => leBytes 8 (encS 64 16 (n.slot i))) ++
    (List.range 3).flatMap (fun i => leBytes 4 (encS 32 16 (n.slot (3 + i)))) ++
    leBytes 8 (encS 64 16 (n.slot 9)) ++ leBytes 4 (encS 32 16 (n.slot 10)) ++
    leBytes 4 (mm n.posSigma) ++ leBytes 4 (mm n.velSigma) ++ leBytes 4 (mm (Config.sqrtRat (n.var 9))) ++
    [20, 21, 22].flatMap (fun i => leBytes 4 (att i)) ++ List.replicate 16 0

/-- FOC_STAT, FOC_CNT and FOC_UPD, as reads show them. -/
def Core.focStat (c : Core) (epoch : Nat) : Word :=
  let f := c.hot.foc
  let coast := if f.state = 0 then 0 else min 0xFFFF (epoch - f.lastGood)
  BitVec.ofNat 32 (coast * 2 ^ 16 + ofBool c.aidAct * 2 ^ 7 + ofBool f.aidLost * 2 ^ 6 + f.state)
def Core.focCnt (c : Core) : Word :=
  let f := c.hot.foc
  BitVec.ofNat 32 (min 1023 f.mdrop * 2 ^ 20 + min 1023 f.rej * 2 ^ 10 + min 1023 f.rows)
def Core.focUpd (c : Core) : Word := BitVec.ofNat 32 c.hot.foc.upd

/-! ### Groups 5 and 6 (R179, R180, R182, R196, R197) -/

/-- The FOCUS slots of the running plan. -/
def Core.focusSlots (c : Core) : List SlotEntry := c.slots.filter fun s => s.kind == kFocus

/-- The running image holds a Focus program. -/
def Core.hasFocus (c : Core) : Bool := c.plan.img.has .focusProg

/-- The condition of R180: no FOCUS slot, or every one slower than 50 updates per second. -/
def Core.focusSlow (c : Core) : Bool := c.focusSlots.all fun s => decide (20 < periodOf s.period)

/-- The registers of group 5. -/
def group5Regs : List Nat :=
  [R.FOC_CFG, R.FOC_STSEL_LO, R.FOC_STSEL_HI, R.FOC_LIM0, R.FOC_LIM1, R.FOC_LIM2] ++ (List.range 24).map R.FOC_PAR

/-- The state selection breaks R182. -/
def statesBad (sel refant : Nat) (aiden prog0 : Bool) : Bool :=
  let any := fun (lo hi : Nat) => (List.range (hi - lo + 1)).any fun k => bitOf sel (lo + k)
  let all := fun (lo hi : Nat) => (List.range (hi - lo + 1)).all fun k => bitOf sel (lo + k)
  !all 0 5 || !all 9 10 || bitOf sel (16 + refant) || (any 23 25 && !all 20 22) || (aiden && !(all 20 22 && all 29 34)) ||
    (!aiden && any 29 34) || (prog0 && any 36 39)

/-- The refusal code of a group 5 commit (R179, R182, R196), 0 when it applies. `boundOk` says that the BOUND check of R248 passes
with the staged values. -/
def Core.focRefusal (c : Core) (boundOk : Bool) : Nat :=
  let cfg := c.reg R.FOC_CFG
  let sel := c.fld F.FOC_STSEL_LO.SEL + 2 ^ 32 * c.fld F.FOC_STSEL_HI.SEL
  let aiden := c.flag F.FOC_CFG.AIDEN
  let cost := focusCost (popCount 40 sel) (c.fld F.FOC_CFG.MMAX) (ofBool aiden)
  if bits cfg 31 23 ≠ 0 ∨ bits cfg 4 0 ≠ 0 ∨ bits (c.reg R.FOC_STSEL_HI) 31 8 ≠ 0 ∨ bits (c.reg R.FOC_LIM0) 31 20 ≠ 0 then 1
  else if statesBad sel (c.fld F.FOC_CFG.REFANT) aiden (c.focusSlots.any fun s => s.index == 0) then 2
  else if c.focusSlots.any (fun s => decide (s.length < cost)) ∨ !boundOk then 3
  else if !c.fvsetOk (c.fld F.FOC_CFG.FVSET) then 4
  else if !c.hasFocus then 5
  else if (List.range 15).any (fun n => decide (signedOf 32 (c.reg (R.FOC_PAR n)).toNat < 0)) ∨ c.fld F.FOC_CFG.MMAX = 0 ∨
      c.fld F.FOC_LIM0.FFMAX = 0 ∨ c.fld F.FOC_LIM0.REJMAX = 0 then 6
  else 0

/-- Group 5 applies whole or not at all. -/
def Core.applyGroup5 (c : Core) (boundOk : Bool) : Core :=
  let code := c.focRefusal boundOk
  if code ≠ 0 then (c.setFld F.FOC_CFGERR.CODE code).raise F.FOC_IRQ.CFGERR
  else
    let c1 := c.putInForce group5Regs
    if c1.stsel ≠ c.stsel then c1.onFoc fun f => { f with restart := decide (f.state ≠ 0) } else c1

/-- The staged mode entry of a ply. -/
def Core.modeStaged (c : Core) (p : Nat) : Nat := bits (c.reg (R.FOC_MODE (p / 8))) (4 * (p % 8) + 3) (4 * (p % 8))

/-- The refusal code of a mode entry (R180, R197). -/
def Core.modeRefusal (c : Core) (e : Nat) : Nat :=
  if e % 4 = 3 ∨ 8 ≤ e then 1
  else if !c.hasFocus then 3
  else if e % 4 ≠ 0 ∧ c.focusSlow then 2
  else 0

/-- Group 6 applies: each written entry, or its refusal (R197). -/
def Core.applyGroup6 (c : Core) : Core :=
  let plies := c.plan.modeChg.flatMap fun w => (List.range 8).map fun i => 8 * w + i
  let r := plies.foldl (fun (q : Core × Bool) p =>
    let e := c.modeStaged p
    let code := c.modeRefusal e
    if code = 0 then (q.1.setFocEntry p e, q.2)
    else (q.1.recordRefusal F.FOC_MODEERR.CODE F.FOC_MODEERR.COUNT F.FOC_MODEERR.PLY F.FOC_IRQ.MODEERR (!q.2) code p, true)) (c, false)
  { r.1 with plan := { r.1.plan with modeChg := [] } }

/-- A plan switch that leaves too slow a Focus demotes every vector ply with reason PLAN (R180, R195). -/
def Core.demotePlan (c : Core) : Core :=
  if c.focusSlow then forBelow 1024 (fun c p => if c.vectorPly p then c.demote p 5 0 else c) c else c

/-- RXBASE changed by `d` ms: slot 9 is corrected before the next update (R253). -/
def Core.shiftClock (c : Core) (d : Int) : Core :=
  if d = 0 then c
  else c.onFoc fun f => { f with num := { f.num with x := setAt f.num.x 9 (f.num.slot 9 - lightSpeed * (d : Rat) / 1000) } }

/-- A FOCUS_PROG body's configuration and mode map staged as the load commits of groups 5 and 6 (R202). -/
def Core.stageFocus (c : Core) (b : List Byte) : Core :=
  let w := fun (k : Nat) => BitVec.ofNat 32 (leAt b (16 + 4 * k) 4)
  let c1 := (List.range 6).foldl (fun (c : Core) k => c.setReg (group5Regs.getD k 0) (w k)) c
  let c2 := (List.range 24).foldl (fun (c : Core) k => c.setReg (R.FOC_PAR k) (w (6 + k))) c1
  let c3 := (List.range 128).foldl (fun (c : Core) k => c.setReg (R.FOC_MODE k) (BitVec.ofNat 32 (leAt b (144 + 4 * k) 4))) c2
  { c3 with plan := { c3.plan with modeChg := List.range 128 } }

end Sys2Proof.Machine
end

