-- ==== Sys2Proof/Machine/Prism.lean ====
section
/-! DEFINITION. Prism acquisition (chapter 08): durations, descriptor checks, submission, the steps inside Prism slots, the
non-coherent grid and its peaks, and the verification entries as Distaff writes them. The magnitude of one correlation output is a
constant without a body (log entry 10). -/
namespace Sys2Proof.Machine

/-- The descriptors of accepted jobs, by tag. -/
def prmDescAddr (tag : Nat) : Nat := 0x34200000 + 64 * tag

/-! ### Durations (R205) -/

/-- The hardware bounds for n = 10 to 16: SEARCH, CODE, LOADB for F = 1, 2, 4. -/
def durBounds : List (List Nat) :=
  [[64, 168, 272, 336, 464], [144, 348, 348, 488, 768], [308, 720, 512, 820, 1436], [668, 1488, 872, 1536, 2868],
   [1436, 3072, 1640, 3072, 5940], [3072, 6352, 3280, 6352, 12496], [6556, 13108, 6760, 13312, 26420]]
def loadeBound : Nat := 8192

/-- A PRISM_DUR body is taken: its length and the zeros of its header are right. -/
def durBodyOk (b : List Byte) : Bool := decide (b.length = 156) && zeroAt b 4 12

/-- An entry of a body, rounded up to a multiple of 4 fc. -/
def durEntry (b : List Byte) (o : Nat) : Nat := ceilDiv (leAt b o 4) 4 * 4

/-- A duration in force: the larger of the entry and the bound. -/
def durOf (b : List Byte) (n col : Nat) : Nat :=
  let bound := (durBounds.getD (n - 10) []).getD col 0
  if durBodyOk b then max bound (durEntry b (16 + 20 * (n - 10) + 4 * col)) else bound
def loadeOf (b : List Byte) : Nat := if durBodyOk b then max loadeBound (durEntry b 0) else loadeBound

/-- The entries that a body's load raises to their bound. -/
def durRaised (b : List Byte) : Nat :=
  if durBodyOk b then
    (belowSuch 35 fun k => decide (durEntry b (16 + 4 * k) < (durBounds.getD (k / 5) []).getD (k % 5) 0)).length +
      ofBool (decide (durEntry b 0 < loadeBound))
  else 0

/-- PRM_DURSTAT after a plan load (R205). -/
def Core.setDurStat (c : Core) : Core :=
  let b := c.plan.img.sec .prismDur
  let r := durRaised b
  let c1 := (c.setFld F.PRM_DURSTAT.RAISED r).setFld F.PRM_DURSTAT.DURDEF (ofBool (!durBodyOk b))
  if 0 < r then c1.raise F.PRM_IRQ.DURRAISE else c1

/-- The duration of a step of a job, in fc. -/
def Core.stepDur (c : Core) (d : PrmDesc) (s : PrismStep) : Nat :=
  let b := c.plan.img.sec .prismDur
  match s with
  | .code _ => durOf b d.n 1
  | .load _ => durOf b d.n (2 + d.flog) + d.b * loadeOf b
  | .search _ _ _ _ => durOf b d.n 0

/-- The longest step of a job. -/
def Core.longestStep (c : Core) (d : PrmDesc) : Nat :=
  max (c.stepDur d (.code 0)) (max (c.stepDur d (.load 0)) (c.stepDur d (.search 0 0 0 false)))

/-- The longest Prism slot of the running plan; 0 when it holds none. -/
def Core.longestPrism (c : Core) : Nat := ((c.slots.filter fun s => s.kind == kPrism).map (·.length)).foldl max 0

/-- The Prism island is powered: the running plan holds a PRISM slot (R215). -/
def Core.prismOn (c : Core) : Bool := c.slots.any fun s => s.kind == kPrism

/-- A job's step fits no Prism slot (R50). -/
def Core.tooLong (c : Core) (d : PrmDesc) : Bool := decide (c.longestPrism < c.longestStep d)

/-! ### Descriptor checks (R207) -/

/-- A code names a reserved family, an index out of range, or a Hank entry not valid in force. -/
def Core.prmCodeBad (c : Core) (fam idx : Nat) : Bool :=
  decide (0x18 < fam) || !codeIdxOk fam idx || (c.codeLen fam idx).isNone

/-- The refusal code of a descriptor, 0 when it passes. -/
def Core.prmRefusal (c : Core) (ws : List Word) : Nat :=
  let d := PrmDesc.of ws
  let f := fun k hi lo => bits (wordOf ws k) hi lo
  let js := List.range d.k
  let lens := js.map fun j => (c.codeLen (prmCode ws j).1 (prmCode ws j).2).getD 1
  let cc := d.chips1000 / 1000
  if f 0 31 28 ≠ 0 ∨ f 0 19 17 ≠ 0 ∨ f 1 23 16 ≠ 0 ∨ f 1 7 4 ≠ 0 ∨ (List.range 8).any (fun j => f (8 + j) 31 16 != 0) ∨
      (List.range 8).any (fun j => decide (d.k ≤ j) && (wordOf ws (8 + j)) != 0) then 1
  else if d.n < 10 ∨ 16 < d.n ∨ d.flog = 3 ∨ d.b = 0 ∨ 20 < d.b ∨ d.nnc = 0 ∨ 100 < d.nnc * d.b ∨ d.k = 0 ∨ 8 < d.k then 2
  else if js.any (fun j => c.prmCodeBad (prmCode ws j).1 (prmCode ws j).2) then 3
  else if d.chips1000 % 1000 ≠ 0 ∨ d.pts < cc ∨ lens.any (fun l => cc % l != 0) then 4
  else if d.khi < d.klo ∨ ((d.pts / 2 : Nat) : Int) ≤ d.klo.natAbs ∨ ((d.pts / 2 : Nat) : Int) ≤ d.khi.natAbs then 5
  else if 512 < d.pages then 6
  else if !d.snap ∧ ¬ (c.streamEn d.stream = true ∧ d.b ≤ c.ringLen d.stream) then 7
  else if d.snap ∧ c.fld F.BOB_SNAP_STAT.STATE = 3 ∧ (bitOf c.bob.snapMask d.stream = false ∨ d.sidx0 < tsPerEpoch * c.bob.snapStart ∨
      tsPerEpoch * (c.bob.snapStart + c.bob.snapNep) < d.sidx0 + tsPerEpoch * d.b * d.nnc) then 8
  else 0

/-! ### Submission (R48 to R50, R207) -/

/-- What a submission answers: PRM_SUBRES.CODE and the tag. -/
abbrev SubmitAns := Nat × Nat

/-- A descriptor submitted (R207): refused by its checks, refused by the queue, ended with TOOLONG, or queued with its cursor. -/
def Core.submitPrism (c : Core) (t : Clock) (ws : List Word) : Core × SubmitAns :=
  let d := PrmDesc.of ws
  let code := c.prmRefusal ws
  if code ≠ 0 then (c.raise F.PRM_IRQ.SUBREF, (code, 0))
  else
    match c.submitRefusal 0, c.freeTag with
    | some .full, _ => (c, (0x10, 0))
    | some .classLim, _ => (c, (0x11, 0))
    | none, none => (c, (0x10, 0))
    | none, some tag =>
      let s0 := if d.sidx0 = 0 then tsPerEpoch * (t.epoch + 1) else d.sidx0
      let run : PrismRun := ⟨s0, false, 0, [], [], [], List.replicate d.k accZero, [], 0, false, false⟩
      let mk := fun (cur : Option Cursor) (tag seq : Nat) =>
        ({ tag := tag, cls := 0, seq := seq, prio := d.prio, phase := .queued, desc := ws, cursor := cur, prism := some run,
           total := 0, moved := 0 } : Job)
      let c1 : Core := { c with mem := c.mem.putWords (prmDescAddr tag) ((List.range 16).map (wordOf ws)) }
      if c.tooLong d then ((c1.submitJob (mk none)).endJob t.epoch tag .tooLong, (0, tag))
      else
        let cur := c.openCursor t d.stream s0 d.snap
        let c2 := c1.submitJob (mk (some cur.1))
        match cur.2 with
        | some st => (c2.endJob t.epoch tag st, (0, tag))
        | none => (c2, (0, tag))

/-- A write of PRM_SUBMIT.GO: PRM_SUBRES shows the answer. -/
def Core.prmGo (c : Core) (t : Clock) : Core :=
  let r := c.submitPrism t ((List.range 16).map fun k => c.reg (R.PRM_JD k))
  ((r.1.setFld F.PRM_SUBRES.VALID 1).setFld F.PRM_SUBRES.CODE r.2.1).setFld F.PRM_SUBRES.TAG r.2.2

/-- Every Prism job that a new plan has no slot for ends with TOOLONG (R50). -/
def Core.endTooLong (c : Core) (epoch : Nat) : Core :=
  c.plan.jobs.foldl (fun c j =>
    if j.cls = 0 ∧ j.live ∧ c.tooLong (PrmDesc.of j.desc) then c.endJob epoch j.tag .tooLong else c) c

/-! ### Steps inside a slot (R204, R209) -/

/-- A change of Prism's own state. -/
def Core.onPrm (c : Core) (f : PrismSt → PrismSt) : Core := { c with prm := f c.prm }

/-- Idle fc of Prism slots accumulate in PRM_IDLE. -/
def Core.prmIdle (c : Core) (n : Nat) : Core := c.countSat F.PRM_IDLE.FC n

/-- A Prism slot opens. -/
def Core.openPrism (c : Core) (s : SlotEntry) : Core :=
  c.onPrm fun p => { p with slot := some s.last, seen := s.start }

/-- The time of the open slot up to an fc accounted as idle while no step runs; past its end the slot closes. -/
def Core.prmSettle (c : Core) (fc : Nat) : Core :=
  match c.prm.slot, c.prm.busy with
  | some last, none =>
    let upTo := min fc (last + 1)
    let c1 := c.prmIdle (upTo - c.prm.seen)
    c1.onPrm fun p => { p with seen := max p.seen upTo, slot := if last < fc then none else some last }
  | _, _ => c

/-- The samples of a job's block are wholly written (R209). -/
def blockWritten (t : Clock) (d : PrmDesc) (r : PrismRun) (b : Nat) : Bool :=
  decide (r.sidx0 + tsPerEpoch * d.b * (b + 1) ≤ t.sidx)

/-- A job's next step is ready (R209). -/
def Core.stepReady (c : Core) (t : Clock) (j : Job) : Bool :=
  match j.prism with
  | some r =>
    let d := PrmDesc.of j.desc
    (r.begun || decide (d.pages ≤ c.fld F.PRM_STAT.FREEPG)) &&
      (match d.step r.next with
       | .load b => d.snap || blockWritten t d r b
       | _ => true)
  | none => false

/-- One job goes before another: higher priority, then begun, then earlier (R50). -/
def jobBefore (a b : Job) : Bool :=
  let begun := fun (j : Job) => (j.prism.map (·.begun)).getD false
  if a.prio ≠ b.prio then decide (b.prio < a.prio)
  else if begun a ≠ begun b then begun a
  else decide (a.seq < b.seq)

/-- The first job whose next step is ready, in the order of R50. -/
def Core.nextPrism (c : Core) (t : Clock) : Option Job :=
  (c.plan.jobs.filter fun j => j.cls == 0 && j.live && c.stepReady t j).foldl (fun best j =>
    match best with
    | some b => if jobBefore j b then some j else some b
    | none => some j) none

/-- The code of a running step (PRM_STAT.STEP). -/
def PrismStep.num : PrismStep → Nat
  | .code _ => 1 | .load _ => 2 | .search _ _ _ _ => 3

/-- A step opportunity (R204, R209): the chosen step starts when it fits the rest of the slot; else the slot stays idle to its end. -/
def Core.prismStart (c : Core) (t : Clock) : Core :=
  let c0 := c.prmSettle t.fc
  match c0.prm.slot, c0.prm.busy with
  | some last, none =>
    match c0.nextPrism t with
    | some j =>
      let d := PrmDesc.of j.desc
      let r := j.prism.getD ⟨d.sidx0, false, 0, [], [], [], [], [], 0, false, false⟩
      let s := d.step r.next
      let dur := c0.stepDur d s
      if t.fc + dur ≤ last + 1 then
        let c1 := (c0.setJob { j with phase := .running, prism := some { r with begun := true } }).countPages
        (((c1.onPrm fun p => { p with busy := some ⟨j.tag, t.fc + dur⟩, era := p.era + 1 }).setFld F.PRM_STAT.RUN 1).setFld F.PRM_STAT.STEP s.num).setFld
          F.PRM_STAT.TAG j.tag
      else c0.prmSettle (last + 1)
    | none => c0
  | _, _ => c0

/-! ### What the steps compute (R210 to R213) -/

/-- Sample `i` of a stream in its ring, or in the snapshot. -/
def Core.sampleAt (c : Core) (snap : Bool) (n i : Nat) : Byte :=
  let e := i / tsPerEpoch
  let page :=
    if snap then
      let rank := (belowSuch n fun m => bitOf c.bob.snapMask m).length
      some (rank * c.bob.snapNep + (e - c.bob.snapStart))
    else ((c.stream n).wrote.find? fun w => w.epoch == e).bind fun w => c.ringPage n w.pos
  match page with
  | some p => c.mem.read (pageAddr p + i % tsPerEpoch)
  | none => 0

/-- Whether a block holds zero-filled and TSG samples (R210). -/
def Core.blockFlags (c : Core) (d : PrmDesc) (first count : Nat) : Bool × Bool :=
  let meets := fun (a b : Nat) => decide (a < first + count ∧ first < b)
  if d.snap then
    (c.bob.snapZf.any fun z => z.1 == d.stream && meets z.2.1 z.2.2,
     c.bob.snapTsgs.any fun z => z.1 == d.stream && meets (tsPerEpoch * z.2) (tsPerEpoch * (z.2 + 1)))
  else
    let ws := (c.stream d.stream).wrote.filter fun w => meets (tsPerEpoch * w.epoch) (tsPerEpoch * (w.epoch + 1))
    (ws.any fun w => w.zf.any fun z => meets (tsPerEpoch * w.epoch + z.1) (tsPerEpoch * w.epoch + z.2), ws.any (·.tsg))

/-- Point `a` lies in the exclusion zone of point `b` (R213). -/
def inZone (pts radius a b : Nat) : Bool :=
  let d := (a + pts - b % pts) % pts
  decide (d ≤ radius ∨ pts - d ≤ radius)

/-- One cell written with its new value (R213). -/
def PrismAcc.cell (x : PrismAcc) (pts radius i f : Nat) (k : Int) (v : Nat) (satd : Bool) : PrismAcc :=
  let y := { x with sum := x.sum + v, sat := x.sat || satd }
  if y.peak < v then
    let s1 := if !inZone pts radius i y.peakI then (y.peak, y.peakI) else (y.second, y.secondI)
    let s2 := if inZone pts radius s1.2 i then (0, s1.2) else s1
    { y with peak := v, peakI := i, peakF := f, peakK := k, second := s2.1, secondI := s2.2 }
  else if y.second < v ∧ !inZone pts radius i y.peakI then { y with second := v, secondI := i }
  else y

/-- f_code of a job, in chips/s (R211). -/
def PrmDesc.codeRate (d : PrmDesc) : Rat := (d.knom : Rat) + scaled d.kaid 32 * scaled d.fc 4

/-- The 48-bit increment of the mixing NCO for fraction `f` (R211): IF + FC + f × Δ_b / F. -/
def PrmDesc.mixInc (d : PrmDesc) (ifHz : Int) (f : Nat) : Nat :=
  unsignedOf 48 (roundRat (((ifHz : Rat) + scaled d.fc 4 + (f : Rat) * 1000 / ((d.b * d.fracs : Nat) : Rat)) * rateUnit))

/-- A SEARCH step over its N cells (R212, R213). -/
def searchCells (d : PrmDesc) (r : PrismRun) (j f : Nat) (k : Int) : PrismRun :=
  let radius := ceilDiv (d.pts * 1000) d.chips1000
  let base := ((j * d.fracs + f) * d.shifts + (k - d.klo).toNat) * d.pts
  let code := r.codes.getD j ⟨[], 0⟩
  let mix := r.mixes.getD f ⟨0, 0, []⟩
  let a0 := (r.accs.getD j accZero)
  let a1 := if f = 0 ∧ k = d.klo then a0.restart else a0
  let g := (List.range d.pts).foldl (fun (q : AddrMap Nat × PrismAcc) i =>
    let mag := if code.chips = [] then 0 else (Config.prismMag d.pts mix code k i).toNat
    let raw := mapGet (fun _ => 0) q.1 (base + i) + mag / 2 ^ d.gsh
    let v := min 0xFFFF raw
    (mapPut (fun _ => 0) q.1 (base + i) v, q.2.cell d.pts radius i f k v (decide (0xFFFF < raw)))) (r.grid, a1)
  { r with grid := g.1, accs := setAt r.accs j g.2 }

/-- A step's effect on its job. -/
def Core.prismEffect (c : Core) (j : Job) (r : PrismRun) (s : PrismStep) : PrismRun :=
  let d := PrmDesc.of j.desc
  match s with
  | .code i =>
    let cd := prmCode j.desc i
    match c.codeLen cd.1 cd.2 with
    | some l => { r with codes := r.codes ++ [⟨(List.range l).map (c.chip cd.1 cd.2), d.codeRate⟩] }
    | none => { r with codes := r.codes ++ [⟨[], d.codeRate⟩], accs := setAt r.accs i { r.accs.getD i accZero with nocode := true } }
  | .load b =>
    let first := r.sidx0 + tsPerEpoch * d.b * b
    let fl := c.blockFlags d first (tsPerEpoch * d.b)
    let samples := (List.range (tsPerEpoch * d.b)).map (fun i => c.sampleAt d.snap d.stream (first + i))
    { r with mixes := (List.range d.fracs).map fun f => ⟨b, d.mixInc (c.ifHz d.stream) f, samples⟩,
             zf := r.zf || fl.1, tsg := r.tsg || fl.2 }
  | .search i f k lastOf =>
    let r1 := searchCells d r i f k
    if lastOf then { r1 with lastAccs := r1.accs, nbdone := r1.nbdone + 1 } else r1

/-- The engine after a step's end. -/
def Core.prismFree (c : Core) (b : PrismBusy) : Core :=
  (((c.onPrm fun p => { p with busy := none, seen := b.ends, era := p.era + 1 }).setFld F.PRM_STAT.RUN 0).setFld F.PRM_STAT.STEP 0).setFld F.PRM_STAT.TAG 0

/-- The samples of a block at which a cursor comes to another page: the first, and the first of each further epoch. -/
def blockPoints (first len : Nat) : List Nat :=
  first :: ((List.range (len / tsPerEpoch + 1)).map fun i => (first / tsPerEpoch + 1 + i) * tsPerEpoch).filter fun i => decide (i < first + len)

/-- When a LOAD that ends at `t` reads the sample at an offset of its block: one epoch of samples takes LOADE, from the step's start on (log
entry 173). -/
def Core.readAt (c : Core) (t : Clock) (d : PrmDesc) (o : Nat) : Clock :=
  { t with fc := t.fc - c.stepDur d (.load 0) + o * loadeOf (c.plan.img.sec .prismDur) / tsPerEpoch }

/-- A cursor after a LOAD of a block (R102, R210): stopped at the first sample on a page that is lost or overtaken when it is read, else
moved on to the next block's first sample. -/
def Core.loadCursor (c : Core) (t : Clock) (d : PrmDesc) (u : Cursor) (first : Nat) : Cursor × Option JobStatus :=
  let len := tsPerEpoch * d.b
  let move := fun (i : Nat) => ({ u with next := i, offset := ((c.stream u.stream).offsetOf i).map (·.1), waiting := false } : Cursor)
  let rule := fun (i : Nat) => c.cursorRule (c.readAt t d (i - first)) (move i)
  let stops := fun (i : Nat) => decide (rule i = .lost ∨ rule i = .overtaken)
  match (blockPoints first len).find? stops with
  | some i =>
    if rule i = .lost then ({ move i with lost := true }, some .lost) else ({ move i with ovtk := true }, some .overtaken)
  | none =>
    let v := move (first + len)
    if u.snap then (v, none)
    else if t.sidx ≤ v.next then ({ v with waiting := true }, none)
    else if !(c.stream u.stream).holds t.sidx v.next then ({ v with ovtk := true }, some .overtaken)
    else (v, none)

/-- The running step ends after its duration (R204): its results are stored; a cancelled job ends with ABORTED, a job after its last
step with OK; a LOAD moves the job's cursor on, and one whose samples are lost or overtaken ends the job, its block discarded (R210). -/
def Core.prismComplete (c : Core) (t : Clock) : Core :=
  match c.prm.busy with
  | none => c
  | some b =>
    let c0 := c.prismFree b
    match c0.job b.tag with
    | none => c0
    | some j =>
      match j.prism with
      | none => c0
      | some r =>
        let d := PrmDesc.of j.desc
        let s := d.step r.next
        let r1 := { c0.prismEffect j r s with next := r.next + 1 }
        let c1 := c0.setJob { j with prism := some r1 }
        if !j.live then c0
        else if j.phase = .cancelling then c1.endJob t.epoch b.tag .aborted
        else if d.steps ≤ r1.next then c1.endJob t.epoch b.tag .ok
        else
          match s, j.cursor with
          | .load k, some u =>
            match c0.loadCursor t d u (r.sidx0 + tsPerEpoch * d.b * k) with
            | (v, some st) => (c0.setJob { j with cursor := some v }).endJob t.epoch b.tag st
            | (v, none) => c0.setJob { j with prism := some r1, cursor := some v }
          | _, _ => c1

/-- The end of the running step, with the errors that its memories met (R215, R334): `corrected` counts those corrected; an uncorrectable
one, in Bobbin where `lost` says so and the step is a LOAD, ends the job with FAULT. -/
def Core.prismEnd (c : Core) (t : Clock) (corrected : Nat) (lost : Option Bool) : Core :=
  match c.prm.busy with
  | none => c
  | some b =>
    let c1 := (c.countSat F.PRM_STAT.ECC corrected).countSat F.MIR_ECC.CORR corrected
    match lost with
    | some bobbin => ((c1.prismFree b).uncorrectable (if bobbin && decide (c.fld F.PRM_STAT.STEP = 2) then 4 else 5)).endJob t.epoch b.tag .fault
    | none => c1.prismComplete t

/-! ### Verification entries as Distaff writes them (R216) -/

/-- Both copies of the pairs' state: what Distaff writes is not rolled back. -/
def Core.onHotBoth (c : Core) (f : Hot → Hot) : Core := { c with hot := f c.hot, ckpt := f c.ckpt }

/-- A write of word 0 or 1 of a verification entry (R216): it restarts a running verification, and word 0 with VEN = 1 resets words 2
and 3. Writes to words 2 and 3 are discarded. -/
def Core.writeVerify (c : Core) (p k : Nat) (w : Word) : Core :=
  if 2 ≤ k then c
  else c.onHotBoth fun h =>
    let m1 := h.mem.putWord (verEntry p + 4 * k) (if k = 0 then putBits w 28 24 0 else w)
    let m2 := if k = 0 ∧ bits w 31 31 = 1 then m1.putWords (verEntry p + 8) [0, 0] else m1
    let x := mapGet (fun _ => plyZero) h.plies p
    { h with mem := m2, plies := mapPut (fun _ => plyZero) h.plies p { x with vsp := 0, vsn := 0, vx := [] } }

end Sys2Proof.Machine
end

