-- ==== Sys2Proof/Machine/Loupe.lean ====
section
/-! DEFINITION. The Loupe slices (chapter 09): registers, the exposed pipeline, every operation of R225, loops, branches,
interrupts and the running of a program. -/
namespace Sys2Proof.Machine

/-! ### Table windows (R237, R498) -/

/-- A word written to a ply's status record (R237): the fields it encodes. -/
def PlySt.setWord (x : PlySt) (k : Nat) (w : Word) : PlySt :=
  let s := fun n lo => signedOf n (bits w (lo + n - 1) lo)
  match k with
  | 0 => { x with
      state := bits w 3 0, mode := bits w 7 4, wcset := bits w 14 8, hcu := bits w 15 15 = 1, bsync := bits w 16 16 = 1,
      msync := bits w 17 17 = 1, slipf := bits w 19 19 = 1, hcp := bits w 20 20 = 1, cn0Ok := bits w 18 18 = 1,
      nwin := if bits w 18 18 = 1 then max 16 x.nwin else x.nwin }
  | 1 => { x with cn0 := ((bits w 31 16 : Nat) : Rat) / 100, pli := scaled (s 16 0) 15 }
  | 2 => { x with fli := (s 32 0 : Rat) / 1000 }
  | 3 => { x with missed := bits w 31 16, slips := bits w 15 0 }
  | 4 => { x with lockt := w.toNat }
  | 5 => { x with tentry := w.toNat }
  | 6 => { x with lastEp := w.toNat }
  | 7 => { x with integ := { x.integ with x2 := scaled (s 32 0) 12 } }
  | 8 => { x with integ := { x.integ with x3 := scaled (s 32 0) 12 } }
  | 9 => { x with integ := { x.integ with xd := scaled (s 32 0) 16 } }
  | 10 => { x with ek := scaled (s 16 16) 14, ephi := scaled (s 16 0) 16 }
  | 11 => { x with bsofs := w.toNat }
  | _ => x

/-- A word of the windows at 0x3000_0000 to 0x310F_FFFF as a read returns it, apart from the access rule of powered-down islands:
the live view, the tables in force, the status records, and memory for the rest. -/
def Core.tableWord (c : Core) (a : Nat) : Word :=
  if inRange 0x30020000 0x60000 a || inRange 0x30080000 0x2000 a || inRange 0x31090000 0x4000 a || inRange 0x310A0000 0x400 a ||
      inRange 0x310C0000 0x4000 a then c.hot.mem.word a
  else if inRange 0x31010000 0x10000 a || inRange 0x31021000 0x800 a || inRange 0x31031000 0x200 a then c.force.reg a
  else if inRange 0x31040000 0x10000 a then ((c.ply ((a - 0x31040000) / 64)).record).getD (a % 64 / 4) 0
  else c.mem.word a

/-- The word the access rule returns for a powered-down island (R112). -/
def accessWord : Word := 0x0FF00FF0#32

/-- The skein whose data a strand or ply window address shows, where it lies in a skein's island (R112): live view, dump records,
status records. -/
def skeinOfAddr (a : Nat) : Option Nat :=
  if inRange 0x30020000 0x20000 a then some ((a - 0x30020000) / 64 / 256)
  else if inRange 0x30040000 0x40000 a then some ((a - 0x30040000) / 128 / 256)
  else if inRange 0x31040000 0x10000 a then some ((a - 0x31040000) / 64 / 128)
  else none

/-! ### A slice's registers (R222) -/

def sliceZero : SliceSt :=
  { regs := [], accs := Vector.replicate 4 0, flight := [], t0 := 0, now := 0, issued := 0, width := 1, ends := .plain, pc := 0,
    branch := 0, target := none,
    prog := 0, kind := 0, irqs := 0, flagPend := false, dbCode := 0, epo := 0, rerun := none }

def Core.slice (c : Core) (k : Nat) : SliceSt := mapGet (fun _ => sliceZero) c.hot.slices k

def Core.setSlice (c : Core) (k : Nat) (x : SliceSt) : Core :=
  c.onHot fun h => { h with slices := mapPut (fun _ => sliceZero) h.slices k x }

def Core.onSlice (c : Core) (k : Nat) (f : SliceSt → SliceSt) : Core := c.setSlice k (f (c.slice k))

def idSst : Nat := 56
def idIpc : Nat := 57
def idIsst : Nat := 58

/-- A register as an operand reads it (R222); g0 and the accumulators' IDs read zero. -/
def Core.sreg (c : Core) (k id : Nat) : Word :=
  let x := c.slice k
  if id = 0 ∨ (40 ≤ id ∧ id < 44) then 0
  else if id = 59 then BitVec.ofNat 32 (k + x.kind * 2 ^ 4 + x.dbCode * 2 ^ 8)
  else if id = 60 then BitVec.ofNat 32 x.epo
  else if id = 61 then (if k < 8 then BitVec.ofNat 32 (c.uply k) else 0)
  else if id = 62 then (if k = 8 then BitVec.ofNat 32 (popCount 40 c.stsel) else 0)
  else if id = 63 then
    (if k = 8 then BitVec.ofNat 32 (c.inForce F.FOC_CFG.MMAX + 2 ^ 16 * c.inForce F.FOC_CFG.AIDEN) else 0)
  else mapGet (fun _ => 0) x.regs id

/-- The bits of a register that a write sets: loop counters hold 17, SST's INH and reserved bits are read only. -/
def sregWritten (id : Nat) (old w : Word) : Word :=
  if 44 ≤ id ∧ id < 48 then BitVec.ofNat 32 (bits w 16 0)
  else if id = idSst then (old &&& 0x200#32) ||| (w &&& 0x1FF#32)
  else w

/-- A register written, raw: read-only IDs, g0 and the accumulators' IDs ignore it. -/
def SliceSt.put (x : SliceSt) (id : Nat) (w : Word) : SliceSt :=
  if id = 0 ∨ (40 ≤ id ∧ id < 44) ∨ 59 ≤ id then x else { x with regs := mapPut (fun _ => 0) x.regs id w }

def SliceSt.sst (x : SliceSt) : Nat := (mapGet (fun _ => 0) x.regs idSst : Word).toNat

/-- SST written by an operation or a flag: a sticky flag that becomes set is shown in LPE_SLSTATk and raises FLAG, and with FIE
set makes the FLAG interrupt pending (R240). -/
def Core.setSst (c : Core) (k v : Nat) : Core :=
  let x := c.slice k
  let rose := fun b => bitOf v b && !bitOf x.sst b
  let c1 := c.setSlice k { x.put idSst (BitVec.ofNat 32 v) with
    flagPend := x.flagPend || ((rose 2 || rose 3 || rose 8) && bitOf v 1) }
  let c2 := applyIf (rose 2) (fun c => c.sliceErr (F.LPE_SLSTAT.GOVS k) F.LPE_IRQ.FLAG) c1
  let c3 := applyIf (rose 3) (fun c => c.sliceErr (F.LPE_SLSTAT.SATS k) F.LPE_IRQ.FLAG) c2
  applyIf (rose 8) (fun c => c.sliceErr (F.LPE_SLSTAT.DZS k) F.LPE_IRQ.FLAG) c3

/-! ### DMEM and the global port (R221, R237) -/

def dmemBase (k : Nat) : Nat := 0x31440000 + 0x80000 * k
def dmemSize (k : Nat) : Nat := if k = 8 then 262144 else 65536

/-- A DMEM word; addresses wrap modulo the DMEM size. -/
def Core.dmemWord (c : Core) (k a : Nat) : Word :=
  BitVec.ofNat 32 (leNat ((List.range 4).map fun i => c.hot.mem.read (dmemBase k + (a + i) % dmemSize k)))

def Memory.putDmem (m : Memory) (k a : Nat) (w : Word) : Memory :=
  (List.range 4).foldl (fun m i =>
    m.write (dmemBase k + (a + i) % dmemSize k) (BitVec.ofNat 8 (w.toNat / 256 ^ i))) m

/-- The words of the replay overlay that a store to bus address `a` needs (R326). -/
def Core.overlay (c : Core) (k a : Nat) : Core :=
  c.onSlice k fun x => { x with rerun := x.rerun.map fun r => { r with wrote := insertNat (a / 4) (insertNat ((a + 3) / 4) r.wrote) } }

def Core.putDmem (c : Core) (k a : Nat) : List Word → Core
  | [] => c
  | w :: r => ((c.overlay k (dmemBase k + a % dmemSize k)).onHot fun h => { h with mem := h.mem.putDmem k a w }).putDmem k (a + 4) r

/-- The replay overlay of slice `k` is full: 16 KiB, for slice 8 64 KiB (R326). -/
def Core.overlayFull (c : Core) (k : Nat) : Bool :=
  match (c.slice k).rerun with
  | some r => decide ((if k = 8 then 16384 else 4096) < r.wrote.length)
  | none => false

/-- A global address the slice may read (R237). -/
def gldOk (k a : Nat) : Bool :=
  inRange 0x30000000 0x80000 a || inRange 0x31000000 0x31200 a || inRange 0x31040000 0x10000 a || inRange 0x31080000 0x10000 a ||
  inRange 0x310C0000 0x4000 a || (decide (k < 8) && (inRange 0x31090000 0x4000 a || inRange 0x310A0000 0x400 a))

/-- A global address the slice may write. -/
def gstOk (k a : Nat) : Bool :=
  if k = 8 then inRange 0x31090000 0x4000 a || inRange 0x310A0000 0x400 a
  else inRange (plyStatus (128 * k)) 0x2000 a || (inRange (verEntry (128 * k)) 0x800 a && decide (8 ≤ a % 16))

def Core.globErr (c : Core) (k : Nat) : Core := c.sliceErr (F.LPE_SLSTAT.GERR k) F.LPE_IRQ.GERR

/-- GLD's word; the live view and dump records of a powered-down skein follow the access rule. -/
def Core.gldWord (c : Core) (k a : Nat) : Word :=
  if ¬ gldOk k a then 0
  else
    match if a < 0x30080000 then skeinOfAddr a else none with
    | some j => if c.islandOn j then c.tableWord a else accessWord
    | none => c.tableWord a

/-- GST's effect at the end of its fc: the slice's own status records and verification words, Focus windows, and the feed-forward
back buffer. -/
def Core.gstPut (c : Core) (k a : Nat) (w : Word) : Core :=
  let c1 := c.overlay k (a / 4 * 4)
  if ¬ gstOk k a then c.globErr k
  else if inRange 0x31040000 0x10000 a then
    let p := (a - 0x31040000) / 64
    c1.setPly p ((c.ply p).setWord (a % 64 / 4) w)
  else if inRange 0x31090000 0x4000 a then c1.onFoc fun f => { f with back := f.back.putWord (a / 4 * 4) w }
  else c1.onHot fun h => { h with mem := h.mem.putWord (a / 4 * 4) w }

/-! ### Results and their landing (R226 to R229) -/

/-- A result put in flight, in order of fc and then of field. -/
def insertFlight (f : Flight) : List Flight → List Flight
  | [] => [f]
  | g :: r => if f.due < g.due ∨ (f.due = g.due ∧ f.field < g.field) then f :: g :: r else g :: insertFlight f r

def Core.send (c : Core) (k field lat : Nat) (e : SliceEff) : Core :=
  c.onSlice k fun x => { x with flight := insertFlight { due := x.now + lat, field := field, eff := e } x.flight }

/-- The registers that a result writes as its operation's own: SST for EI, DI, CLRF and a loop start, which sets LACT; the loop registers.
A sticky flag set beside a result is no result. -/
def SliceEff.dests : SliceEff → List Nat
  | .reg id _ => [id]
  | .sst clr set => if clr ≠ 0 ∨ set = 1 then [idSst] else []
  | .loop lvl _ _ _ act => [44 + lvl, 48 + lvl, 52 + lvl] ++ (if act then [idSst] else [])
  | _ => []

/-- Two results reach one register. MAC and MSU products on one accumulator add and do not collide (R228). -/
def SliceEff.collides : SliceEff → SliceEff → Bool
  | .acc a _, .acc b _ => a == b
  | .acc a _, .mac b _ => a == b
  | .mac a _, .acc b _ => a == b
  | e, f => e.dests.any f.dests.contains

/-- One result takes effect. A product that takes the true sum beyond 48 bits wraps and sets GOV (R231). -/
def Core.landOne (c : Core) (k : Nat) : SliceEff → Core
  | .reg id w => if id = idSst then c.setSst k (sregWritten id (c.sreg k id) w).toNat
      else c.onSlice k fun x => x.put id (sregWritten id 0 w)
  | .acc a v => c.onSlice k fun x => { x with accs := putAt x.accs a v }
  | .mac a p =>
    let sum := signedOf 48 (vecAt 0 (c.slice k).accs a) + p
    let c1 := c.onSlice k fun x => { x with accs := putAt x.accs a (unsignedOf 48 sum) }
    if satSigned 48 sum = sum then c1 else c1.setSst k ((c1.slice k).sst ||| 4)
  | .sst clr set => c.setSst k (((c.slice k).sst &&& (1023 - clr)) ||| set)
  | .mem a ws => c.putDmem k a ws
  | .glob a w => c.gstPut k a w
  | .loop lvl start stop count act => c.onSlice k fun x =>
      let x1 := ((x.put (48 + lvl) (BitVec.ofNat 32 start)).put (52 + lvl) (BitVec.ofNat 32 stop)).put (44 + lvl) (BitVec.ofNat 32 count)
      if act then x1.put idSst (BitVec.ofNat 32 (x1.sst ||| 2 ^ (4 + lvl))) else x1

/-- The results that land in order: of those that reach one register in one fc the earliest field of C, M, Y, X wins, and WCOL is
set (R227). -/
def Core.landList (c : Core) (k : Nat) : List Flight → Core
  | [] => c
  | f :: r =>
    if r.any fun g => g.due == f.due && f.eff.collides g.eff then
      (c.sliceErr (F.LPE_SLSTAT.WCOL k) F.LPE_IRQ.WCOL).landList k r
    else (c.landOne k f.eff).landList k r

/-- Every result due by an fc lands. -/
def Core.land (c : Core) (k upto : Nat) : Core :=
  let l := (c.slice k).flight
  let c1 := c.onSlice k fun x => { x with flight := x.flight.filter fun f => decide (upto < f.due) }
  c1.landList k (l.filter fun f => decide (f.due ≤ upto))

/-- The slice waits until its last result has landed. -/
def Core.landAll (c : Core) (k : Nat) : Core :=
  let last := (c.slice k).flight.foldl (fun m f => max m f.due) (c.slice k).now
  (c.land k last).onSlice k fun x => { x with now := max x.now last }

/-! ### Operands (R224) -/

def fD (w : Word) : Nat := bits w 23 18
def fA (w : Word) : Nat := bits w 17 12
def fB (w : Word) : Nat := bits w 11 6
def fC (w : Word) : Nat := bits w 5 0
def fSimm (w : Word) : Int := signedOf 12 (bits w 11 0)

/-- A signed value of a word. -/
def sw (w : Word) : Int := signedOf 32 w.toNat

def ofInt32 (i : Int) : Word := BitVec.ofNat 32 (unsignedOf 32 i)

/-- An address plus a signed offset, as a slice's address register holds it. -/
def addOfs (a : Word) (i : Int) : Word := a + ofInt32 i

/-- A register result. -/
def Core.result (c : Core) (k field lat : Nat) (w v : Word) : Core := c.send k field lat (.reg (fD w) v)

/-- A result with sticky SST bits set beside it. -/
def Core.resultFlag (c : Core) (k field lat : Nat) (w v : Word) (set : Bool) (bit : Nat) : Core :=
  let c1 := c.result k field lat w v
  if set then c1.send k field lat (.sst 0 bit) else c1

/-- A saturated 32-bit or 16-bit result (R225, R232). -/
def Core.resultSat (c : Core) (k field lat n : Nat) (w : Word) (i : Int) : Core :=
  c.resultFlag k field lat w (ofInt32 (satSigned n i)) (decide (satSigned n i ≠ i)) 8

/-! ### The operations of the X and Y fields -/

def Core.opAdd (c : Core) (k f : Nat) (w : Word) : Core := c.result k f 1 w (c.sreg k (fA w) + c.sreg k (fB w))
def Core.opAdds (c : Core) (k f : Nat) (w : Word) : Core := c.resultSat k f 1 32 w (sw (c.sreg k (fA w)) + sw (c.sreg k (fB w)))
def Core.opSub (c : Core) (k f : Nat) (w : Word) : Core := c.result k f 1 w (c.sreg k (fA w) - c.sreg k (fB w))
def Core.opAddi (c : Core) (k f : Nat) (w : Word) : Core := c.result k f 1 w (addOfs (c.sreg k (fA w)) (fSimm w))
def Core.opAnd (c : Core) (k f : Nat) (w : Word) : Core := c.result k f 1 w (c.sreg k (fA w) &&& c.sreg k (fB w))
def Core.opOr (c : Core) (k f : Nat) (w : Word) : Core := c.result k f 1 w (c.sreg k (fA w) ||| c.sreg k (fB w))
def Core.opXor (c : Core) (k f : Nat) (w : Word) : Core := c.result k f 1 w (c.sreg k (fA w) ^^^ c.sreg k (fB w))
def Core.opShl (c : Core) (k f : Nat) (w : Word) : Core := c.result k f 1 w (c.sreg k (fA w) <<< bits (c.sreg k (fB w)) 4 0)
def Core.opShra (c : Core) (k f : Nat) (w : Word) : Core :=
  c.result k f 1 w ((c.sreg k (fA w)).sshiftRight (bits (c.sreg k (fB w)) 4 0))
def Core.opShrl (c : Core) (k f : Nat) (w : Word) : Core := c.result k f 1 w (c.sreg k (fA w) >>> bits (c.sreg k (fB w)) 4 0)
def Core.opMovi (c : Core) (k f : Nat) (w : Word) : Core := c.result k f 1 w (ofInt32 (signedOf 18 (bits w 17 0)))
def Core.opMovhi (c : Core) (k f : Nat) (w : Word) : Core :=
  c.result k f 1 w (BitVec.ofNat 32 (bits w 17 0 * 2 ^ 14 + bits (c.sreg k (fD w)) 13 0))
def Core.opMin (c : Core) (k f : Nat) (w : Word) : Core :=
  c.result k f 1 w (ofInt32 (min (sw (c.sreg k (fA w))) (sw (c.sreg k (fB w)))))
def Core.opMax (c : Core) (k f : Nat) (w : Word) : Core :=
  c.result k f 1 w (ofInt32 (max (sw (c.sreg k (fA w))) (sw (c.sreg k (fB w)))))
def Core.opAbs (c : Core) (k f : Nat) (w : Word) : Core := c.resultSat k f 1 32 w ((sw (c.sreg k (fA w))).natAbs : Int)

/-- CMP's conditions. -/
def cmpHolds (cc : Nat) (a b : Word) : Bool :=
  match cc with
  | 0 => decide (a = b)
  | 1 => decide (a ≠ b)
  | 2 => decide (sw a < sw b)
  | 3 => decide (sw b ≤ sw a)
  | 4 => decide (a.toNat < b.toNat)
  | _ => decide (b.toNat ≤ a.toNat)

def Core.opCmp (c : Core) (k f : Nat) (w : Word) : Core :=
  c.result k f 1 w (BitVec.ofNat 32 (ofBool (cmpHolds (fC w) (c.sreg k (fA w)) (c.sreg k (fB w)))))
def Core.opSel (c : Core) (k f : Nat) (w : Word) : Core :=
  c.result k f 1 w (if c.sreg k (fC w) ≠ 0 then c.sreg k (fA w) else c.sreg k (fB w))
def Core.opMov (c : Core) (k f : Nat) (w : Word) : Core := c.result k f 1 w (c.sreg k (fA w))
def Core.opMul (c : Core) (k f : Nat) (w : Word) : Core :=
  c.result k f 3 w (ofInt32 (sw (c.sreg k (fA w)) * sw (c.sreg k (fB w))))
def Core.opMulh (c : Core) (k f : Nat) (w : Word) : Core :=
  c.result k f 3 w (ofInt32 (asr (sw (c.sreg k (fA w)) * sw (c.sreg k (fB w))) 32))

/-- One signed half of a register. -/
def halfOf (v : Word) (hi : Bool) : Int := signedOf 16 (if hi then bits v 31 16 else bits v 15 0)

/-- The product of two selected halves (R225). -/
def Core.halfProduct (c : Core) (k : Nat) (w : Word) : Int :=
  halfOf (c.sreg k (fA w)) (bitOf (fC w) 0) * halfOf (c.sreg k (fB w)) (bitOf (fC w) 1)

def Core.opMac (c : Core) (k f : Nat) (w : Word) : Core := c.send k f 3 (.mac (fD w - 40) (c.halfProduct k w))
def Core.opMsu (c : Core) (k f : Nat) (w : Word) : Core := c.send k f 3 (.mac (fD w - 40) (-(c.halfProduct k w)))
def Core.opClra (c : Core) (k f : Nat) (w : Word) : Core := c.send k f 1 (.acc (fD w - 40) 0)

/-- An accumulator's raw value. -/
def Core.sacc (c : Core) (k a : Nat) : Nat := vecAt 0 (c.slice k).accs a

def Core.opSta (c : Core) (k f : Nat) (w : Word) : Core :=
  c.resultSat k f 1 32 w (asr (signedOf 48 (c.sacc k (fA w - 40))) (fC w % 32))
def Core.opStah (c : Core) (k f : Nat) (w : Word) : Core :=
  c.resultSat k f 1 16 w (asr (signedOf 48 (c.sacc k (fA w - 40))) (fC w % 32))
def Core.opRda (c : Core) (k f : Nat) (w : Word) : Core :=
  let v := c.sacc k (fA w - 40)
  c.result k f 1 w (if fC w = 0 then BitVec.ofNat 32 v else ofInt32 (signedOf 16 (v / 2 ^ 32)))
def Core.opWra (c : Core) (k f : Nat) (w : Word) : Core :=
  c.send k f 1 (.acc (fD w - 40) (bits (c.sreg k (fA w)) 15 0 * 2 ^ 32 + (c.sreg k (fB w)).toNat))
def Core.opClrf (c : Core) (k f : Nat) (w : Word) : Core :=
  c.send k f 1 (.sst (ofBool (bitOf (fC w) 0) * 4 + ofBool (bitOf (fC w) 1) * 8 + ofBool (bitOf (fC w) 2) * 256) 0)

/-! ### The floating-point operations of the Y field -/

def Core.opFadd (c : Core) (k f : Nat) (w : Word) : Core := c.result k f 4 w (fadd (c.sreg k (fA w)) (c.sreg k (fB w)))
def Core.opFsub (c : Core) (k f : Nat) (w : Word) : Core := c.result k f 4 w (fsub (c.sreg k (fA w)) (c.sreg k (fB w)))
def Core.opFmul (c : Core) (k f : Nat) (w : Word) : Core := c.result k f 4 w (fmul (c.sreg k (fA w)) (c.sreg k (fB w)))
def Core.opFma (c : Core) (k f : Nat) (w : Word) : Core :=
  c.result k f 4 w (ffma (c.sreg k (fA w)) (c.sreg k (fB w)) (c.sreg k (fC w)))
def Core.opFcvt (c : Core) (k f : Nat) (w : Word) : Core := c.result k f 4 w (fcvt (c.sreg k (fA w)) (fC w))
def Core.opFtoi (c : Core) (k f : Nat) (w : Word) : Core :=
  let r := ftoi (c.sreg k (fA w)) (fC w)
  c.resultFlag k f 4 w r.1 r.2 8

/-! ### The memory operations of the M field -/

/-- The address of LDW, STW, LDD and STD: A + 4·simm12. -/
def Core.dmemAddr (c : Core) (k : Nat) (w : Word) : Nat := (addOfs (c.sreg k (fA w)) (4 * fSimm w)).toNat

/-- LDWP's and STWP's update of A, which lands after 1 fc. -/
def Core.bumpA (c : Core) (k f : Nat) (w : Word) : Core :=
  c.send k f 1 (.reg (fA w) (addOfs (c.sreg k (fA w)) (4 * fSimm w)))

def Core.opLdw (c : Core) (k f : Nat) (w : Word) : Core := c.result k f 3 w (c.dmemWord k (c.dmemAddr k w))
def Core.opLdwp (c : Core) (k f : Nat) (w : Word) : Core :=
  (c.result k f 3 w (c.dmemWord k (c.sreg k (fA w)).toNat)).bumpA k f w
def Core.opStw (c : Core) (k f : Nat) (w : Word) : Core := c.send k f 1 (.mem (c.dmemAddr k w) [c.sreg k (fD w)])
def Core.opStwp (c : Core) (k f : Nat) (w : Word) : Core :=
  (c.send k f 1 (.mem (c.sreg k (fA w)).toNat [c.sreg k (fD w)])).bumpA k f w
def Core.opLdd (c : Core) (k f : Nat) (w : Word) : Core :=
  let a := c.dmemAddr k w
  (c.send k f 3 (.reg (fD w) (c.dmemWord k a))).send k f 3 (.reg (fD w + 1) (c.dmemWord k (a + 4)))
def Core.opStd (c : Core) (k f : Nat) (w : Word) : Core :=
  c.send k f 1 (.mem (c.dmemAddr k w) [c.sreg k (fD w), c.sreg k (fD w + 1)])
def Core.opPadd (c : Core) (k f : Nat) (w : Word) : Core := c.result k f 1 w (addOfs (c.sreg k (fA w)) (fSimm w))
def Core.opGld (c : Core) (k f : Nat) (w : Word) : Core :=
  let a := (c.sreg k (fA w)).toNat / 4 * 4
  (applyIf (!gldOk k a) (·.globErr k) c).result k f 8 w (c.gldWord k a)
def Core.opGst (c : Core) (k f : Nat) (w : Word) : Core :=
  c.send k f 1 (.glob ((c.sreg k (fA w)).toNat / 4 * 4) (c.sreg k (fB w)))

/-! ### The control operations of the C field -/

/-- BR: the condition is read at issue; the two bundles that follow always run (R230). -/
def Core.opBr (c : Core) (k : Nat) (w : Word) : Core :=
  let v := c.sreg k (bits w 21 16)
  let take : Bool := match bits w 23 22 with
    | 0 => true
    | 1 => decide (v ≠ 0)
    | _ => decide (v = 0)
  c.onSlice k fun x => { x with branch := 3, target := if take then some (x.pc + bits w 12 0) else none }

/-- A loop start at the bundle in issue (R233, R234). -/
def Core.startLoop (c : Core) (k f : Nat) (w : Word) (count : Nat) : Core :=
  let pc := (c.slice k).pc
  let stop := pc + bits w 21 12 + 1
  let c1 := c.send k f 1 (.loop (bits w 23 22) (pc + 1) stop count (decide (count ≠ 0)))
  if count = 0 then c1.onSlice k fun x => { x with ends := .skip (stop + 1) } else c1

def Core.opLoopi (c : Core) (k f : Nat) (w : Word) : Core := c.startLoop k f w (bits w 11 0)

/-- LOOPR: a unit source gives its value, any other is clamped to 2^MAXLOG (R234). -/
def Core.opLoopr (c : Core) (k f : Nat) (w : Word) : Core :=
  let id := fB w
  let v := (c.sreg k id).toNat
  if id = 61 ∨ id = 62 then c.startLoop k f w v
  else if id = 63 then c.startLoop k f w (v % 512)
  else if 2 ^ bits w 4 0 < v then
    (c.sliceErr (F.LPE_SLSTAT.LCLAMP k) F.LPE_IRQ.LCLAMP).startLoop k f w (2 ^ bits w 4 0)
  else c.startLoop k f w v

def Core.opWait (c : Core) (k : Nat) (w : Word) : Core := c.onSlice k fun x => { x with width := bits w 7 0 }
def Core.opEnd (c : Core) (k : Nat) : Core := c.onSlice k fun x => { x with ends := .stop }
def Core.opEi (c : Core) (k f : Nat) : Core := c.send k f 1 (.sst 0 1)
def Core.opDi (c : Core) (k f : Nat) : Core := c.send k f 1 (.sst 1 0)
def Core.opReti (c : Core) (k : Nat) : Core := c.onSlice k fun x => { x with ends := .ret }

def Core.opAtn2 (c : Core) (k f : Nat) (w : Word) : Core := c.result k f 12 w (fatn2 (c.sreg k (fA w)) (c.sreg k (fB w)))
def Core.opDiv (c : Core) (k f : Nat) (w : Word) : Core :=
  let r := fdiv (c.sreg k (fA w)) (c.sreg k (fB w))
  c.resultFlag k f 12 w r.1 r.2 256
def Core.opRsq (c : Core) (k f : Nat) (w : Word) : Core :=
  let r := frsq (c.sreg k (fA w))
  c.resultFlag k f 12 w r.1 r.2 256
def Core.opLog2 (c : Core) (k f : Nat) (w : Word) : Core :=
  let r := flog2 (c.sreg k (fA w))
  c.resultFlag k f 12 w r.1 r.2 256

/-! ### Strands and queues (R235, R236, R238) -/

/-- A PORT slot of port k is open at the fc of the bundle that slice k issues. -/
def Core.portOpen (c : Core) (k : Nat) : Bool :=
  let f := (c.slice k).t0 + (c.slice k).now
  c.slots.any fun s => s.kind == kPort && s.resource == k && s.occurs (f / fcPerEpoch) &&
    decide (s.start ≤ f % fcPerEpoch ∧ f % fcPerEpoch ≤ s.last)

def Core.portErr (c : Core) (k : Nat) : Core := c.sliceErr (F.LPE_SLSTAT.PORTERR k) F.LPE_IRQ.PORTERR

def Core.opPrd (c : Core) (k f : Nat) (w : Word) : Core :=
  let s := bits (c.sreg k (fA w)) 10 0
  let a := (c.sreg k (fD w)).toNat
  if k < 8 ∧ s / 256 = k ∧ c.portOpen k then c.send k f 12 (.mem a (c.dump s))
  else (c.portErr k).send k f 12 (.mem a (List.replicate 32 0))

def Core.opPwb (c : Core) (k : Nat) (w : Word) : Core :=
  let a := (c.sreg k (fA w)).toNat
  let w0 := c.dmemWord k a
  let w1 := c.dmemWord k (a + 4)
  let w2 := c.dmemWord k (a + 8)
  let w3 := c.dmemWord k (a + 12)
  let s := bits w0 10 0
  let kr := bits w2 31 16 * 2 ^ 32 + w3.toNat
  let wkr := bits w0 13 13 = 1
  if ¬ (k < 8 ∧ c.portOpen k ∧ s / 256 = k) ∨ (wkr ∧ 2 ^ 46 ≤ kr) then c.portErr k
  else c.queueRate
    { strand := s, cr := if bits w0 12 12 = 1 then some (bits w2 15 0 * 2 ^ 32 + w1.toNat) else none,
      kr := if wkr then some kr else none }

def Core.opQpush (c : Core) (k : Nat) (w : Word) : Core :=
  let a := (c.sreg k (fA w)).toNat
  let e := (c.dmemWord k a, c.dmemWord k (a + 4))
  if bitOf (fC w) 0 then c.pushSymq k e else c.pushEvq k e

/-- An operation field issued (R225): the bundle's field number decides only which result wins (R227). -/
def Core.issue (c : Core) (k f : Nat) (w : Word) : Core :=
  match bits w 31 24 with
  | 0x01 => c.opAdd k f w | 0x02 => c.opAdds k f w | 0x03 => c.opSub k f w | 0x04 => c.opAddi k f w
  | 0x05 => c.opAnd k f w | 0x06 => c.opOr k f w | 0x07 => c.opXor k f w
  | 0x08 => c.opShl k f w | 0x09 => c.opShra k f w | 0x0A => c.opShrl k f w
  | 0x0B => c.opMovi k f w | 0x0C => c.opMovhi k f w
  | 0x0D => c.opMin k f w | 0x0E => c.opMax k f w | 0x0F => c.opAbs k f w
  | 0x10 => c.opCmp k f w | 0x11 => c.opSel k f w | 0x12 => c.opMov k f w
  | 0x18 => c.opMul k f w | 0x19 => c.opMulh k f w | 0x1A => c.opMac k f w | 0x1B => c.opMsu k f w
  | 0x1C => c.opClra k f w | 0x1D => c.opSta k f w | 0x1E => c.opStah k f w | 0x1F => c.opRda k f w
  | 0x20 => c.opWra k f w | 0x21 => c.opClrf k f w
  | 0x28 => c.opFadd k f w | 0x29 => c.opFsub k f w | 0x2A => c.opFmul k f w | 0x2B => c.opFma k f w
  | 0x2C => c.opFcvt k f w | 0x2D => c.opFtoi k f w
  | 0x30 => c.opLdw k f w | 0x31 => c.opLdwp k f w | 0x32 => c.opStw k f w | 0x33 => c.opStwp k f w
  | 0x34 => c.opLdd k f w | 0x35 => c.opStd k f w | 0x36 => c.opPadd k f w
  | 0x38 => c.opGld k f w | 0x39 => c.opGst k f w
  | 0x40 => c.opBr k w | 0x41 => c.opLoopi k f w | 0x42 => c.opLoopr k f w | 0x43 => c.opWait k w
  | 0x44 => c.opEnd k | 0x45 => c.opEi k f | 0x46 => c.opDi k f | 0x47 => c.opReti k
  | 0x48 => c.opAtn2 k f w | 0x49 => c.opDiv k f w | 0x4A => c.opRsq k f w | 0x4B => c.opLog2 k f w
  | 0x50 => c.opPrd k f w | 0x51 => c.opPwb k w | 0x52 => c.opQpush k w
  | _ => c

/-! ### Bundles, loops and interrupts (R226, R230, R233, R240) -/

/-- The innermost active level not in `done` whose loop holds the bundle end: the one with the greatest start. -/
def SliceSt.innermost (x : SliceSt) (done : List Nat) : Option Nat :=
  let reg := fun id => (mapGet (fun _ => 0) x.regs id : Word).toNat
  (belowSuch 4 fun n => bitOf x.sst (4 + n) && !done.contains n && decide (reg (52 + n) = x.pc)).foldl (fun best n =>
    match best with
    | some b => if reg (48 + b) < reg (48 + n) then some n else some b
    | none => some n) none

/-- The loop tests after a bundle: a level with lc above 1 loops back, another is left, and the next level out is tested (R233). -/
def SliceSt.loopBack (x : SliceSt) : Nat → List Nat → SliceSt
  | 0, _ => { x with pc := x.pc + 1 }
  | n + 1, done =>
    match x.innermost done with
    | none => { x with pc := x.pc + 1 }
    | some l =>
      let lc := (mapGet (fun _ => 0) x.regs (44 + l) : Word).toNat
      if 1 < lc then
        { x.put (44 + l) (BitVec.ofNat 32 (lc - 1)) with pc := (mapGet (fun _ => 0) x.regs (48 + l) : Word).toNat }
      else (x.put idSst (BitVec.ofNat 32 (x.sst - 2 ^ (4 + l)))).loopBack n (l :: done)

/-- Where a bundle leads: a taken branch whose second delay slot ends, a skipped loop, the loop tests. -/
def SliceSt.advance (x : SliceSt) : SliceSt :=
  let left := x.branch - 1
  let x1 := { x with branch := left, ends := .plain, width := 1 }
  match x.ends with
  | .skip pc => { x1 with pc := pc }
  | _ =>
    match (if x.branch = 1 then x.target else none) with
    | some t => { x1 with pc := t, target := none }
    | none => x1.loopBack 4 []

/-- The end of a bundle: its fc pass, results land, and the slice goes on, returns from a handler or stops (R230, R240). -/
def Core.endBundle (c : Core) (k : Nat) : Core :=
  let c1 := c.onSlice k fun x => { x with now := x.now + x.width }
  let c2 := c1.land k (c1.slice k).now
  match (c2.slice k).ends with
  | .stop => ((c2.landAll k).onSlice k fun x => { x with ends := .plain, width := 1, kind := 0 }).setFld (F.LPE_SLSTAT.RUN k) 0
      |>.setFld (F.LPE_SLSTAT.KIND k) 0
  | .ret => (c2.landAll k).onSlice k fun x =>
      { x.put idSst ((mapGet (fun _ => 0) x.regs idIsst : Word) &&& 0x3FF#32) with
        ends := .plain, width := 1, pc := (mapGet (fun _ => 0) x.regs idIpc : Word).toNat, now := x.now + 3 }
  | _ => c2.onSlice k SliceSt.advance

/-- The program a slice runs, under the running plan. -/
def Core.sliceProgram (c : Core) (k : Nat) : Option Program :=
  c.plan.img.program (decide ((c.slice k).kind = kFocus)) (c.slice k).prog

/-- The doorbell that a slice may take at this bundle boundary: the pending one, in a rerun the one logged at this issue count
(R328). -/
def Core.bellCode (c : Core) (k : Nat) : Option Nat :=
  match (c.slice k).rerun with
  | some r => (r.bells.find? fun b => b.1 == (c.slice k).issued).map (·.2)
  | none => if c.flag (F.LPE_DBELL.PEND k) then some (c.fld (F.LPE_DBELL.CODE k)) else none

/-- A pending source with a vector: the doorbell first, with its code, then FLAG (R240). -/
def Core.pendingVector (c : Core) (k : Nat) (p : Program) : Option (Nat × Option Nat) :=
  match (if p.vdbell ≠ 0xFFFF then c.bellCode k else none) with
  | some code => some (p.vdbell, some code)
  | none => if (c.slice k).flagPend && decide (p.vflag ≠ 0xFFFF) then some (p.vflag, none) else none

/-- The doorbell of an interrupt taken: it is no longer pending, and it is logged (R328); a rerun's stays in its log. -/
def Core.takeBell (c : Core) (k code : Nat) : Core :=
  let x := c.slice k
  let c1 := c.onSlice k fun x => { x with dbCode := code }
  match x.rerun with
  | some r => c1.onSlice k fun x => { x with rerun := some { r with bells := r.bells.filter (· != (x.issued, code)) } }
  | none =>
    let e : BellLog := ⟨k, x.t0 / fcPerEpoch, x.t0 % fcPerEpoch, x.issued, code⟩
    ((c1.setFld (F.LPE_DBELL.PEND k) 0).setFld (F.LPE_SLSTAT.DBPEND k) 0).onMir fun m => { m with bells := m.bells ++ [e] }

/-- An interrupt taken at a bundle boundary of a running program, when R240 lets it be; results in flight land as they would (R241). -/
def Core.interruptEntry (c : Core) (k : Nat) : Core :=
  match c.sliceProgram k with
  | none => c
  | some p =>
    let x := c.slice k
    if ¬ c.flag (F.LPE_SLSTAT.RUN k) ∨ ¬ bitOf x.sst 0 ∨ bitOf x.sst 9 ∨ 0 < x.branch ∨ p.irqmax ≤ x.irqs then c
    else
      match c.pendingVector k p with
      | none => c
      | some (v, bell) =>
        let x1 := ((x.put idIpc (BitVec.ofNat 32 x.pc)).put idIsst (BitVec.ofNat 32 x.sst)).put idSst
          (BitVec.ofNat 32 ((x.sst &&& 1022) ||| 512))
        let c1 := (c.setSlice k { x1 with pc := v, irqs := x.irqs + 1, now := x.now + 3 }).land k (x.now + 3)
        match bell with
        | some code => c1.takeBell k code
        | none => c1.onSlice k fun x => { x with flagPend := false }

/-- A doorbell written (R240): a pending one is replaced. -/
def Core.dbell (c : Core) (k code : Nat) : Core :=
  let c1 := if c.flag (F.LPE_DBELL.PEND k) then (c.raise (F.LPE_DBELL.DBOVR k)).raise F.LPE_IRQ.DBOVR else c
  ((c1.setFld (F.LPE_DBELL.CODE k) code).setFld (F.LPE_DBELL.PEND k) 1).setFld (F.LPE_SLSTAT.DBPEND k) 1

/-- The four fields of a bundle (R224). -/
def bundleWords (b : List Byte) (body pc : Nat) : List Word :=
  (List.range 4).map fun i => BitVec.ofNat 32 (leAt b (body + 16 * pc + 4 * i) 4)

/-- The instant of the bundle that a slice issues next. -/
def SliceSt.clock (x : SliceSt) : Clock := { epoch := (x.t0 + x.now) / fcPerEpoch, fc := (x.t0 + x.now) % fcPerEpoch }

/-- One bundle of the running program, then the interrupts. -/
def Core.runBundle (c : Core) (k : Nat) : Core :=
  match c.sliceProgram k with
  | none => c.setFld (F.LPE_SLSTAT.RUN k) 0
  | some p =>
    let x := c.slice k
    let ws := bundleWords (c.plan.img.sec (if x.kind = kFocus then .focusProg else .loupeProg)) p.body x.pc
    let c0 := c.onSlice k fun x => { x with issued := x.issued + 1 }
    let c4 := (((c0.issue k 0 (wordOf ws 0)).issue k 1 (wordOf ws 1)).issue k 2 (wordOf ws 2)).issue k 3 (wordOf ws 3)
    ((c4.endBundle k).interruptEntry k).settleCaught x.clock

/-- The running slice whose next bundle comes first before an fc counted from epoch 0; of several the lowest. -/
def Core.nextSlice (c : Core) (before : Nat) : Option Nat :=
  let at' := fun k => (c.slice k).t0 + (c.slice k).now
  (belowSuch 9 fun k => c.flag (F.LPE_SLSTAT.RUN k) && decide (at' k < before)).foldl (fun best k =>
    match best with
    | some b => if at' k < at' b then some k else some b
    | none => some k) none

/-- The running programs go on up to an fc counted from epoch 0, in the order of their bundles, at most `fuel` bundles. -/
def Core.runSlices (c : Core) (before : Nat) : Nat → Core
  | 0 => c
  | n + 1 =>
    match c.nextSlice before with
    | some k => (c.runBundle k).runSlices before n
    | none => c

/-- A program run to its END in the replay context, at most `fuel` bundles (R326). -/
def Core.runBundles (c : Core) (k : Nat) : Nat → Core
  | 0 => c
  | n + 1 => if c.flag (F.LPE_SLSTAT.RUN k) then (c.runBundle k).runBundles k n else c

/-- A slot occurrence starts on a slice (R223). -/
def Core.startSlice (c : Core) (t : Clock) (k kind prog : Nat) (entry : Nat) : Core :=
  let c1 := ((((c.landAll k).setFld (F.LPE_SLSTAT.RUN k) 1).setFld (F.LPE_SLSTAT.KIND k) kind).setFld (F.LPE_SLSTAT.PROG k) prog)
  c1.onSlice k fun x =>
    let x1 := x.put idSst (BitVec.ofNat 32 (x.sst &&& 0x10C))
    let x2 := (((x1.put 44 0).put 45 0).put 46 0).put 47 0
    { x2 with pc := entry, kind := kind, prog := prog, irqs := 0, flagPend := false, epo := t.epoch % 2 ^ 32, now := 0,
              t0 := fcPerEpoch * t.epoch + t.fc, issued := 0, flight := [], width := 1, ends := .plain, branch := 0, target := none }

/-- A slot's custom program starts; it runs as time passes (R220 to R243). -/
def Core.startProgram (c : Core) (t : Clock) (k kind prog : Nat) : Core :=
  match c.plan.img.program (decide (kind = kFocus)) prog with
  | none => c
  | some p => c.startSlice t k kind prog p.entry

/-- A slice stopped in its program (R39). -/
def Core.stopSlice (c : Core) (k : Nat) : Core :=
  ((c.onSlice k fun x => { x with kind := 0, flight := [], ends := .plain, width := 1 }).setFld (F.LPE_SLSTAT.RUN k) 0).setFld
    (F.LPE_SLSTAT.KIND k) 0

/-- The standard kernel's or Focus program's hold of a slice for an occurrence, which R223 and SLSTAT show. -/
def Core.holdSlice (c : Core) (t : Clock) (k kind : Nat) : Core := (c.startSlice t k kind 0 0).stopSlice k

end Sys2Proof.Machine
end

