-- ==== Sys2Proof/Machine/LoupeCheck.lean ====
section
/-! DEFINITION. The load-time check of a Loupe program (R244 to R248): field encodings, branches, loops, paths and the bound. -/
namespace Sys2Proof.Machine

/-! ### Operation fields (R224, R225) -/

/-- An ID an operation may read as a 32-bit operand. -/
def readId (id : Nat) : Bool := decide (id < 40 ∨ 44 ≤ id)

/-- An ID an operation may write. -/
def writeId (id : Nat) : Bool := decide (id < 40 ∨ (44 ≤ id ∧ id < 59))

def accId (id : Nat) : Bool := decide (40 ≤ id ∧ id < 44)
def pId (id : Nat) : Bool := decide (32 ≤ id ∧ id < 40)

/-- An address operand of a DMEM operation: a p register, or g0. -/
def addrId (id : Nat) : Bool := pId id || decide (id = 0)

/-- An operation field passes the OPCODE check in field `f` (0 X, 1 Y, 2 M, 3 C). -/
def opOk (f : Nat) (w : Word) : Bool :=
  let d := fD w
  let a := fA w
  let b := fB w
  let cc := fC w
  let low := bits w 11 0
  let xy := decide (f ≤ 1)
  let y := decide (f = 1)
  let m := decide (f = 2)
  let c := decide (f = 3)
  match bits w 31 24 with
  | 0x00 => decide (w = 0)
  | 0x01 | 0x02 | 0x03 | 0x05 | 0x06 | 0x07 | 0x08 | 0x09 | 0x0A | 0x0D | 0x0E | 0x18 | 0x19 =>
    xy && writeId d && readId a && readId b && decide (cc = 0)
  | 0x04 => xy && writeId d && readId a
  | 0x0B | 0x0C => xy && writeId d
  | 0x0F | 0x12 => xy && writeId d && readId a && decide (low = 0)
  | 0x10 => xy && writeId d && readId a && readId b && decide (cc ≤ 5)
  | 0x11 => xy && writeId d && readId a && readId b && readId cc
  | 0x1A | 0x1B => xy && accId d && readId a && readId b && decide (cc < 4)
  | 0x1C => xy && accId d && decide (a = 0 ∧ low = 0)
  | 0x1D | 0x1E => xy && writeId d && accId a && decide (b = 0 ∧ cc ≤ 16)
  | 0x1F => xy && writeId d && accId a && decide (b = 0 ∧ cc ≤ 1)
  | 0x20 => xy && accId d && readId a && readId b && decide (cc = 0)
  | 0x21 => xy && decide (d = 0 ∧ a = 0 ∧ b = 0 ∧ cc < 8)
  | 0x28 | 0x29 | 0x2A => y && writeId d && readId a && readId b && decide (cc = 0)
  | 0x2B => y && writeId d && readId a && readId b && readId cc
  | 0x2C | 0x2D => y && writeId d && readId a && decide (b = 0)
  | 0x30 => m && writeId d && addrId a
  | 0x31 => m && writeId d && addrId a
  | 0x32 | 0x33 => m && readId d && addrId a
  | 0x34 | 0x35 => m && decide (d < 32 ∧ d % 2 = 0) && addrId a
  | 0x36 => m && pId d && readId a
  | 0x38 => m && writeId d && readId a && decide (low = 0)
  | 0x39 => m && readId a && readId b && decide (d = 0 ∧ cc = 0)
  | 0x40 => c && readId (bits w 21 16) && decide (bits w 23 22 ≠ 3 ∧ bits w 15 13 = 0 ∧ 3 ≤ bits w 12 0)
  | 0x41 => c && decide (1 ≤ low)
  | 0x42 => c && readId b && decide (bits w 5 5 = 0 ∧ bits w 4 0 ≤ 16)
  | 0x43 => c && decide (bits w 23 8 = 0 ∧ 1 ≤ bits w 7 0)
  | 0x44 | 0x45 | 0x46 | 0x47 => c && decide (bits w 23 0 = 0)
  | 0x48 | 0x49 => c && writeId d && readId a && readId b && decide (cc = 0)
  | 0x4A | 0x4B => c && writeId d && readId a && decide (low = 0)
  | 0x50 => c && pId d && readId a && decide (low = 0)
  | 0x51 => c && decide (d = 0) && pId a && decide (low = 0)
  | 0x52 => c && decide (d = 0) && pId a && decide (b = 0 ∧ cc ≤ 1)
  | _ => false

/-! ### Control flow -/

/-- The C field's part in control flow. A branch has its offset and whether it is unconditional; a loop start its body length, its
level and its count bound, none for one whose source is a unit register. -/
inductive Ctl where
  | plain (fc : Nat)
  | br (ofs : Nat) (always : Bool)
  | loop (len lvl : Nat) (bound : Option Nat) (unit : Nat)
  | stop
  | ret
deriving DecidableEq, Repr

def ctlOf (w : Word) : Ctl :=
  match bits w 31 24 with
  | 0x40 => .br (bits w 12 0) (decide (bits w 23 22 = 0))
  | 0x41 => .loop (bits w 21 12 + 1) (bits w 23 22) (some (bits w 11 0)) 0
  | 0x42 => .loop (bits w 21 12 + 1) (bits w 23 22) (if 61 ≤ fB w then none else some (2 ^ bits w 4 0)) (fB w)
  | 0x43 => .plain (bits w 7 0)
  | 0x44 => .stop
  | 0x47 => .ret
  | _ => .plain 1

def ctlAt (cs : List Ctl) (i : Nat) : Ctl := cs.getD i (.plain 1)

/-- A bundle holds a BR, a loop start, END or RETI. -/
def Ctl.turns : Ctl → Bool
  | .plain _ => false
  | _ => true

/-- The loop bodies that hold bundle `i`: start bundle, last bundle and level, by rising start. -/
def bodiesAt (cs : List Ctl) (i : Nat) : List (Nat × Nat × Nat) :=
  (List.range i).filterMap fun b =>
    match ctlAt cs b with
    | .loop len lvl _ _ => if i ≤ b + len then some (b + 1, b + len, lvl) else none
    | _ => none

/-- The innermost body that holds bundle `i`; the whole program where none does. -/
def bodyAt (cs : List Ctl) (i : Nat) : Nat × Nat :=
  match (bodiesAt cs i).getLast? with
  | some (lo, hi, _) => (lo, hi)
  | none => (0, cs.length - 1)

/-- BRANCH fails at bundle `i`. -/
def branchBad (cs : List Ctl) (i : Nat) : Bool :=
  match ctlAt cs i with
  | .br ofs _ =>
    decide (cs.length ≤ i + ofs ∨ (bodyAt cs i).2 < i + ofs) || (ctlAt cs (i + 1)).turns || (ctlAt cs (i + 2)).turns
  | _ => false

/-- LOOP fails at bundle `i`. -/
def loopBad (cs : List Ctl) (i : Nat) : Bool :=
  match ctlAt cs i with
  | .loop len lvl _ _ =>
    decide (cs.length ≤ i + len ∨ (bodyAt cs i).2 < i + len) || (bodiesAt cs i).any (fun x => x.2.2 == lvl) ||
      (ctlAt cs (i + len)).turns
  | _ => false

/-- The bundles that execution may reach other than as a delay slot: one pass, since every edge but the loop back leads forward. Delay
slots lead nowhere of their own (BRANCH leaves them plain). -/
def reachable (cs : List Ctl) (entry : Nat) : List Nat :=
  (List.range cs.length).foldl (fun r i =>
    if ¬ r.contains i then r
    else match ctlAt cs i with
      | .stop | .ret => r
      | .br ofs always => insertNat (i + ofs) (if always then r else insertNat (i + 3) r)
      | .loop len _ _ _ => insertNat (i + 1) (insertNat (i + len + 1) r)
      | .plain _ => insertNat (i + 1) r) [entry]

/-- END fails at bundle `i` on a path from ENTRY (`main`) or from a vector. -/
def endBad (cs : List Ctl) (main : Bool) (i : Nat) : Bool :=
  match ctlAt cs i with
  | .stop => !main
  | .ret => main
  | .br _ _ => false
  | _ => decide (i + 1 = cs.length)

/-! ### The bound (R247) -/

/-- Costs of a stretch of bundles up to `hi`, the cost at `hi + 1` being `exit`: the head of the answer is the cost at the lowest
bundle. `body` gives the longest path of a loop body. -/
def stretch (cs : List Ctl) (units : Nat → Nat) (body : Nat → Nat → Nat) : Nat → Nat → List Nat → List Nat
  | 0, _, acc => acc
  | n + 1, i, acc =>
    let at' := fun o => acc.getD (o - 1) 0
    let w := fun j => match ctlAt cs j with | .plain n => n | _ => 1
    let cost := match ctlAt cs i with
      | .plain n => n + at' 1
      | .br ofs always => 1 + w (i + 1) + w (i + 2) + (if always then at' ofs else max (at' ofs) (at' 3))
      | .loop len _ bound unit => 1 + bound.getD (units unit) * body (i + 1) (i + len) + at' (len + 1)
      | .stop => 13
      | .ret => 16
    stretch cs units body n (i - 1) (cost :: acc)

/-- The longest path from bundle `lo` to the end of bundle `hi`, to END or to RETI, loops nested at most `depth` deep. -/
def longest (cs : List Ctl) (units : Nat → Nat) : Nat → Nat → Nat → Nat
  | 0, _, _ => 0
  | depth + 1, lo, hi => (stretch cs units (longest cs units depth) (hi + 1 - lo) hi [0]).headD 0

/-- The computed bound of a program from a bundle. -/
def pathBound (cs : List Ctl) (units : Nat → Nat) (entry : Nat) : Nat := longest cs units 5 entry (cs.length - 1)

/-! ### The checks in order (R245) -/

/-- What the plan gives a program: the section header's reserved bytes, the number of programs it may hold, the slice and slot
kind, UPLY, n, MMAX, AIDEN, and the bundles all programs of the slice take. -/
structure ProgEnv where
  focus : Bool
  slice : Nat
  kind : Nat
  uply : Nat
  n : Nat
  mmax : Nat
  aiden : Nat
  imem : Nat
deriving DecidableEq, Repr

def ProgEnv.units (e : ProgEnv) (id : Nat) : Nat := if id = 61 then e.uply else if id = 62 then e.n else e.mmax

/-- The header bound (R248). -/
def Program.bound (p : Program) (e : ProgEnv) : Nat :=
  match p.bmode with
  | 0 => p.wcb
  | 1 => p.wcb + p.wcbu * e.uply
  | _ => focusCost e.n e.mmax e.aiden

/-- The section header fails FORMAT. -/
def sectionBad (b : List Byte) (focus : Bool) : Bool :=
  let n := leAt b 0 2
  !(zeroAt b 2 14) || decide (n < 1 ∨ (if focus then 16 else 64) < n)

/-- The program header fails FORMAT. -/
def headerBad (b : List Byte) (p : Program) : Bool :=
  !p.hdrZero || decide (8 ≤ p.kmask ∨ 2 < p.bmode ∨ 15 < p.irqmax ∨ (p.wcbu ≠ 0 ∧ p.bmode ≠ 1) ∨ (p.hbound ≠ 0 ∧ p.irqmax = 0) ∨
    p.nbun < 1 ∨ 8192 < p.nbun ∨ b.length < p.body + 16 * p.nbun ∨ p.nbun ≤ p.entry ∨ (p.vdbell ≠ 0xFFFF ∧ p.nbun ≤ p.vdbell) ∨
    (p.vflag ≠ 0xFFFF ∧ p.nbun ≤ p.vflag))

/-- The vectors a program has. -/
def Program.vectors (p : Program) : List Nat := [p.vdbell, p.vflag].filter (· ≠ 0xFFFF)

/-- The KMASK bit of a slot kind. -/
def kmaskBit (kind : Nat) : Nat := if kind = kLoop then 0 else if kind = kUser then 1 else 2

/-- BOUND fails (R247, R248). -/
def boundBad (cs : List Ctl) (p : Program) (e : ProgEnv) : Bool :=
  decide (p.bound e < pathBound cs e.units p.entry + p.irqmax * (4 + p.hbound)) ||
    p.vectors.any fun v => decide (p.hbound < pathBound cs e.units v)

/-- The first failure of a program: its code and the first failing bundle; code 0 when it passes. -/
def progCheck (b : List Byte) (p : Program) (e : ProgEnv) : Nat × Nat :=
  let words := (List.range p.nbun).map (bundleWords b p.body)
  let cs := words.map fun ws => ctlOf (wordOf ws 3)
  let first := fun (bad : Nat → Bool) => (List.range p.nbun).find? bad
  let op := first fun i => !((List.range 4).all fun f => opOk f (wordOf (words.getD i []) f))
  let ends := first fun i => ((reachable cs p.entry).contains i && endBad cs true i) ||
    p.vectors.any fun v => (reachable cs v).contains i && endBad cs false i
  let unit := first fun i => match ctlAt cs i with
    | .loop _ _ none u => decide (¬ ((p.bmode = 1 ∧ u = 61) ∨ (p.bmode = 2 ∧ (u = 62 ∨ u = 63))))
    | _ => false
  if sectionBad b e.focus || headerBad b p then (1, 0)
  else if op.isSome then (2, op.getD 0)
  else if (first (branchBad cs)).isSome then (3, (first (branchBad cs)).getD 0)
  else if (first (loopBad cs)).isSome then (4, (first (loopBad cs)).getD 0)
  else if ends.isSome then (5, ends.getD 0)
  else if boundBad cs p e then (6, 0)
  else if ¬ bitOf p.kmask (kmaskBit e.kind) ∨ (p.bmode = 1 ∧ e.slice = 8) ∨ (p.bmode = 2 ∧ e.slice ≠ 8) then (7, 0)
  else if unit.isSome then (7, unit.getD 0)
  else if 8192 < e.imem then (8, 0)
  else if 0 < p.irqmax ∧ p.vectors = [] then (9, 0)
  else (0, 0)

/-- The program's control flow, for a repeated BOUND check. -/
def progCtl (b : List Byte) (p : Program) : List Ctl :=
  (List.range p.nbun).map fun i => ctlOf (wordOf (bundleWords b p.body i) 3)

/-- The BOUND check of every Focus program named by a FOCUS slot of the running plan, with the staged group 5 values (R248);
the ROM default's standard program keeps its bound whatever they are (R249). -/
def Core.focusBoundsOk (c : Core) : Bool :=
  let sel := c.fld F.FOC_STSEL_LO.SEL + 2 ^ 32 * (c.fld F.FOC_STSEL_HI.SEL % 256)
  decide (c.plan.src = .romDefault) || c.focusSlots.all fun s =>
    match c.plan.img.program true s.index with
    | none => true
    | some p =>
      let e : ProgEnv := { focus := true, slice := 8, kind := kFocus, uply := 0, n := popCount 40 sel, mmax := c.fld F.FOC_CFG.MMAX,
                           aiden := c.fld F.FOC_CFG.AIDEN, imem := 0 }
      !boundBad (progCtl (c.plan.img.sec .focusProg) p) p e

end Sys2Proof.Machine
end

