-- ==== Sys2Proof/Machine/PlanCheck.lean ====
section
/-! DEFINITION. The plan checker (R34 to R37). -/
namespace Sys2Proof.Machine

/-- What a check answers: PLAN_STAT.CODE, PLAN_ERRINFO, PLAN_ERRPHASE, and LPE_PROGERR's fields when a program failed: code, slice,
program, section, bundle. -/
structure Verdict where
  code : Nat
  slot1 : Nat
  slot2 : Nat
  ephase : Nat
  half : Nat
  prog : Option (Nat × Nat × Nat × Nat × Nat)
deriving DecidableEq, Repr

def verdict (code slot1 slot2 : Nat) : Verdict := { code := code, slot1 := slot1, slot2 := slot2, ephase := 0, half := 0, prog := none }

/-- The kinds a resource permits (R31); none where RESOURCE is not in the table. -/
def permitted (r : Nat) : Option (List Nat) :=
  if r < 8 then some [kPort]
  else if 0x10 ≤ r ∧ r < 0x18 then some [kLoop, kUser]
  else if r = 0x18 then some [kFocus, kUser]
  else if r = 0x20 then some [kPrism]
  else if r = 0x30 then some [kRecord]
  else if r = 0x31 then some [kSolution]
  else none

/-- The slice a slot on a Loupe resource runs on. -/
def sliceOf (r : Nat) : Nat := r - 0x10

/-- OWNER fails (R32). -/
def ownerBad (s : SlotEntry) : Bool :=
  if s.kind = kLoop then decide (s.index ≠ sliceOf s.resource)
  else if s.kind = kFocus ∨ s.kind = kUser then decide (s.paramA ≠ 0)
  else if s.kind = kRecord then decide (15 < s.index ∨ s.paramA < 1 ∨ 1024 < s.paramA)
  else if s.kind = kPort then decide (s.index ≠ s.resource ∨ s.paramA ≠ 0)
  else decide (s.index ≠ 0 ∨ s.paramA ≠ 0)

/-- The program a slot names: whether it lies in FOCUS_PROG, and its number. -/
def programOf (s : SlotEntry) : Option (Bool × Nat) :=
  if s.kind = kLoop then some (false, s.paramA)
  else if s.kind = kUser then some (false, s.index)
  else if s.kind = kFocus then some (true, s.index)
  else none

/-- The bundles of the distinct programs that the slots of one slice name (R245 IMEM). -/
def imemUse (img : Image) (slots : List SlotEntry) (resource : Nat) : Nat :=
  let named := (slots.filter fun s => s.resource == resource).filterMap programOf
  ((named.eraseDups.filterMap fun n => img.program n.1 n.2).map (·.nbun)).sum

/-- What an image gives the programs of a slot's slice (R248): n, MMAX and AIDEN are those its FOCUS_PROG body puts in force. -/
def progEnv (img : Image) (slots : List SlotEntry) (s : SlotEntry) : ProgEnv :=
  let f := img.sec .focusProg
  let cfg := BitVec.ofNat 32 (leAt f 16 4)
  let sel := leAt f 20 4 + 2 ^ 32 * (leAt f 24 4 % 256)
  let at' := fun (x : Fld) => bits cfg x.hi x.lo
  { focus := decide (s.kind = kFocus), slice := sliceOf s.resource, kind := s.kind, uply := img.uply (sliceOf s.resource),
    n := popCount 40 sel, mmax := at' F.FOC_CFG.MMAX, aiden := at' F.FOC_CFG.AIDEN, imem := imemUse img slots s.resource }

/-- PROG's answer for a slot: absent with no program failure, a failing program, or none. -/
def progBad (img : Image) (slots : List SlotEntry) (s : SlotEntry) : Option (Option (Nat × Nat × Nat × Nat × Nat)) :=
  match programOf s with
  | none => none
  | some (focus, j) =>
    let sec := if focus then Sec.focusProg else .loupeProg
    let b := img.sec sec
    let fail := fun (code bundle : Nat) => some (some (code, sliceOf s.resource, j, ofBool focus, bundle))
    if ¬ img.has sec then some none
    else if sectionBad b focus then fail 1 0
    else if leAt b 0 2 ≤ j then some none
    else
      match img.program focus j with
      | none => fail 1 0
      | some p =>
        let r := progCheck b p (progEnv img slots s)
        if r.1 = 0 then none else fail r.1 r.2

/-- The cost of a slot (R33). -/
def slotCost (img : Image) (slots : List SlotEntry) (s : SlotEntry) : Nat :=
  match programOf s with
  | some (focus, j) => ((img.program focus j).map fun p => p.bound (progEnv img slots s)).getD 0
  | none => if s.kind = kRecord then 64 + 5 * s.paramA else if s.kind = kSolution then 512 else 0

/-- The per-slot rules FIELD to SHORT for the slot at index `i`, in code order; none when it passes. -/
def slotVerdict (img : Image) (slots : List SlotEntry) (i : Nat) (s : SlotEntry) : Option Verdict :=
  let fail := fun code => some (verdict code i 0)
  if s.rsv then fail 0x03
  else
    match permitted s.resource with
    | none => fail 0x04
    | some kinds =>
      if ¬ kinds.contains s.kind then fail 0x05
      else if ownerBad s then fail 0x06
      else
        match progBad img slots s with
        | some pe => some { verdict 0x07 i 0 with prog := pe }
        | none =>
          if 655359 < s.start then fail 0x08
          else if s.length = 0 then fail 0x09
          else if (s.start < fcPerHalf ∧ fcPerHalf < s.start + s.length) ∨ fcPerEpoch < s.start + s.length then fail 0x0A
          else if s.kind = kPrism ∧ ¬ (s.start % 4 = 0 ∧ s.length % 4 = 0) then fail 0x0B
          else if periodOf s.period ≤ s.phase then fail 0x0C
          else if s.length < slotCost img slots s then fail 0x0D
          else none

/-- The half-epoch a slot lies in. -/
def SlotEntry.half (s : SlotEntry) : Nat := if s.start < fcPerHalf then 0 else 1

/-- Two slots share at least one fc. -/
def SlotEntry.overlaps (a b : SlotEntry) : Bool := decide (a.start ≤ b.last ∧ b.start ≤ a.last)

/-- Two slots occur in a common epoch (R35). -/
def SlotEntry.meets (a b : SlotEntry) : Bool :=
  let g := Nat.gcd (periodOf a.period) (periodOf b.period)
  decide (a.phase % g = b.phase % g)

/-- The first pair of a list of slots, by lower and then by higher index, that a test names. -/
def firstPairOf (l : List (Nat × SlotEntry)) (bad : SlotEntry → SlotEntry → Bool) : Option (Nat × Nat) :=
  l.findSome? fun a => ((l.find? fun b => decide (a.1 < b.1) && bad a.2 b.2)).map fun b => (a.1, b.1)

/-- OVERLAP, then CEIL, in one half-epoch of one resource. -/
def halfVerdict (l : List (Nat × SlotEntry)) (phase half : Nat) : Option Verdict :=
  let here := l.filter fun x => x.2.occurs phase && x.2.half == half
  let place := fun (v : Verdict) => { v with ephase := phase, half := half }
  match firstPairOf here SlotEntry.overlaps with
  | some (a, b) => some (place (verdict 0x0E a b))
  | none =>
    if 245760 < (here.map (·.2.length)).sum then some (place (verdict 0x0F ((here.head?.map (·.1)).getD 0) 0)) else none

/-- The numbered slots of a plan. -/
def numbered (slots : List SlotEntry) : List (Nat × SlotEntry) := (List.range slots.length).zip slots

/-- The scan of the 2,000 half-epochs of every resource (R35). -/
def scanVerdict (slots : List SlotEntry) : Option Verdict :=
  let resources := (List.range 0x32).filter fun r => slots.any fun s => s.resource == r
  resources.findSome? fun r =>
    let l := (numbered slots).filter fun x => x.2.resource == r
    (List.range 1000).findSome? fun p => (List.range 2).findSome? fun h => halfVerdict l p h

/-- PAIR fails for a slot. -/
def pairBad (slots : List SlotEntry) (s : SlotEntry) : Bool :=
  s.kind == kLoop && !(slots.any fun q =>
    q.kind == kPort && q.index == s.index && q.period == s.period && q.phase == s.phase && decide (q.start ≤ s.start ∧ s.last ≤ q.last))

/-- ORDER fails: slot `a` starts too early against slot `b`. -/
def orderBad (a b : SlotEntry) : Bool :=
  a.meets b && decide (a.start ≤ b.last) &&
    ((a.kind == kRecord && b.kind == kLoop) || (a.kind == kFocus && b.kind == kLoop && a.half == b.half) ||
     (a.kind == kSolution && b.kind == kFocus))

/-- PAIR and ORDER over the whole table. -/
def tableVerdict (slots : List SlotEntry) : Option Verdict :=
  let l := numbered slots
  match l.find? fun x => pairBad slots x.2 with
  | some x => some (verdict 0x10 x.1 0)
  | none => l.findSome? fun a => ((l.find? fun b => orderBad a.2 b.2)).map fun b => verdict 0x11 a.1 b.1

/-- The strands an image references (R36 STRAND). -/
def imageStrands (img : Image) : List Nat :=
  let tpl := img.sec .strandTpl
  let bind := img.sec .plyBind
  let tps := (List.range 2048).filter fun s => (templateOf tpl s).isSome
  let mem := (List.range (leAt bind 0 2)).flatMap fun p =>
    (Binding.of ((List.range 16).map fun k => BitVec.ofNat 32 (leAt bind (16 + 64 * p + 4 * k) 4))).members.map (·.strand)
  tps ++ mem

/-- A plan's image against R34, the stream map first (R92). -/
def planCheck (img : Image) : Verdict :=
  let b := img.sec .plan
  let n := leAt b 2 2
  if leAt b 0 1 ≠ 1 then verdict 0x01 0 0
  else if n = 0 ∨ 4096 < n ∨ b.length ≠ 16 + 16 * n then verdict 0x02 0 0
  else if ¬ zeroAt b 8 8 then verdict 0x03 0 0
  else
    let slots := slotsOf b
    match (numbered slots).findSome? fun x => slotVerdict img slots x.1 x.2 with
    | some v => v
    | none =>
      match scanVerdict slots with
      | some v => v
      | none =>
        match tableVerdict slots with
        | some v => v
        | none => if (imageStrands img).all (mapAllocated (img.sec .streamMap)) then verdict 0 0 0 else verdict 0x12 0 0

end Sys2Proof.Machine
end

