-- ==== Sys2Proof/Machine/Plan.lean ====
section
/-! DEFINITION. Plan control, staging and the plan switch (R38 to R59, R73): loads, checks, arming, commits, seals, and what an
image in force puts into the blocks. -/
namespace Sys2Proof.Machine

/-! ### Plan states -/

def plIdle : Nat := 0
def plChecking : Nat := 1
def plReady : Nat := 2
def plRefused : Nat := 3
def plArmed : Nat := 4

def Core.planState (c : Core) : Nat := c.fld F.PLAN_STAT.STATE

/-- A check ended or a candidate was refused with a code. -/
def Core.endCheck (c : Core) (state code : Nat) : Core :=
  ((c.setFld F.PLAN_STAT.STATE state).setFld F.PLAN_STAT.CODE code).raise F.PLAN_IRQ.CHK

/-- LOAD (R53): `slot` is the inactive image slot's image when the slot is VALID (R69). -/
def Core.planLoad (c : Core) (slot : Option (Image × ImageSrc)) : Core :=
  if c.planState = plChecking ∨ c.planState = plArmed then (c.setFld F.PLAN_STAT.CODE 0x15).raise F.PLAN_STAT.LOADERR
  else
    match slot with
    | none => (c.onPlan fun p => { p with cand := none }).endCheck plRefused 0x13
    | some x => (c.onPlan fun p => { p with cand := some x }).setFld F.PLAN_STAT.STATE plChecking

/-- LPE_PROGERR records the first failure of a program (R245). -/
def Core.recordProgErr (c : Core) : Option (Nat × Nat × Nat × Nat × Nat) → Core
  | none => c
  | some (code, slice, prog, sec, bundle) =>
    (((((c.setFld F.LPE_PROGERR.CODE code).setFld F.LPE_PROGERR.SLICE slice).setFld F.LPE_PROGERR.PROG prog).setFld
      F.LPE_PROGERR.SEC sec).setFld F.LPE_PROGERR.BUNDLE bundle).raise F.LPE_IRQ.PROGERR

/-- A verdict shown in PLAN_ERRINFO, PLAN_ERRPHASE and LPE_PROGERR. -/
def Core.showVerdict (c : Core) (v : Verdict) : Core :=
  let c1 := ((c.setFld F.PLAN_ERRINFO.SLOT1 v.slot1).setFld F.PLAN_ERRINFO.SLOT2 v.slot2)
  ((c1.setFld F.PLAN_ERRPHASE.EPHASE v.ephase).setFld F.PLAN_ERRPHASE.HALF v.half).recordProgErr v.prog

/-- A running check completes (R34, R37, R53): the stream map's code first (R92), the candidate's PLAN_ID, the verdict. -/
def Core.planCheckComplete (c : Core) : Core :=
  if c.planState ≠ plChecking then c
  else
    match c.plan.cand with
    | none => c
    | some (img, _) =>
      let v := planCheck img
      let c1 := (c.setFld F.BOB_MAPSTAT.CODE (mapCheck (img.sec .streamMap))).setFld F.PLAN_IDCAND.PLAN_ID (planIdOf (img.sec .plan))
      let c2 := (c1.showVerdict v).onPlan fun p => { p with other := img }
      c2.endCheck (if v.code = 0 then plReady else plRefused) v.code

/-- PLAN_SWEPOCH. -/
def Core.swEpoch (c : Core) : Nat := c.fld F.PLAN_SWEPOCH_LO.SWEPOCH_LO + 2 ^ 32 * c.fld F.PLAN_SWEPOCH_HI.SWEPOCH_HI

/-- ARM (R53, R59); a refusal with LATE counts as a check ended (log entry 180). -/
def Core.planArm (c : Core) (t : Clock) : Core :=
  if c.planState ≠ plReady then c.raise F.PLAN_STAT.ARMERR
  else
    let target := if c.swEpoch = 0 then t.nextBoundary64 else c.swEpoch
    if target ≤ t.epoch then c.endCheck plRefused 0x14
    else (c.onPlan fun p => { p with switchAt := some target }).setFld F.PLAN_STAT.STATE plArmed

/-- DISARM: effective 64 fc or more before the switch boundary. -/
def Core.planDisarm (c : Core) (t : Clock) : Core :=
  match c.plan.switchAt with
  | some e =>
    if c.planState = plArmed ∧ fcPerEpoch * t.epoch + t.fc + 64 ≤ fcPerEpoch * e then
      (c.onPlan fun p => { p with switchAt := none }).setFld F.PLAN_STAT.STATE plReady
    else c
  | none => c

/-- A write to the inactive image slot while READY or REFUSED drops the candidate (R69). -/
def Core.dropCandidate (c : Core) : Core :=
  if c.planState = plReady ∨ c.planState = plRefused then
    (c.onPlan fun p => { p with cand := none }).setFld F.PLAN_STAT.STATE plIdle
  else c

/-! ### Staging groups (R41 to R45) -/

def Core.pend (c : Core) (g : Nat) : Bool := bitOf (c.fld F.PLAN_CMTSTAT.PEND) g
def Core.sealed (c : Core) (g : Nat) : Bool := bitOf (c.fld F.PLAN_CMTSTAT.SEAL) g

/-- A bit of a field set or cleared. -/
def Core.setBit (c : Core) (f : Fld) (i : Nat) (b : Bool) : Core :=
  let v := c.fld f
  c.setFld f (v - ofBool (bitOf v i) * 2 ^ i + ofBool b * 2 ^ i)

/-- A write to PLAN_COMMIT: each group that is not sealed becomes pending and sealed (R41, R42, R45). -/
def Core.planCommit (c : Core) (t : Clock) (mask : Nat) : Core :=
  forBelow 15 (fun c g =>
    if bitOf mask g && !c.pend g && !c.sealed g then
      ((c.setBit F.PLAN_CMTSTAT.PEND g true).setBit F.PLAN_CMTSTAT.SEAL g true).onPlan fun p =>
        { p with commitAt := p.commitAt ++ [(g, t.nextBoundary64)] }
    else c) c

/-- A write to a staged field of a sealed group is discarded and reported (R42). -/
def Core.sealedWrite (c : Core) (g : Nat) : Core :=
  ((c.raise F.PLAN_CMTERR.SEALWR).setFld F.PLAN_CMTERR.SEALGRP g).raise F.PLAN_IRQ.SEALWR

/-- A group has a staged change. -/
def Core.touch (c : Core) (g : Nat) : Core := c.onPlan fun p => { p with touched := insertNat g p.touched }

/-- The groups whose commit applies at a boundary. -/
def Core.dueGroups (c : Core) (epoch : Nat) : List Nat := (c.plan.commitAt.filter fun x => decide (x.2 ≤ epoch)).map (·.1)

/-- A commit has applied: PLAN_CMTEPOCH and the CMT interrupt (R41, R45). -/
def Core.committed (c : Core) (epoch : Nat) : Core := (c.setFld F.PLAN_CMTEPOCH.EPOCH epoch).raise F.PLAN_IRQ.CMT

/-- The due groups that have a staged change; a request for any other applies nothing (R45). -/
def Core.stagedGroups (c : Core) (gs : List Nat) : List Nat := gs.filter c.plan.touched.contains

/-- The marks of the due groups: PEND clears, the seal holds to the first check point that passes (R42, R43); CMTEPOCH and CMT where
one of them, `ran`, had a staged change. -/
def Core.markApplied (c : Core) (epoch : Nat) (gs ran : List Nat) : Core :=
  let c1 := gs.foldl (fun (c : Core) g => c.setBit F.PLAN_CMTSTAT.PEND g false) c
  let c2 := c1.onPlan fun p => { p with
    commitAt := p.commitAt.filter fun x => !gs.contains x.1
    touched := p.touched.filter fun g => !gs.contains g
    applied := gs.foldl (fun l g => insertNat g l) p.applied }
  if ran = [] then c2 else c2.committed epoch

/-- A passed check point ends the seals of the groups and the switch that applied before it (R42, R57). -/
def Core.unseal (c : Core) : Core :=
  let c1 := c.plan.applied.foldl (fun (c : Core) g => c.setBit F.PLAN_CMTSTAT.SEAL g (c.pend g)) c
  (c1.onPlan fun p => { p with applied := [] }).setFld F.PLAN_STAT.SWSEAL 0

/-! ### What an image puts in force (R73, R92, R118, R202) -/

/-- Registers of groups kept in their staging copy across a load, where the host has staged a change. -/
def Core.loadRegs (c : Core) (g : Nat) (addrs : List Nat) (f : Core → Core) : Core :=
  let c1 := f c
  if c.plan.touched.contains g then addrs.foldl (fun (d : Core) a => d.setReg a (c.reg a)) c1 else c1

def group7Regs : List Nat := (List.range 8).map R.BOB_RING
def group8Regs : List Nat :=
  (List.range 8).map R.BOB_STRCFG ++ (List.range 8).map R.BOB_IF ++ (List.range 256).map R.BOB_ALLOC
def group6Regs : List Nat := (List.range 128).map R.FOC_MODE

/-- The stream map of an image as the load commits of groups 8 and 7 (R90, R92). -/
def Core.loadMap (c : Core) (epoch : Nat) (b : List Byte) : Core :=
  let c1 := c.setFld F.BOB_MAPSTAT.CODE (mapCheck b)
  let stage8 := fun (c : Core) =>
    let d := forBelow 8 (fun (c : Core) n =>
      (c.setReg (R.BOB_STRCFG n) (mapEntry b n).cfg).setReg (R.BOB_IF n) (BitVec.ofNat 32 (mapEntry b n).ifHz)) c
    forBelow 256 (fun (c : Core) w =>
      c.setReg (R.BOB_ALLOC w) (BitVec.ofNat 32 (((List.range 8).map fun k => mapAlloc b (8 * w + k) * 16 ^ k).sum))) d
  let stage7 := fun (c : Core) => forBelow 8 (fun (c : Core) n => c.setReg (R.BOB_RING n) (BitVec.ofNat 32 (mapEntry b n).ring)) c
  let c2 := c1.loadRegs 8 group8Regs fun c => (stage8 c).applyGroup8
  c2.loadRegs 7 group7Regs fun c => (stage7 c).applyGroup7 epoch

/-- The members of an image's binding of ply `p`. -/
def imageMembers (b : List Byte) (p : Nat) : List Member :=
  if p < leAt b 0 2 then
    (Binding.of ((List.range 16).map fun k => BitVec.ofNat 32 (leAt b (16 + 64 * p + 4 * k) 4))).members
  else []

/-- The ply and the role in which an image binds a strand. -/
def imageRole (b : List Byte) (s : Nat) : Option (Nat × Nat) :=
  (List.range (leAt b 0 2)).findSome? fun p => ((imageMembers b p).find? fun m => m.strand == s).map fun m => (p, m.role)

/-- A strand is present in both images alike (R55). -/
def strandKept (old new : Image) (s : Nat) : Bool :=
  let a := old.sec .streamMap
  let b := new.sec .streamMap
  mapAllocated a s && mapAllocated b s && mapAlloc a s == mapAlloc b s &&
    (mapEntry a (mapAlloc a s)).fmt == (mapEntry b (mapAlloc b s)).fmt &&
    (imageRole (old.sec .plyBind) s).isSome && imageRole (old.sec .plyBind) s == imageRole (new.sec .plyBind) s

/-- Everything of a strand stopped: EN = 0 and every other live field zero. -/
def Core.stopStrand (c : Core) (s : Nat) : Core :=
  let c1 := c.onHot fun h => { h with mem := h.mem.putWords (descLive s) (List.replicate 16 0) }
  c1.setStrand s (c1.strand s).newWindow

/-- A strand started from its template, or stopped (R55, R118). Doublewords staged for it stay staged (R54). -/
def Core.startStrand (tpl : List Byte) (present : Nat → Bool) (q : Core × Bool) (s : Nat) : Core × Bool :=
  let c := q.1
  let mine := fun d => d / 8 == s
  let dirty := c.plan.dirty.filter mine
  let staged := c.stageWords s
  if ¬ present s then
    let c1 := (c.onPlan fun p => { p with dirty := p.dirty.filter fun d => !mine d }).stopStrand s
    let c2 := { c1 with mem := c1.mem.putWords (descStage s) (List.replicate 16 0) }
    (applyIf (!dirty.isEmpty) (·.raise F.PLAN_CMTERR.DROP) c2, q.2)
  else
    let c1 := Core.stageTemplate tpl (c.stopStrand s) s
    let c2 := c1.onPlan fun p => { p with dirty := (p.dirty.filter fun d => !mine d) ++ (List.range 8).map (8 * s + ·) }
    let r := Core.applyDesc (c2, q.2) s
    let c3 := r.1.onPlan fun p => { p with dirty := (p.dirty.filter fun d => !mine d) ++ dirty }
    let ws := mergeDesc (c3.stageWords s) staged fun k => dirty.contains (8 * s + k)
    ({ c3 with mem := c3.mem.putWords (descStage s) ws }, r.2)

/-- Every strand that is not kept started from the new image. -/
def Core.startStrands (c : Core) (img : Image) (keep : Nat → Bool) : Core :=
  let tpl := img.sec .strandTpl
  let map := img.sec .streamMap
  ((List.range 2048).foldl (fun q s => if keep s then q else Core.startStrand tpl (mapAllocated map) q s) (c, false)).1.countEnabled

/-- The tables of plies, sets and rows loaded by the load commits of groups 3, 2 and 4 (R149, R159, R175); what the host has staged
stays staged. A ply whose strands are all kept keeps its status, any other goes to IDLE (R55). -/
def Core.loadTables (c : Core) (img : Image) (keepPly : Nat → Bool) : Core :=
  let old := c.plan
  let c1 := c.stageTables (img.sec .plyBind) (img.sec .loopCoef) (img.sec .lifecycle)
  let c2 := forBelow 1024 (fun (d : Core) p => if keepPly p then d else d.clearPly p) c1
  let c4 := ((c2.applyGroup3 true).applyGroup2).applyGroup4
  let back := fun (d : Core) (base w : Nat) => ({ d with mem := d.mem.putWords base (c.mem.words base w) } : Core)
  let c5 := old.plyChg.foldl (fun d p => back d (plyStage p) 16) c4
  let c6 := old.coefChg.foldl (fun d i => back d (coefStage i) 8) c5
  let c7 := old.lifeChg.foldl (fun d r => back d (lifeStage r) 2) c6
  c7.onPlan fun p => { p with plyChg := old.plyChg, coefChg := old.coefChg, lifeChg := old.lifeChg }

/-- Focus is OFF without a program, without a slot, or with a configuration refused at load; otherwise it starts in INIT (R188). -/
def Core.focusPower (c : Core) (refused : Bool) : Core :=
  if !c.hasFocus || c.focusSlots.isEmpty || refused then c.setFocState 0
  else if c.hot.foc.state = 0 then c.setFocState 1
  else c

/-- FOCUS_PROG's configuration and mode map as the load commits of groups 5 and 6 (R202). -/
def Core.loadFocus (c : Core) (img : Image) : Core :=
  if img.has .focusProg then
    let chg := c.plan.modeChg
    let staged := c.stageFocus (img.sec .focusProg)
    let refused := decide (staged.focRefusal staged.focusBoundsOk ≠ 0)
    let c1 := c.loadRegs 5 group5Regs fun c =>
      let s := c.stageFocus (img.sec .focusProg)
      s.applyGroup5 s.focusBoundsOk
    let c2 := c1.loadRegs 6 group6Regs fun c => (c.stageFocus (img.sec .focusProg)).applyGroup6
    (c2.onPlan fun p => { p with modeChg := chg }).focusPower refused
  else c.focusPower false

/-- The registers that name the running image. -/
def Core.showImage (c : Core) (img : Image) (src : ImageSrc) : Core :=
  let slot := match src with | .slotB => 1 | _ => 0
  let num := match src with | .slotA => 0 | .slotB => 1 | .romDefault => 2 | .hostDownload => 3
  let c1 := ((c.setFld F.PLAN_STAT.ACTSLOT slot).setFld F.NVM_BOOTINFO.SRC num).setFld F.PLAN_IDACT.PLAN_ID (planIdOf (img.sec .plan))
  c1.setFld F.SYS_FWVER.PATCH_LVL (if src = .romDefault then 0 else img.patchLvl)

/-- An image put in force by its load commits, with the strands and plies that a predicate keeps: at start-up none, at a switch
those of R55. -/
def Core.loadImage (c : Core) (epoch : Nat) (img : Image) (src : ImageSrc) (keep keepPly : Nat → Bool) : Core :=
  let c1 := c.onPlan fun p => { p with img := img, src := src, other := p.img }
  let c2 := (c1.loadMap epoch (img.sec .streamMap)).startStrands img keep
  let c3 := ((c2.loadTables img keepPly).loadFocus img).setDurStat
  ((c3.showImage img src).markSlotless).demotePlan.committed epoch

/-- The sections that a hitless switch leaves as they are: CATALOGUE, HANK_RAM, PATCH and SYSCFG (R73). -/
def lateSecs : List Nat := [11, 10, 15, 14]

/-- The image in force after a switch (R73). -/
def mergeImage (old new : Image) : Image :=
  { new with secs := new.secs.filter (fun s => !lateSecs.contains s.1) ++ old.secs.filter fun s => lateSecs.contains s.1 }

/-- The notice of a new catalogue on every open session (R73, R455). -/
def Core.catalogueNotice (c : Core) (img : Image) : Core :=
  let d := leBytes 8 (leAt (img.sec .catalogue) 0 2)
  { c with links := vecMap c.links fun l => if l.opened then { l with notices := l.notices ++ [(8, d)] } else l }

/-- The plan switch (R53 to R57). -/
def Core.planSwitch (c : Core) (epoch : Nat) (img : Image) (src : ImageSrc) : Core :=
  let old := c.plan.img
  let keep := strandKept old img
  let keepPly := fun p => (imageMembers (img.sec .plyBind) p).all (fun m => keep m.strand) &&
    !(imageMembers (img.sec .plyBind) p).isEmpty && (c.bind p).members.all fun m => keep m.strand
  let bank := c.fld (F.LPE_SLSTAT.BANK 0)
  let c1 := c.loadImage epoch (mergeImage old img) src keep keepPly
  let c2 := forBelow 9 (fun (c : Core) k => c.setFld (F.LPE_SLSTAT.BANK k) (1 - bank)) c1
  let c3 := c2.onPlan fun p => { p with
    nextCat := some (img.sec .catalogue), cand := none, switchAt := none }
  let c4 := ((c3.setFld F.PLAN_STAT.STATE plIdle).setFld F.PLAN_STAT.SWSEAL 1).raise F.PLAN_IRQ.SWITCH
  let c5 := c4.setFld F.NVM_BOOTINFO.TRY 2
  ((c5.setFld F.NVM_BOOTINFO.ACTIVE (match src with | .slotB => 1 | _ => 0)).catalogueNotice img).endTooLong epoch

/-- The plan's part of step 3 of R24: a switch that is due, or LATE where its epoch arrives during the check (R59). -/
def Core.planBoundary (c : Core) (epoch : Nat) : Core :=
  if c.planState = plChecking ∧ c.swEpoch ≠ 0 ∧ c.swEpoch = epoch then c.endCheck plRefused 0x14
  else if c.planState = plArmed ∧ c.plan.switchAt = some epoch then
    match c.plan.cand with
    | some (img, src) => c.planSwitch epoch img src
    | none => c
  else c

end Sys2Proof.Machine
end

