-- ==== Sys2Proof/Machine/Staging.lean ====
section
/-! DEFINITION. Writes to the staging windows (R42, R46, R113, R118, R128) and the handoff of a detection (R218). -/
namespace Sys2Proof.Machine

/-- A staged window write: discarded while its group is sealed (R42), done and marked otherwise. -/
def Core.stageWord (c : Core) (g a : Nat) (w : Word) (mark : PlanSt → PlanSt) : Core :=
  if c.sealed g then c.sealedWrite g
  else (({ c with mem := c.mem.putWord a w } : Core).onPlan mark).touch g

/-- A word of the staging copies (R112, chapter 06, R126): the descriptor doubleword, binding, set, row or directory entry it
belongs to is marked; a write outside the staging windows is no staged write and changes nothing. -/
def Core.stagedWrite (c : Core) (a : Nat) (w : Word) : Core :=
  if inRange 0x30000000 0x20000 a then
    c.stageWord 0 a w fun p => { p with dirty := insertNat ((a - 0x30000000) / 8) p.dirty }
  else if inRange 0x32120000 0x800 a then
    c.stageWord 1 a w fun p => { p with hankChg := insertNat ((a - 0x32120000) / 8) p.hankChg }
  else if inRange 0x31000000 0x10000 a then
    c.stageWord 2 a w fun p => { p with plyChg := insertNat ((a - 0x31000000) / 64) p.plyChg }
  else if inRange 0x31020000 0x800 a then
    c.stageWord 3 a w fun p => { p with coefChg := insertNat ((a - 0x31020000) / 32) p.coefChg }
  else if inRange 0x31030000 0x200 a then
    c.stageWord 4 a w fun p => { p with lifeChg := insertNat ((a - 0x31030000) / 8) p.lifeChg }
  else c

/-- Words written one after another through the staging rule. -/
def Core.stagedWrites (c : Core) (a : Nat) : List Word → Core
  | [] => c
  | w :: r => (c.stagedWrite a w).stagedWrites (a + 4) r

/-- Step 2 for one member strand: carrier, code rate, phase, counters, window length, and SEN and ASEN where VSEC asks. A binding's KNOM is
the slot rate of a time-multiplexed strand (R147), twice the main code's chip rate. -/
def Core.stageMember (h : HandoffReq) (b : Binding) (c : Core) (m : Member) : Core :=
  let s := m.strand
  let ws := c.stageWords s
  let d := Desc.of ws
  let fd := scaled h.fd 4
  let tdm : Nat := if d.tdm = 1 then 2 else 1
  let rate : Rat := ((b.knom : Rat) + scaled b.kaid 32 * fd) / (tdm : Rat)
  let ofs : Int := ((tsPerEpoch * h.eh : Nat) : Int) - (h.sidx0 : Int)
  let phi : Rat := ((h.cph : Nat) : Rat) / 65536 + rate * (ofs : Rat) / 81920000
  let len := (c.codeLen d.kfam d.kidx).getD 1
  let slots : Rat := (tdm : Rat) * phi
  let chip := slots.floor
  let ki := unsignedOf 20 (chip % ((tdm * len : Nat) : Int))
  let kf := unsignedOf 48 (roundRat ((slots - (chip : Rat)) * ((2 ^ 48 : Nat) : Rat)))
  let cpc := ((h.cpc0 : Int) + (phi / (len : Rat)).floor) % ((max 1 d.cpmod : Nat) : Int)
  let f : Rat := (c.ifHz d.stream : Rat) + (m.cbofs : Rat) + scaled m.crat 30 * fd
  let cr := unsignedOf 48 (roundRat (f * rateUnit))
  let kr := unsignedOf 48 (roundRat ((tdm : Rat) * rate * rateUnit))
  let vsec := bits h.verify 30 30 = 1
  let intl := max 1 (tdm * len * 1000 / max 1 b.knom)
  let w := fun k => wordOf ws k
  let w13 := if vsec then putBits (w 13) 20 19 0 else w 13
  let new : List (Nat × Word) :=
    [(0, BitVec.ofNat 32 cr), (1, putBits (w 1) 15 0 (cr / 2 ^ 32)), (4, BitVec.ofNat 32 kr), (5, putBits (w 5) 15 0 (kr / 2 ^ 32)),
     (6, BitVec.ofNat 32 kf), (7, BitVec.ofNat 32 (kf / 2 ^ 32 + ki % 2 ^ 16 * 2 ^ 16)),
     (8, BitVec.ofNat 32 (ki / 2 ^ 16 + cpc.toNat * 2 ^ 4)), (9, 0), (11, putBits (w 11) 31 31 1), (12, putBits (w 12) 9 0 intl),
     (13, w13)]
  new.foldl (fun c x => c.stagedWrite (descStage s + 4 * x.1) x.2) c

/-- MAIN's symbol edges need no search once its CPC is handed over (R219): every primary period is a symbol. -/
def Core.symbolPerPeriod (c : Core) (b : Binding) : Bool := decide ((Desc.of (c.stageWords b.main.strand)).symcp = 1)

/-- SEN and ASEN that a strand's signal calls for: as staged, or as held over an earlier handoff with VSEC. -/
def Core.wantedSecs (c : Core) (s : Nat) : Nat :=
  ((c.dst.handed.flatMap (·.members)).find? fun m => m.1 == s).elim (bits (wordOf (c.stageWords s) 13) 20 19) (·.2)

/-- The handoff in its order (R218); where the component counts as aligned, BSOK goes with it (R219). -/
def Core.handoff (c : Core) (t : Clock) (h : HandoffReq) : Core :=
  let p := h.ply
  let sigs := mapPut (fun _ => (0xFF, 0xFF)) c.dst.sigs p (h.sigid % 256, h.svid % 256)
  let c : Core := { c with dst := { c.dst with sigs := sigs } }
  let b := match h.binding with | some ws => Binding.of ws | none => c.bind p
  let c1 := match h.binding with | some ws => c.stagedWrites (plyStage p) ws | none => c
  let mine : Handed := { ply := p, members := b.members.map fun m => (m.strand, c1.wantedSecs m.strand) }
  let c2 := b.members.foldl (Core.stageMember h b) c1
  let c3 := c2.planCommit t (if h.binding.isSome then 5 else 1)
  let c4 := ((c3.writeVerify p 1 (BitVec.ofNat 32 h.eh)).writeVerify p 0 (putBits h.verify 31 31 1)).plyCommand p 1
  let c5 := applyIf (c.symbolPerPeriod b) (·.plyCommand p 5) c4
  let held := c5.dst.handed.filter fun x => x.ply != p
  { c5 with dst := { c5.dst with handed := if bits h.verify 30 30 = 1 then held ++ [mine] else held } }

/-! ### What Distaff does for a ply after its handoff (R168, R218, R219) -/

/-- Words 8 and 9 of a strand's descriptor with CPC as given, its other counters projected from the live view over `n` epochs (R113). -/
def Core.counterWords (c : Core) (s n : Nat) (cpc : Nat → Nat) : List Word :=
  let d := c.live s
  let x := Nat.repeat (c.ncoStep d) (tsPerEpoch * n) ((c.strand s).loadPhases d)
  let ws := ((c.setStrand s { x with cpc := cpc x.cpc % max 1 d.cpmod }).storePhases s ((d.icnt + n) % max 1 d.intl)).liveWords s
  [wordOf ws 8, wordOf ws 9]

/-- The primary period edges of a strand from the boundary of epoch `frm` to that of `upto`, by its code phase and rate at the boundary of
`now` (R218). -/
def Core.periodEdges (c : Core) (s now frm upto : Nat) : Int :=
  let d := c.live s
  let per : Rat := ((max 1 (c.codePeriod d) : Nat) : Rat)
  let phase := fun (e : Nat) => (d.ki : Rat) + scaled d.kf 48 + scaled d.kr 48 * (((e : Int) - (now : Int) : Int) : Rat) * ((tsPerEpoch : Nat) : Rat)
  (phase upto / per).floor - (phase frm / per).floor

/-- After VOK with VSEC: SEN and ASEN restored with CPC ≡ VSPH + P, committed, and BSOK where the secondary code's length is a multiple of
SYMCP (R218, R219). A verification that failed is forgotten. -/
def Core.afterVerify (t : Clock) (c : Core) (h : Handed) : Core :=
  let ws := c.verWords h.ply
  let forget := fun (c : Core) => ({ c with dst := { c.dst with handed := c.dst.handed.filter fun x => x.ply != h.ply } } : Core)
  match bits (wordOf ws 2) 31 30 with
  | 0 => c
  | 1 =>
    let main := c.live (c.bind h.ply).main.strand
    let at' := t.nextBoundary64
    let one := fun (c : Core) (m : Nat × Nat) =>
      let cpc := ((bits (wordOf ws 2) 11 0 : Nat) : Int) + c.periodEdges m.1 t.epoch (c.ply h.ply).verEnd at'
      let w := c.counterWords m.1 (at' - t.epoch) fun _ => (cpc % ((max 1 (c.live m.1).cpmod : Nat) : Int)).toNat
      (c.stagedWrite (descStage m.1 + 52) (putBits (wordOf (c.stageWords m.1) 13) 20 19 m.2)).stagedWrites (descStage m.1 + 32) w
    let len := (c.codeLen 0 (if bits (wordOf ws 0) 29 29 = 1 then main.asid else main.sid)).getD 1
    applyIf (decide (main.symcp ≠ 0 ∧ len % main.symcp = 0)) (·.plyCommand h.ply 5) ((forget (h.members.foldl one c)).planCommit t 1)
  | _ => forget c

/-- A bit-sync result: the corrected CPC staged and committed, then BSOK (R168). -/
def Core.afterSync (t : Clock) (c : Core) (p : Nat) : Core :=
  if (c.ply p).bsFound then
    let s := (c.bind p).main.strand
    let at' := t.nextBoundary64
    let c1 := (c.stagedWrites (descStage s + 32) (c.counterWords s (at' - t.epoch) (· + (c.ply p).bsofs))).planCommit t 1
    let seen := fun (h : Hot) => { h with plies := mapPut (fun _ => plyZero) h.plies p { mapGet (fun _ => plyZero) h.plies p with bsFound := false } }
    (c1.onHotBoth seen).plyCommand p 5
  else c

/-- What Distaff does for tracking plies in a scheduling frame (log entry 172). -/
def Core.followUps (c : Core) (t : Clock) : Core :=
  forBelow 1024 (Core.afterSync t) (c.dst.handed.foldl (Core.afterVerify t) c)

end Sys2Proof.Machine
end

