-- ==== Sys2Proof/Machine/Flywheel.lean ====
section
/-! DEFINITION. Flywheel (chapter 11): the oscillator model, its states and uncertainty, the pulse outputs with slew and step, and
the event tagger. -/
namespace Sys2Proof.Machine

def Core.onFly (c : Core) (f : FlySt → FlySt) : Core := { c with fly := f c.fly }

def flyNotime : Nat := 0
def flyLocked : Nat := 1
def flyHoldover : Nat := 2
def flyLimit : Nat := 3

def Core.flyState (c : Core) : Nat := c.fld F.FLY_STAT.STATE

/-- A state entered; a change raises STATE, and LIMIT its own interrupt. -/
def Core.setFlyState (c : Core) (st : Nat) : Core :=
  if c.flyState = st then c
  else
    let c1 := (c.setFld F.FLY_STAT.STATE st).raise F.FLY_IRQ.STATE
    applyIf (decide (st = flyLimit)) (·.raise F.FLY_IRQ.LIMIT) c1

/-! ### Time (R270) -/

/-- The magnitude of a rational. -/
def magRat (q : Rat) : Rat := if q < 0 then -q else q

/-- ns in one fc. -/
def nsPerFc : Rat := 15625 / 10240

/-- The device instant in ns since epoch 0. -/
def Clock.ns (t : Clock) : Rat := ((fcPerEpoch * t.epoch + t.fc : Nat) : Rat) * nsPerFc

/-- RXBASE in ns. -/
def Core.rxNs (c : Core) : Rat := ((c.rxBase : Nat) : Rat) * 1000000

/-- M at a device instant, and the device instant of a value of M. -/
def Core.modelAt (c : Core) (d : Rat) : Rat := c.rxNs + d - c.fly.model.x
def Core.instantOf (c : Core) (m : Rat) : Rat := m + c.fly.model.x - c.rxNs

/-! ### The prior (R273) -/

def priorTcxo : List Int := [2000000, 10000, 10000, 100000, 0, 0, 50000, 2500]
def priorOcxo : List Int := [50000, 1000, 100, 1000, 0, 0, 100, 2500]

/-- An OSC_PRIOR body that keeps its layout. -/
def priorOk (b : List Byte) : Bool := decide (b.length = 32) && zeroAt b 30 2

/-- The prior an image and the oscillator class give, and whether it is the class default. -/
def priorOf (b : List Byte) (ocxo : Bool) : List Int × Bool :=
  if priorOk b then
    (((List.range 5).map fun k => ((leAt b (4 * k) 4 : Nat) : Int)) ++
      [signedOf 32 (leAt b 20 4), ((leAt b 24 4 : Nat) : Int), signedOf 16 (leAt b 28 2)], false)
  else (if ocxo then priorOcxo else priorTcxo, true)

def FlySt.pri (f : FlySt) (k : Nat) : Rat := ((f.prior.getD k 0 : Int) : Rat)

/-- TREF in K above 0 °C, the q terms in ns² and s, σ of k_T in ns/s per K. -/
def FlySt.tref (f : FlySt) : Rat := f.pri 7 / 100
def FlySt.q1 (f : FlySt) : Rat := f.pri 2 / 1000000
def FlySt.q2 (f : FlySt) : Rat := f.pri 3 / 1000000000000
def FlySt.q3 (f : FlySt) : Rat := f.pri 4 / 1000000000000000000

/-- The filter as the prior initialises it. -/
def FlySt.init (f : FlySt) : FlySt :=
  let sy := f.pri 0 / 1000
  let sz := f.pri 1 / 1000000000
  let sk := f.pri 6 / 1000
  { f with
    model := { x := 0, y := 0, z := 0, kt := f.pri 5 / 1000, cov := [0, 0, 0, 0, 0, sy * sy, 0, 0, 0, 0, sz * sz, 0, 0, 0, 0, sk * sk] }
    lastAcc := none, consec := 0, tInt := 0, tRef := 0 }

/-- The prior of the image in force taken (R273): only the prior changes. -/
def Core.takePrior (c : Core) : Core :=
  let r := priorOf (c.plan.img.sec .oscPrior) c.fly.ocxo
  (c.onFly fun f => { f with prior := r.1 }).setFld F.FLY_STAT.PRIORDEF (ofBool (r.2 && c.plan.img.has .oscPrior))

/-! ### Pulse configuration (R277) -/

/-- The period of a code, in ns. -/
def tpPeriod (code : Nat) : Rat :=
  (((([1, 2, 4, 5, 10, 20, 25, 50, 100, 200, 250, 500, 1000, 2000, 10000, 60000] : List Nat).getD (code % 16) 1 : Nat)) : Rat) * 1000000

/-- OFFSET in ps of a CFG and an OFS word. -/
def tpOffset (cfg ofs : Word) : Int := signedOf 20 (bits cfg 31 12) * 1000000000 + signedOf 32 ofs.toNat

/-- An output's configuration from a register map. -/
def tpActOf (m : RegMap) (n : Nat) : TpAct :=
  let cfg := m.reg (R.FLY_TP_CFG n)
  { mode := bits cfg 1 0, pol := bits cfg 3 3 = 1, period := bits cfg 7 4, ofs := tpOffset cfg (m.reg (R.FLY_TP_OFS n)),
    scale := bits (m.reg R.FLY_TSCFG) (4 * n + 2) (4 * n), fb := bits (m.reg R.FLY_TSCFG) (4 * n + 3) (4 * n + 3) = 1 }

def tpDelayOf (m : RegMap) (n : Nat) : Int := ((m.reg (R.FLY_TPDLY n)).toNat : Int)

def tpZero : TpSt :=
  { act := { mode := 0, pol := false, period := 0, ofs := 0, scale := 0, fb := false }, on := false, tgt := 0, err := 0, held := 0,
    active := false, offAt := none, last := none, step := none, first := false, turn := false, lock := false, pol := false }

/-- A change of MODE and POL in effect on the pin (R281). -/
def TpSt.turned (x : TpSt) : TpSt := if x.turn then { x with turn := false, lock := x.act.mode = 2, pol := x.act.pol } else x

def Core.tp (c : Core) (n : Nat) : TpSt := vecAt tpZero c.fly.tps n
def Core.setTp (c : Core) (n : Nat) (x : TpSt) : Core := c.onFly fun f => { f with tps := putAt f.tps n x }
def Core.onTp (c : Core) (n : Nat) (f : TpSt → TpSt) : Core := c.setTp n (f (c.tp n))

/-- The offset of an output's scale as it is used, in ns: the last valid one; GPST with FBn; none holds the output inactive (R282). -/
def Core.tpOff (c : Core) (n : Nat) : Option Rat :=
  match vecAt none c.fly.scales (c.tp n).act.scale with
  | some o => some ((o : Rat) / 65536)
  | none => if (c.tp n).act.fb then some 0 else none

/-- The first target edge at the ball, in M, at or after an instant of M (R278, R279). -/
def Core.tpFirst (c : Core) (n : Nat) (m0 : Rat) : Rat :=
  let x := c.tp n
  let p := tpPeriod x.act.period
  let base := ((x.act.ofs - tpDelayOf c.force n : Int) : Rat) / 1000 - (c.tpOff n).getD 0
  base + (((m0 - base) / p).ceil : Rat) * p

/-- LIMIT with HOLDACT = 0 suppresses pulses (R276), as a HIBERNATE entry does from its boundary on (R358). -/
def Core.tpSuppressed (c : Core) : Bool :=
  (decide (c.flyState = flyLimit) && decide (c.inForce F.FLY_CFG.HOLDACT = 0)) || c.pwr.still

/-- TPACT and SLEW as FLY_STAT shows them. -/
def Core.showTps (c : Core) : Core :=
  let act := fun n => (c.tp n).on && (c.tp n).act.mode = 1 && !c.tpSuppressed && (c.tpOff n).isSome
  let slew := fun n => (c.tp n).on && (c.tp n).err ≠ 0 && (c.tp n).step.isNone
  (forBelow 4 (fun c n => (c.setBit F.FLY_STAT.TPACT n (act n)).setBit F.FLY_STAT.SLEW n (slew n)) c)

/-! ### Steps (R285) -/

/-- A step announced on outputs: FLY_STEP, STEPPEND and STEP. -/
def Core.announce (c : Core) (mask : Nat) (amount : Rat) : Core :=
  if mask = 0 then c
  else
    let c1 := ((c.setFld F.FLY_STEP.TPMASK mask).setFld F.FLY_STEP.PEND 1).setFld F.FLY_STEP.AMOUNT (unsignedOf 27 (roundRat amount))
    (c1.setFld F.FLY_STAT.STEPPEND 1).raise F.FLY_IRQ.STEP

/-- E_n evaluated on every running output: above FLY_STEPTHR a step is decided (R284, R285). -/
def Core.evaluate (c : Core) (d : Rat) : Core :=
  let thr : Rat := ((c.inForce F.FLY_STEPTHR.STEPTHR : Nat) : Rat)
  let due := fun n => (c.tp n).on && (c.tp n).step.isNone && decide (thr < magRat (c.tp n).err)
  let l := belowSuch 4 due
  let c1 := l.foldl (fun (c : Core) n => c.onTp n fun x => { x with step := some { delta := x.err, since := d, armed := false } }) c
  (c1.announce ((l.map (2 ^ ·)).sum) ((l.head?.map fun n => (c.tp n).err).getD 0)).showTps

/-- Outputs in MODE PULSE started, announced as a step: each at its first grid point from `d` on that lies at least one period after
the entry at `since` (R275, R276, R294). -/
def Core.startTps (c : Core) (d since : Rat) : Core :=
  let l := belowSuch 4 fun n => (c.tp n).act.mode = 1 && (c.tpOff n).isSome
  let start := fun (c : Core) n =>
    c.onTp n fun x =>
      { x.turned with on := true, err := 0, held := 0, last := none, step := none, first := true,
                      tgt := c.tpFirst n (c.modelAt (max d (since + tpPeriod x.act.period))) }
  ((l.foldl start c).announce ((l.map (2 ^ ·)).sum) 0).showTps

/-- The pending marks end when no output has a step left. -/
def Core.stepsDone (c : Core) : Core :=
  if (List.range 4).any fun n => (c.tp n).step.isSome || (c.tp n).first then c
  else (c.setFld F.FLY_STAT.STEPPEND 0).setFld F.FLY_STEP.PEND 0

/-! ### States (R275, R276) -/

/-- NOTIME: the prior initialises the filter and the outputs are held inactive. -/
def Core.enterNotime (c : Core) : Core :=
  let c1 := (c.setFlyState flyNotime).onFly fun f =>
    { f.init with tps := vecMap f.tps fun x =>
        { x.turned with on := false, active := false, offAt := none, step := none, first := false, err := 0, held := 0 } }
  ((((c1.setReg R.FLY_UNC 0xFFFFFFFF#32).setReg R.FLY_HOLDT 0).setFld F.FLY_STAT.STEPPEND 0).setFld F.FLY_STEP.PEND 0).showTps

/-- LOCKED: from NOTIME and from a suppressed LIMIT the outputs start anew; otherwise what was held back reaches E_n. -/
def Core.enterLocked (c : Core) (d : Rat) : Core :=
  let fresh := c.flyState = flyNotime ∨ c.tpSuppressed
  let c1 := ((c.setFlyState flyLocked).setReg R.FLY_HOLDT 0).onFly fun f => { f with anchored := none }
  if fresh then c1.startTps d d
  else (forBelow 4 (fun c n => c.onTp n fun x => { x with err := x.err + x.held, held := 0 }) c1).evaluate d

/-- Holdover time in s at an epoch. -/
def Core.holdTime (c : Core) (epoch : Nat) : Nat := (epoch - c.fly.lastAcc.getD epoch) / 1000

/-- HOLDOVER is due (R275). -/
def Core.holdoverDue (c : Core) (epoch : Nat) : Bool :=
  c.flyState = flyLocked && decide (c.inForce F.FLY_CFG.HOLDDLY * 1000 ≤ epoch - c.fly.lastAcc.getD epoch)

/-- HOLDOVER, where the count toward RETN starts anew. -/
def Core.enterHoldover (c : Core) : Core := ((c.setFlyState flyHoldover).onFly fun f => { f with consec := 0 }).showTps

def Core.holdoverEntry (c : Core) (epoch : Nat) : Core := if c.holdoverDue epoch then c.enterHoldover else c

/-! ### The filter (R271, R274) -/

def covAt (p : List Rat) (i j : Nat) : Rat := p.getD (4 * i + j) 0

/-- A 4 × 4 matrix from its entries. -/
def mat4 (f : Nat → Nat → Rat) : List Rat := (List.range 4).flatMap fun i => (List.range 4).map (f i)

def mul4 (a b : List Rat) : List Rat := mat4 fun i j => ((List.range 4).map fun k => covAt a i k * covAt b k j).sum
def trans4 (a : List Rat) : List Rat := mat4 fun i j => covAt a j i

/-- The covariance after τ seconds, with the integral of T − TREF over them. -/
def FlySt.spread (f : FlySt) (tau integral : Rat) : List Rat :=
  let phi : List Rat := [1, tau, tau * tau / 2, integral, 0, 1, tau, 0, 0, 0, 1, 0, 0, 0, 0, 1]
  let q1 := f.q1
  let q2 := f.q2
  let q3 := f.q3
  let t2 := tau * tau
  let t3 := t2 * tau
  let qxy := q2 * t2 / 2 + q3 * t2 * t2 / 8
  let q : List Rat := [q1 * tau + q2 * t3 / 3 + q3 * t3 * t2 / 20, qxy, q3 * t3 / 6, 0, qxy, q2 * tau + q3 * t3 / 3, q3 * t2 / 2, 0,
    q3 * t3 / 6, q3 * t2 / 2, q3 * tau, 0, 0, 0, 0, 0]
  let p := mul4 (mul4 phi f.model.cov) (trans4 phi)
  mat4 fun i j => covAt p i j + covAt q i j

/-- A measurement of x applied. -/
def FlyModel.measure (m : FlyModel) (p : List Rat) (xm r : Rat) : FlyModel :=
  let s := covAt p 0 0 + r
  let g := fun i => if s = 0 then 0 else covAt p i 0 / s
  let inn := xm - m.x
  { x := m.x + g 0 * inn, y := m.y + g 1 * inn, z := m.z + g 2 * inn, kt := m.kt + g 3 * inn,
    cov := mat4 fun i j => covAt p i j - g i * covAt p 0 j }

/-- P_xx(τ) of R274. -/
def FlySt.pxx (f : FlySt) (tau : Rat) : Rat :=
  let p := covAt f.model.cov
  let t2 := tau * tau
  let t3 := t2 * tau
  p 0 0 + 2 * p 0 1 * tau + (p 1 1 + p 0 2) * t2 + p 1 2 * t3 + p 2 2 * t2 * t2 / 4 + f.q1 * tau + f.q2 * t3 / 3 + f.q3 * t3 * t2 / 20

/-- The square of FLY_UNC at an epoch, in ns² (R274). -/
def Core.uncSq (c : Core) (epoch : Nat) : Rat :=
  let f := c.fly
  let tau : Rat := ((epoch - f.lastAcc.getD epoch : Nat) : Rat) / 1000
  if c.flyState = flyLocked then covAt f.model.cov 0 0 else f.pxx tau + covAt f.model.cov 3 3 * f.tInt * f.tInt

/-- FLY_UNC at an epoch (R274). -/
def Core.unc (c : Core) (epoch : Nat) : Nat :=
  if c.flyState = flyNotime then 0xFFFFFFFF else (clampInt 0 0xFFFFFFFF (roundRat (Config.sqrtRat (c.uncSq epoch)))).toNat

/-- A limit condition holds (R275), on the uncertainty itself and not on the whole ns that FLY_UNC shows. -/
def Core.limitHolds (c : Core) (epoch : Nat) : Bool :=
  let lim : Rat := ((c.inForce F.FLY_UNCLIM.UNCLIM : Nat) : Rat)
  decide (c.inForce F.FLY_HOLDLIM.HOLDLIM ≤ c.holdTime epoch ∨ lim * lim < c.uncSq epoch)

def Core.limitEntry (c : Core) (epoch : Nat) : Core :=
  if c.flyState = flyHoldover ∧ c.limitHolds epoch then (c.setFlyState flyLimit).showTps else c

/-- The model registers and FLY_UNC, FLY_HOLDT. -/
def Core.showFly (c : Core) (epoch : Nat) : Core :=
  let m := c.fly.model
  let w := fun (q : Rat) => BitVec.ofNat 32 (unsignedOf 32 (satSigned 32 (roundRat q)))
  let held := c.flyState = flyHoldover ∨ c.flyState = flyLimit
  let c1 := ((c.setReg R.FLY_FREQ (w (m.y * 1000))).setReg R.FLY_DRIFT (w (m.z * 1000000000))).setReg R.FLY_KT (w (m.kt * 1000))
  (c1.setReg R.FLY_UNC (BitVec.ofNat 32 (c.unc epoch))).setReg R.FLY_HOLDT (BitVec.ofNat 32 (if held then c.holdTime epoch else 0))

/-- A solution record waits for the check point that closes its half-epoch (R201, R271). -/
def Core.offerSolution (c : Core) (rec : List Byte) : Core :=
  c.onFly fun f => { f with sol := f.sol ++ [(leAt rec 4 1, signedOf 64 (leAt rec 44 8), leAt rec 64 4)] }

/-- The records waiting are dropped: their half-epoch was lost (R271). -/
def Core.dropSolution (c : Core) : Core := c.onFly fun f => { f with sol := [] }

/-- A record accepted: the filter, E_n, the count toward RETN. -/
def Core.acceptRecord (c : Core) (t : Clock) (b : Int) (sclk : Nat) : Core :=
  let f := c.fly
  let ant := signedOf 32 (c.force.reg (R.FLY_ANTDLY (c.inForce F.FOC_CFG.REFANT))).toNat
  let xm : Rat := (b : Rat) / 65536 / lightSpeed * 1000000000 - (ant : Rat) / 1000
  let sig : Rat := ((sclk : Nat) : Rat) / 1000 / lightSpeed * 1000000000
  let r := sig * sig
  let m := match f.lastAcc with
    | none => { f.model with x := xm, cov := setAt f.model.cov 0 r }
    | some e => f.model.measure (f.spread (((t.epoch - e : Nat) : Rat) / 1000) f.tRef) xm r
  let lock := c.flyState ≠ flyLocked ∧ c.inForce F.FLY_CFG.RETN ≤ f.consec + 1
  let m1 := if lock ∧ c.flyState = flyNotime then { m with x := xm } else m
  let dx := m1.x - f.model.x
  let locked := c.flyState = flyLocked
  let c1 := c.onFly fun f => { f with
    model := m1, lastAcc := some t.epoch, tHold := f.temp, tInt := 0, tRef := 0, consec := f.consec + 1
    tps := vecMap f.tps fun x => if locked then { x with err := x.err + dx } else { x with held := x.held + dx } }
  let c2 := if lock then c1.enterLocked t.ns else if locked then c1.evaluate t.ns else c1
  c2.showFly t.epoch

/-- A waiting record at its check point: accepted only in TRACK with σ of the clock within ACCLIM (R271). -/
def Core.judgeRecord (c : Core) (t : Clock) (r : Nat × Int × Nat) : Core :=
  if r.1 = 3 ∧ r.2.2 ≤ c.inForce F.FLY_CFG.ACCLIM * 1000 then c.acceptRecord t r.2.1 r.2.2 else c.onFly fun f => { f with consec := 0 }

/-- The records of a half-epoch at the check point that closes it, in their order. -/
def Core.applySolution (c : Core) (t : Clock) : Core := c.fly.sol.foldl (·.judgeRecord t) c.dropSolution

/-- The model over `dt` seconds at the die temperature `temp` in 0.01 °C (R270). -/
def FlySt.propagate (f : FlySt) (dt : Rat) (temp : Int) : FlySt :=
  let m := f.model
  let tk : Rat := (temp : Rat) / 100
  { f with
    model := { m with x := m.x + m.y * dt + m.z * dt * dt / 2 + m.kt * (tk - f.tref) * dt, y := m.y + m.z * dt }
    temp := temp, tInt := f.tInt + (tk - (f.tHold : Rat) / 100) * dt, tRef := f.tRef + (tk - f.tref) * dt }

/-- The model moved with the device's time, by `ns` (R272). -/
def Core.shiftModel (c : Core) (ns : Rat) : Core := c.onFly fun f => { f with model := { f.model with x := f.model.x + ns } }

/-- The state tests at an epoch boundary, and a copy that disagreed reloaded (R274, R275, R292). -/
def Core.flyBoundary (c : Core) (epoch : Nat) : Core :=
  let c1 := c.onFly fun f => { f with badCopy := false }
  let c2 := if c.fly.badCopy then (c1.countSat F.FLY_TMR.COUNT 1).raise F.FLY_IRQ.TMR else c1
  (((c2.holdoverEntry epoch).showFly epoch).limitEntry epoch).showTps

/-! ### Edges (R278 to R285) -/

/-- An instant at the ball placed in whole fc plus one of 25 fine steps (R279). -/
def placeEdge (d : Rat) : Rat := ((roundRat (d / (nsPerFc / 25)) : Int) : Rat) * (nsPerFc / 25)

/-- The instant of the emitted grid in M: the target less E_n and less what HOLDOVER and LIMIT hold back (R275, R283). -/
def TpSt.emitted (x : TpSt) : Rat := x.tgt - x.err - x.held

/-- The device instant of an output's next active edge. -/
def Core.edgeAt (c : Core) (n : Nat) : Rat := placeEdge (c.instantOf (c.tp n).emitted)

/-- An instant of device time as a place in the current epoch from now on. -/
def Clock.place (t : Clock) (d : Rat) : Option Nat :=
  let fc := (d / nsPerFc).floor - ((fcPerEpoch * t.epoch : Nat) : Int)
  if ((t.fc : Nat) : Int) ≤ fc ∧ fc < ((fcPerEpoch : Nat) : Int) then some fc.toNat else none

/-- The largest change of an interval by slewing, in ns (R284). -/
def Core.slewMax (c : Core) (n : Nat) : Rat :=
  ((c.inForce F.FLY_SLEW.SLEW : Nat) : Rat) / 100 * (tpPeriod (c.tp n).act.period / 1000000000)

/-- An output's interval to its next edge: slewed, but not with a step pending (R284, R285). -/
def Core.nextEdge (c : Core) (n : Nat) : Core :=
  let cap := c.slewMax n
  c.onTp n fun x =>
    let del := if x.step.isSome then 0 else if x.err < 0 then max x.err (-cap) else min x.err cap
    { x with tgt := x.tgt + tpPeriod x.act.period, err := x.err - del }

/-- The output after an active edge at device instant `d`: an edge of a pending step leads to the new grid; the first edge there ends
the step, and what is left of E_n is judged before the next interval; any other interval slews. The first pulse after a start ends the
step as which the start was announced. -/
def Core.afterEdge (c : Core) (n : Nat) (d : Rat) : Core :=
  let x := c.tp n
  let p := tpPeriod x.act.period
  let c1 := c.setTp n { x with first := false }
  let started := fun (c : Core) => if x.first then (c.raise F.FLY_IRQ.STEPDONE).stepsDone else c
  match x.step with
  | some s =>
    if s.armed then
      ((((c.setTp n { x with step := none, first := false }).raise F.FLY_IRQ.STEPDONE).stepsDone).evaluate d).nextEdge n
    else if s.since + 50000000 ≤ d then
      let k := (p / 2 - s.delta) / p
      started (c1.onTp n fun x =>
        { x with step := some { s with armed := true }, err := x.err - s.delta, tgt := x.tgt + (k.ceil : Rat) * p })
    else started (c1.nextEdge n)
  | none => started (c1.nextEdge n)

/-- Pulses of an output run. -/
def Core.tpRuns (c : Core) (n : Nat) : Bool :=
  (c.tp n).on && (c.tp n).act.mode = 1 && (c.tpOff n).isSome && c.flyState ≠ flyNotime

/-- The next edge of an output's grid taken: a change of MODE and POL takes effect, and a running output has its active edge (R278 to
R285); a suppressed one is passed over (R276). -/
def Core.tpEdge (c : Core) (n : Nat) : Core :=
  let d := c.edgeAt n
  let c0 := c.onTp n TpSt.turned
  if ¬ c.tpRuns n then c0
  else if c.tpSuppressed then c0.onTp n fun x => { x with tgt := x.tgt + tpPeriod x.act.period }
  else
    let mark := c.flyState = flyLimit ∧ c.inForce F.FLY_CFG.HOLDACT = 1
    let units := if mark then c.inForce (F.FLY_TP_WID.MWID n) else c.inForce (F.FLY_TP_WID.WIDTH n)
    let c1 := c0.onTp n fun x => { x with active := true, offAt := some (d + ((units : Nat) : Rat) * 10000), last := some d }
    (c1.afterEdge n d).showTps

/-- An output's grid has an edge to come: pulses run, or a change waits for it. -/
def Core.tpMoves (c : Core) (n : Nat) : Bool := c.tpRuns n || (c.tp n).turn

/-- The next pulse of an output is the first on a new grid (R285 step 3). -/
def TpSt.stepNext (x : TpSt) : Bool := x.first || (match x.step with | some s => s.armed | none => false)

/-- The inactive edge of an output taken (R280). -/
def Core.tpEnd (c : Core) (n : Nat) : Core := c.onTp n fun x => { x with active := false, offAt := none }

/-- The fc, counted from epoch 0, of a device instant. -/
def fcOf (d : Rat) : Int := (d / nsPerFc).floor

/-- Every edge of an output before an fc counted from epoch 0, in time order. -/
def Core.tpRun (c : Core) (n : Nat) (upto : Int) : Nat → Core
  | 0 => c
  | k + 1 =>
    let off := (c.tp n).offAt
    let next := c.edgeAt n
    let first : Bool := match off with | some d => !c.tpMoves n || decide (d ≤ next) | none => false
    if first then (if fcOf (off.getD 0) < upto then (c.tpEnd n).tpRun n upto k else c)
    else if c.tpMoves n && decide (fcOf next < upto) then (c.tpEdge n).tpRun n upto k
    else c

/-- The edges of every output before an fc; at most two a ms fall in an epoch. -/
def Core.tpAdvance (c : Core) (upto : Int) : Core := forBelow 4 (fun c n => c.tpRun n upto 8) c

/-- The level of a TPn pin as Flywheel drives it (R277), inactive from a HIBERNATE entry on (R294, R358). -/
def Core.tpLevel (c : Core) (n : Nat) : Bool :=
  let x := c.tp n
  let act := if x.lock then decide (c.flyState = flyLocked) else x.active
  (act && decide (c.pwrState < pwHib) && !c.pwr.still) != x.pol

/-! ### Staging groups 10 to 12 (R278, R280, R281) -/

/-- A refused commit: none of the group's fields apply. -/
def Core.flyRefuse (c : Core) (g tp code : Nat) : Core :=
  (((c.setFld F.FLY_CFGERR.GRP g).setFld F.FLY_CFGERR.TP tp).setFld F.FLY_CFGERR.CODE code).raise F.FLY_IRQ.CFGERR

def group10Regs : List Nat := (List.range 4).flatMap fun n => [R.FLY_TP_CFG n, R.FLY_TP_WID n, R.FLY_TP_OFS n]
def group11Regs : List Nat := R.FLY_TSCFG :: (List.range 4).flatMap fun n => [R.FLY_ANTDLY n, R.FLY_TPDLY n]
def group12Regs : List Nat := [R.FLY_CFG, R.FLY_HOLDLIM, R.FLY_UNCLIM, R.FLY_STEPTHR, R.FLY_SLEW]

/-- UTC or GLONASST. -/
def leapScale (k : Nat) : Bool := decide (k = 3 ∨ k = 4)

/-- The group 10 code of an output under the scales of a group 11 word. -/
def Core.group10Code (c : Core) (ts : Word) (n : Nat) : Nat :=
  let cfg := c.reg (R.FLY_TP_CFG n)
  let wid := c.reg (R.FLY_TP_WID n)
  let p := tpPeriod (bits cfg 7 4)
  let half := (p / 20000).floor.toNat
  let ofs := tpOffset cfg (c.reg (R.FLY_TP_OFS n))
  let bad := fun (v : Nat) => decide (v < 1 ∨ half ≤ v)
  if bits cfg 11 9 ≠ 0 ∨ bits cfg 2 2 ≠ 0 ∨ bits cfg 1 0 = 3 then 1
  else if leapScale (bits ts (4 * n + 2) (4 * n)) ∧ 1000000000 < p then 2
  else if bad (bits wid 15 0) || bad (bits wid 31 16) then 3
  else if p * 1000 ≤ magRat (ofs : Rat) then 4
  else 0

/-- The group 11 code of an output, with the periods of group 10's staged words where they come into force at the same boundary. -/
def Core.group11Code (c : Core) (with10 : Bool) (n : Nat) : Nat :=
  let ts := c.reg R.FLY_TSCFG
  let k := bits ts (4 * n + 2) (4 * n)
  let cfg := if with10 then c.reg (R.FLY_TP_CFG n) else c.force.reg (R.FLY_TP_CFG n)
  if bits ts 31 16 ≠ 0 ∨ 5 < k then 1
  else if leapScale k ∧ 1000000000 < tpPeriod (bits cfg 7 4) then 2
  else if 1000000 < (c.reg (R.FLY_TPDLY n)).toNat then 5
  else 0

def Core.group12Code (c : Core) : Nat :=
  let within := fun (f : Fld) (lo hi : Nat) => decide (lo ≤ c.fld f ∧ c.fld f ≤ hi)
  if bits (c.reg R.FLY_CFG) 31 24 ≠ 0 ∨ bits (c.reg R.FLY_CFG) 3 2 ≠ 0 ∨ c.fld F.FLY_CFG.HOLDACT = 3 then 1
  else if within F.FLY_CFG.HOLDDLY 1 255 && within F.FLY_CFG.ACCLIM 1 255 && within F.FLY_CFG.RETN 1 15 &&
      within F.FLY_HOLDLIM.HOLDLIM 1 0xFFFFFFFF && within F.FLY_UNCLIM.UNCLIM 1 0xFFFFFFFF &&
      within F.FLY_STEPTHR.STEPTHR 1 1000000 && within F.FLY_SLEW.SLEW 1 100000 then 0
  else 5

/-- An output takes a new configuration (R281): from now on its grid is the new one, whose first edge lies at least P / 2 after the
last active edge and not before the end of a pulse in progress; MODE and POL reach the pin there, at once where there is no grid. A
pending step is absorbed and the first pulse carries STEP. FBn alone changes nothing once the scale has an offset (R282). -/
def Core.retake (c : Core) (d : Rat) (n : Nat) : Core :=
  let x := c.tp n
  let act := tpActOf c.force n
  let c1 := c.onTp n fun x => { x with act := act }
  if { x.act with fb := act.fb } = act ∧ (c.tpOff n = c1.tpOff n) then c1
  else
    let after := match x.last with | some l => max d (l + tpPeriod act.period / 2) | none => d
    let grid := c.flyState ≠ flyNotime ∧ (c1.tpOff n).isSome
    let c2 := c1.onTp n fun x =>
      { x with on := decide (grid ∧ act.mode = 1), err := 0, held := 0, first := decide (grid ∧ act.mode = 1) && (x.first || x.step.isSome),
               step := none, turn := true, tgt := c1.tpFirst n (c1.modelAt (max after (x.offAt.getD after))) }
    (if grid then c2 else c2.onTp n TpSt.turned).stepsDone

/-- Group 10 applies. -/
def Core.applyGroup10 (c : Core) (t : Clock) : Core :=
  let code := c.group10Code (c.force.reg R.FLY_TSCFG)
  match (List.range 4).find? fun n => code n != 0 with
  | some n => c.flyRefuse 10 n (code n)
  | none => (forBelow 4 (fun c n => c.retake t.ns n) (c.putInForce group10Regs)).showTps

/-- Group 11 applies: a change of a ball delay reaches the pins through E_n (R283). It comes before group 10 (R44), and meets group 10's
periods where group 10 applies with it and breaks no rule of its own. -/
def Core.applyGroup11 (c : Core) (t : Clock) (due10 : Bool) : Core :=
  let with10 := due10 && (List.range 4).all fun n => c.group10Code 0 n == 0
  match (List.range 4).find? fun n => c.group11Code with10 n != 0 with
  | some n => c.flyRefuse 11 n (c.group11Code with10 n)
  | none =>
    let c1 := forBelow 4 (fun (d : Core) n =>
      let by' : Rat := ((tpDelayOf c.regs n - tpDelayOf c.force n : Int) : Rat) / 1000
      d.onTp n fun x => { x with tgt := x.tgt - by', err := x.err - by' }) (c.putInForce group11Regs)
    ((forBelow 4 (fun c n => c.retake t.ns n) c1).evaluate t.ns)

/-- Group 12 applies; in LIMIT it may lift both limit conditions (R275). -/
def Core.applyGroup12 (c : Core) (epoch : Nat) : Core :=
  if c.group12Code ≠ 0 then c.flyRefuse 12 0 c.group12Code
  else
    let c1 := c.putInForce group12Regs
    if c1.flyState = flyLimit ∧ ¬ c1.limitHolds epoch then (c1.setFlyState flyHoldover).showTps else c1.showTps

/-! ### Time scales under the pulses (R282, R283) -/

/-- An offset folded to half a period around zero. -/
def foldPeriod (p v : Rat) : Rat := v - ((v / p + 1 / 2).floor : Rat) * p

/-- A scale's table entry has been written: a new offset moves the targets, a first VALID makes a step, a lost VALID is held. -/
def Core.flyScale (c : Core) (d : Rat) (k : Nat) : Core :=
  let old := vecAt none c.fly.scales k
  match c.scaleOfs k with
  | none => if old.isSome then c.raise F.FLY_STAT.TSOLD else c
  | some o =>
    let c1 := c.onFly fun f => { f with scales := putAt f.scales k (some o) }
    let move := fun (c : Core) (n : Nat) =>
      let x := c.tp n
      if x.act.scale ≠ k then c
      else if x.on then
        let by' := foldPeriod (tpPeriod x.act.period) (((o - old.getD 0 : Int) : Rat) / 65536)
        let y := { x with tgt := x.tgt - by', err := x.err - by' }
        c.setTp n (if old.isNone ∧ x.step.isNone ∧ y.err ≠ 0 then
          { y with step := some { delta := y.err, since := d, armed := false } } else y)
      else if old.isNone ∧ x.act.mode = 1 ∧ c.flyState ≠ flyNotime then
        c.setTp n { x with on := true, first := true, err := 0, tgt := c.tpFirst n (c.modelAt d + tpPeriod x.act.period) }
      else c
    let c2 := forBelow 4 move c1
    let stepped := belowSuch 4 fun n => old.isNone && (c1.tp n).act.scale == k && ((c2.tp n).step.isSome || (c2.tp n).first)
    (c2.announce ((stepped.map (2 ^ ·)).sum) ((stepped.head?.map fun n => (c2.tp n).err).getD 0)).evaluate d

/-! ### Event tags (R289, R290) -/

def eventHistory (n slot : Nat) : Nat := 0x3102F000 + 256 * n + 16 * slot

/-- A write of FLY_EVCFG in a Ts: its selects apply from the next one. -/
def Core.evWrite (c : Core) (ts : Nat) : Core :=
  if c.fly.evWas.any (·.1 == ts) then c else c.onFly fun f => { f with evWas := some (ts, c.reg R.FLY_EVCFG) }

/-- The edge selects that apply in a Ts. -/
def Core.evSelects (c : Core) (ts : Nat) : Word :=
  match c.fly.evWas with
  | some (s, w) => if s = ts then w else c.reg R.FLY_EVCFG
  | none => c.reg R.FLY_EVCFG

/-- An edge at the fc `now` counted from epoch 0 on EVTn. -/
def Core.eventTag (c : Core) (now n : Nat) (falling : Bool) : Core :=
  let sel := bits (c.evSelects (now / 8)) (2 * n + 1) (2 * n)
  let wanted := if falling then decide (2 ≤ sel) else decide (sel = 1 ∨ sel = 3)
  let close := match vecAt none c.fly.evLast n with | some l => decide (now < l + 16) | none => false
  if !wanted then c
  else if close then c.countSat F.FLY_EVSTAT.CLOSE 1
  else
    let count := (vecAt 0 c.fly.evCount n + 1) % 2 ^ 32
    let s := now / 8
    let w3 := fun (v : Nat) => BitVec.ofNat 32 (v * 2 ^ 31 + ofBool falling * 2 ^ 8 + n * 2 ^ 4 + now % 8)
    let ws := fun v => [BitVec.ofNat 32 s, BitVec.ofNat 32 (s / 2 ^ 32), BitVec.ofNat 32 count, w3 v]
    let c1 := c.onFly fun f => { f with evCount := putAt f.evCount n count, evLast := putAt f.evLast n (some now) }
    let c2 : Core := { c1 with mem := c1.mem.putWords (eventHistory n (count % 16)) (ws 0) }
    if 256 ≤ c.fly.evq.length then (c2.countSat F.FLY_EVSTAT.DROP 1).raise F.FLY_IRQ.EVDROP
    else
      let c3 := applyIf c.fly.evq.isEmpty (·.raise F.FLY_IRQ.EVQ) c2
      let time := if c.flyState = flyNotime then none else some (c.modelAt ((now : Rat) * nsPerFc))
      (c3.onFly fun f => { f with evq := f.evq ++ [{ words := ws 1, time := time }] }).setFld F.FLY_EVSTAT.FILL (c.fly.evq.length + 1)

/-- A read of FLY_EVQ3: the oldest entry leaves and its other words are latched. -/
def Core.readEventQ (c : Core) : Core × Word :=
  match c.fly.evq with
  | [] => (c, 0)
  | e :: r =>
    let c1 := (c.onFly fun f => { f with evq := r }).setFld F.FLY_EVSTAT.FILL r.length
    let w := wordOf e.words
    (((c1.setReg R.FLY_EVQ0 (w 0)).setReg R.FLY_EVQ1 (w 1)).setReg R.FLY_EVQ2 (w 2), w 3)

/-- No two copies agree (R293): NOTIME, TMRF; Mirror takes the fault. -/
def Core.tmrFail (c : Core) : Core := c.enterNotime.setFld F.FLY_STAT.TMRF 1

end Sys2Proof.Machine
end

