-- ==== Sys2Proof/Machine/Reel.lean ====
section
/-! DEFINITION. Reel (chapter 12): counters, compares with pin actions, captures, sleep and make-up. -/
namespace Sys2Proof.Machine

def two64 : Nat := 2 ^ 64

def Core.onReel (c : Core) (f : ReelSt → ReelSt) : Core := { c with reel := f c.reel }

def reelZero : ReelCnt :=
  { base := 0, since := 0, run := false, cmp := 0, inc := 0, cap := 0, capAt := none, out := false, want := none, release := none }

def Core.rc (c : Core) (n : Nat) : ReelCnt := vecAt reelZero c.reel.cnts n
def Core.setRc (c : Core) (n : Nat) (x : ReelCnt) : Core := c.onReel fun r => { r with cnts := putAt r.cnts n x }
def Core.onRc (c : Core) (n : Nat) (f : ReelCnt → ReelCnt) : Core := c.setRc n (f (c.rc n))

/-- The count at a sample index (R295). -/
def ReelCnt.count (x : ReelCnt) (s : Nat) : Nat := if x.run then (x.base + (s - x.since)) % two64 else x.base

/-- RUN and ARMED as REEL_STAT shows them. -/
def Core.showReel (c : Core) (n : Nat) : Core :=
  (c.setBit F.REEL_STAT.RUN n (c.rc n).run).setBit F.REEL_STAT.ARMED n (c.flag (F.REEL_CFG.ARM n))

/-- A capture of counter `n` at an fc counted from epoch 0 (R303, R304). -/
def Core.capture (c : Core) (n now : Nat) : Core :=
  let c1 := c.onRc n fun x =>
    { x with cap := x.count (now / 8), capAt := if x.capAt.any (·.1 == now) then x.capAt else some (now, x.cap) }
  let full := bitOf (c.fld F.REEL_CAPSTAT.CAPF) n
  let c2 := ((applyIf full (fun c => (c.setBit F.REEL_CAPSTAT.CAPOVR n true).raise F.REEL_IRQ.CAPOVR) c1).setBit F.REEL_CAPSTAT.CAPF n
    true)
  c2.setBit F.REEL_IRQ.CAP n true

/-- An edge reaches the ball of EVTc at an fc: every capture that chooses it latches (R303). -/
def Core.captureEdge (c : Core) (ch now : Nat) (falling : Bool) : Core :=
  forBelow 8 (fun (c : Core) n =>
    let e := c.fld (F.REEL_CFG.CAPEDGE n)
    if c.fld (F.REEL_CFG.CAPSRC n) = ch ∧ (if falling then 2 ≤ e else e = 1 ∨ e = 3) then c.capture n now else c) c

/-- The pin number of the EVTn ball. -/
def evtPin (n : Nat) : Nat := 68 + n

/-- The level that the output register of counter `n` takes at the end of a Ts: the last one given in that Ts stands (R302). -/
def Core.drivePin (c : Core) (n s : Nat) (level : Bool) : Core := c.onRc n fun x => { x with want := some (s, level) }

/-- The output register of counter `n` changes at the sample-clock edge that begins fc `now`: a change that Reel drives is on its way to
the ball, unless the console overrides the ball (R302). -/
def Core.settlePin (c : Core) (now n : Nat) : Core :=
  match (c.rc n).want with
  | none => c
  | some (s, level) =>
    if now < 8 * (s + 1) then c
    else
      let c1 := c.onRc n fun x => { x with out := level, want := none }
      if (c.rc n).out ≠ level ∧ c.flag (F.REEL_CFG.OE n) ∧ ¬ c.pinOver.any (fun o => o.1 == evtPin n) then
        c1.onReel fun r => { r with moving := r.moving ++ [(8 * (s + 1) + 2 + Config.reelDelay n % 3, n, level)] }
      else c1

/-- Driven edges that have reached their balls are tagged and captured (R291, R303). -/
def Core.landEdges (c : Core) (now : Nat) : Core :=
  let due := c.reel.moving.filter fun m => m.1 ≤ now
  due.foldl (fun (c : Core) m => (c.eventTag m.1 m.2.1 (!m.2.2)).captureEdge m.2.1 m.1 (!m.2.2))
    (c.onReel fun r => { r with moving := r.moving.filter fun m => now < m.1 })

/-- ACT at a match. -/
def Core.matchAction (c : Core) (n s : Nat) : Core :=
  match c.fld (F.REEL_CFG.ACT n) with
  | 1 => c.drivePin n s true
  | 2 => c.drivePin n s false
  | 3 => c.drivePin n s (!(c.rc n).out)
  | _ => c

/-- A compare advances or disarms after a match (R299). -/
def Core.afterMatch (c : Core) (n : Nat) : Core :=
  let x := c.rc n
  if c.flag (F.REEL_CFG.PER n) ∧ x.inc ≠ 0 then c.setRc n { x with cmp := (x.cmp + x.inc) % two64 }
  else (c.setFld (F.REEL_CFG.ARM n) 0).showReel n

/-- Compare `n` matches in a Ts. -/
def Core.matchNow (c : Core) (n s : Nat) : Core := ((c.matchAction n s).setBit F.REEL_IRQ.MATCH n true).afterMatch n

/-- The Ts in which compare `n` next matches, after sample index `s` (R299, R301): a compare equal to the count is past. -/
def Core.nextMatch (c : Core) (n s : Nat) : Option Nat :=
  let x := c.rc n
  if x.run ∧ c.flag (F.REEL_CFG.ARM n) then
    let ahead := (x.cmp + two64 - x.count s) % two64
    some (s + if ahead = 0 then two64 else ahead)
  else none

/-- The smallest of some instants. -/
def firstOf (l : List Nat) : Option Nat := l.foldl (fun (r : Option Nat) a => some (r.elim a (min a))) none

/-- The Ts of the next match of any compare. -/
def Core.matchTs (c : Core) : Option Nat := firstOf ((List.range 8).filterMap fun n => c.nextMatch n c.reel.seen)

/-- The fc at which something next happens in Reel: a driven edge reaches its ball, an output register changes, or compares match. -/
def Core.reelNext (c : Core) : Option Nat :=
  firstOf (c.reel.moving.map (·.1) ++ ((List.range 8).filterMap fun n => (c.rc n).want.map fun w => 8 * (w.1 + 1)) ++
    (c.matchTs.map (8 * ·)).toList)

/-- What happens in Reel at an fc: outputs change, edges land, then the compares of the Ts that begins match. -/
def Core.reelAt (c : Core) (now : Nat) : Core :=
  let c1 := (forBelow 8 (fun c n => c.settlePin now n) c).landEdges now
  match c1.matchTs with
  | some m =>
    if 8 * m ≤ now then
      let hit := belowSuch 8 fun n => c1.nextMatch n c1.reel.seen == some m
      (hit.foldl (fun c n => c.matchNow n m) c1).onReel fun r => { r with seen := m }
    else c1
  | none => c1

def Core.reelRun (upto : Nat) : Nat → Core → Core
  | 0, c => c
  | k + 1, c =>
    match c.reelNext with
    | some fc => if fc ≤ upto then (c.reelAt fc).reelRun upto k else c
    | none => c

/-- Everything in Reel up to an fc counted from epoch 0, in time order: a match in every Ts and two further steps of each of its drives
are the most there can be. -/
def Core.reelAdvance (c : Core) (now : Nat) : Core :=
  (c.reelRun now (4 * (now / 8 + 2 - c.reel.seen) + c.reel.moving.length + 16)).onReel fun r => { r with seen := max r.seen (now / 8) }

/-- The test of R301 in the Ts `s`. -/
def Core.testPast (c : Core) (n s : Nat) : Core :=
  if c.flag (F.REEL_CFG.ARM n) ∧ (c.rc n).cmp ≤ (c.rc n).count s then
    (c.setBit F.REEL_STAT.PAST n true).raise F.REEL_IRQ.PAST
  else c

/-- A counter released in a Ts (R296). -/
def Core.release (c : Core) (n s : Nat) (sync : Bool) : Core :=
  let x := c.rc n
  if x.run then c.setRc n { x with release := none }
  else (c.setRc n { x with run := true, since := s, base := if sync then s % two64 else x.base, release := none }).showReel n

/-- REEL_START (R296). -/
def Core.reelStart (c : Core) (t : Clock) (mask : Nat) (atEpoch sync : Bool) : Core :=
  forBelow 8 (fun (c : Core) n =>
    if ¬ bitOf mask n ∨ (c.rc n).run then c
    else if atEpoch then c.onRc n fun x => { x with release := some (t.nextBoundary64, sync) }
    else c.release n t.sidx sync) c

/-- Releases waiting for the boundary of an epoch, in its first Ts. -/
def Core.reelBoundary (c : Core) (epoch : Nat) : Core :=
  (forBelow 8 (fun (c : Core) n =>
    match (c.rc n).release with
    | some (e, sync) => if e ≤ epoch then c.release n (tsPerEpoch * epoch) sync else c
    | none => c) c).reelAdvance (8 * (tsPerEpoch * epoch))

/-- A counter stopped in a Ts. -/
def Core.stopCnt (c : Core) (n s : Nat) : Core :=
  (c.onRc n fun x => { x with base := x.count s, run := false }).showReel n

/-- REEL_STOP (R296). -/
def Core.reelStop (c : Core) (t : Clock) (mask : Nat) : Core :=
  forBelow 8 (fun (c : Core) n => if bitOf mask n ∧ (c.rc n).run then c.stopCnt n t.sidx else c) c

/-- A write to a _LO register. -/
def Core.reelLoWrite (c : Core) (t : Clock) (r : ReelReg) (n : Nat) (w : Word) : Core :=
  let v := (c.reg R.REEL_WHI).toNat * 2 ^ 32 + w.toNat
  match r with
  | .cnt =>
    if (c.rc n).run then c.raise F.REEL_IRQ.WRUN
    else (c.onRc n fun x => { x with base := v }).testPast n t.sidx
  | .cmp => (c.onRc n fun x => { x with cmp := v }).testPast n t.sidx
  | .inc => (c.onRc n fun x => { x with inc := v }).setReg (R.REEL_INC_LO n) w |>.setReg (R.REEL_INC_HI n) (c.reg R.REEL_WHI)

/-- PINSET (R302). -/
def Core.pinset (c : Core) (t : Clock) (n v : Nat) : Core :=
  if ¬ c.flag (F.REEL_CFG.OE n) then c
  else if v = 1 then c.drivePin n t.sidx true
  else if v = 2 then c.drivePin n t.sidx false
  else c

/-- A write to REEL_CFGn: the stored fields, the test of R301 where ARM becomes set, then PINSET and CAPSW. -/
def Core.reelCfg (c : Core) (t : Clock) (n : Nat) (w : Word) : Core :=
  let armed := !c.flag (F.REEL_CFG.ARM n) && bits w 3 3 = 1
  let c1 := (c.setReg (R.REEL_CFG n) (w &&& 0x0000F8F8#32)).showReel n
  let c2 := applyIf armed (·.testPast n t.sidx) c1
  let c3 := c2.pinset t n (bits w 9 8)
  if bits w 10 10 = 1 then c3.capture n t.abs else c3

/-- Reads that latch (R298, R304). -/
def Core.readReelCnt (c : Core) (t : Clock) (n : Nat) : Core × Word :=
  let v := (c.rc n).count t.sidx
  (c.setReg (R.REEL_CNT_HI n) (BitVec.ofNat 32 (v / 2 ^ 32)), BitVec.ofNat 32 v)

def Core.readReelCmp (c : Core) (n : Nat) : Core × Word :=
  let v := (c.rc n).cmp
  (c.setReg (R.REEL_CMP_HI n) (BitVec.ofNat 32 (v / 2 ^ 32)), BitVec.ofNat 32 v)

/-- A read of REEL_CAPn_LO: where a capture has come in its own cycle, the value before it, and CAPF stays (R305). -/
def Core.readReelCap (c : Core) (now n : Nat) : Core × Word :=
  let x := c.rc n
  match x.capAt.filter (·.1 == now) with
  | some q => (c.setReg (R.REEL_CAP_HI n) (BitVec.ofNat 32 (q.2 / 2 ^ 32)), BitVec.ofNat 32 q.2)
  | none =>
    ((c.setReg (R.REEL_CAP_HI n) (BitVec.ofNat 32 (x.cap / 2 ^ 32))).setBit F.REEL_CAPSTAT.CAPF n false, BitVec.ofNat 32 x.cap)

def Core.readMkAmount (c : Core) : Core × Word :=
  let v := c.reel.amount
  (c.setReg R.REEL_MKAMT_HI (BitVec.ofNat 32 (v / 2 ^ 32)), BitVec.ofNat 32 v)

/-! ### Sleep and make-up (R306 to R310) -/

/-- Every running counter stops in the Ts of the Whorl tick edge; RUN stays as the sign that it ran at entry. A release that waits for
an epoch boundary is not in the save list (R360). -/
def Core.reelSleep (c : Core) (now : Nat) : Core :=
  (c.reelAdvance now).onReel fun r =>
    { r with
      moving := []
      cnts := vecMap r.cnts fun x =>
        { x with base := x.count (now / 8), since := now / 8, out := (x.want.map (·.2)).getD x.out, want := none, capAt := none, release := none } }

/-- A follower takes the set's index (R365, R478): a running counter goes on from the count it has, and M from the time it shows. -/
def Core.newIndex (c : Core) (old new : Nat) : Core :=
  (c.shiftModel (((new : Rat) - (old : Rat)) * 8 * nsPerFc)).onReel fun r => { r with
    seen := new, cnts := vecMap r.cnts fun x => if x.run then { x with base := x.count old, since := new } else x }

/-- One compare at the resume Ts `s`, the counter having moved from `saved` by `amount`. -/
def Core.makeUpCmp (c : Core) (n s saved amount : Nat) : Core :=
  let x := c.rc n
  let d := (x.cmp + two64 - saved) % two64
  if ¬ (x.run ∧ c.flag (F.REEL_CFG.ARM n) ∧ 0 < d ∧ d ≤ amount) then c
  else
    let c1 := ((c.matchAction n s).setBit F.REEL_IRQ.MATCH n true).setBit F.REEL_STAT.MKHIT n true
    let c2 := c1.raise F.REEL_IRQ.MKHIT
    if c.flag (F.REEL_CFG.PER n) ∧ x.inc ≠ 0 then
      let k := (amount - d) / x.inc + 1
      (c2.onRc n fun x => { x with cmp := (x.cmp + k * x.inc) % two64 }).setReg (R.REEL_SKIP n)
        (BitVec.ofNat 32 (min 0xFFFFFFFF (k - 1)))
    else ((c2.setFld (F.REEL_CFG.ARM n) 0).setReg (R.REEL_SKIP n) 0).showReel n

/-- The make-up at wake over `delta` whole Whorl ticks (R307 to R310): the amount in Ts, added to every counter that ran. -/
def Core.makeUp (c : Core) (s delta : Nat) (trusted : Bool) : Core :=
  let rate := (c.reg R.REEL_MKRATE).toNat
  let prod := delta * rate + c.fld F.REEL_MKFRAC.FRAC
  let amount := if trusted then prod / 2 ^ 16 else 0
  let old := c.reel.cnts
  let c1 := c.onReel fun r => { r with
    amount := amount, seen := s
    cnts := vecMap r.cnts fun x => if x.run then { x with base := (x.base + amount) % two64, since := s } else x }
  let c2 :=
    if trusted then
      ((c1.setFld F.REEL_MKFRAC.FRAC (prod % 2 ^ 16)).setFld F.REEL_MKERR.INVAL 0).setFld F.REEL_MKERR.ERR ((rate + 65535) / 65536)
    else (c1.setFld F.REEL_MKERR.INVAL 1).raise F.REEL_IRQ.MKINV
  forBelow 8 (fun c n => c.makeUpCmp n s (vecAt reelZero old n).base amount) c2

end Sys2Proof.Machine
end

