-- ==== Sys2Proof/Machine/Mirror.lean ====
section
/-! DEFINITION. Mirror (chapter 13): fault registration, the owners of planned slots, the check point with checkpoint, rollback and
projection, replay, reseed, Distaff recovery and memory errors. -/
namespace Sys2Proof.Machine

/-- A session closed: its unanswered requests, its retry memory and its SEQ go (R441). -/
def LinkSt.close (l : LinkSt) : LinkSt :=
  { l with opened := false, seq := 0, memory := [], waiting := [], lost := 0, restored := false, nonce := none, notices := [] }

/-! ### Slot owners (R32, R38) -/

/-- The instant of an event tag, as the channel's history holds it (R198, R290). -/
def Core.eventFc (c : Core) (ch count : Nat) : Option Nat :=
  let a := eventHistory ch (count % 16)
  let w3 := c.mem.word (a + 12)
  if (c.mem.word (a + 8)).toNat = count ∧ count ≠ 0 then
    some (8 * ((c.mem.word a).toNat + 2 ^ 32 * (c.mem.word (a + 4)).toNat) + bits w3 2 0)
  else none

/-- A slot's standard kernel run for one occurrence, or its program started. -/
def Core.runCompute (c : Core) (t : Clock) (s : SlotEntry) : Core :=
  let k := sliceOf s.resource
  if s.kind = kLoop then
    if s.paramA = 0 then (c.holdSlice t k kLoop).loopSlot t.epoch k else c.startProgram t k kLoop s.paramA
  else if s.kind = kFocus then
    if s.index = 0 then (c.holdSlice t k kFocus).focusSlot t c.eventFc else (c.openFocus t).startProgram t k kFocus s.index
  else c.startProgram t k kUser s.index

/-- The solution record given to Distaff and, live, to Flywheel (R201, R327). -/
def Core.giveSolution (c : Core) (replay : Bool) : Core :=
  let r := c.solutionRecord
  let c1 := c.onOut fun o => { o with sols := o.sols ++ [(r, replay)] }
  if replay then c1 else c1.offerSolution r

/-- An occurrence of SOLUTION slot `i`: its record leaves the port pair whole or not at all (R321). -/
def Core.solutionSlot (c : Core) (i epoch : Nat) : Core :=
  let any := c.mir.badOut.any fun b => b.1 == 9 && decide (b.2 < 24)
  let r := (c.onMir fun m => { m with badOut := (m.badOut.filter (·.1 ≠ 9)) ++ if any then [(9, 0)] else [] }).emits 9
  if r.2 then r.1.giveSolution false else r.1.onMir fun m => m.missed i epoch

/-- The pair a slot's outputs leave through: skein pair k, Focus, or the port pair (R311). -/
def pairOf (s : SlotEntry) : Nat :=
  if s.kind = kRecord ∨ s.kind = kSolution then 9 else if s.resource = 0x18 then 8 else s.resource % 16

/-- A LOOP or PORT slot of an island that is gated or retained does not run (R353, R357). -/
def Core.slotGated (c : Core) (s : SlotEntry) : Bool :=
  decide (s.kind = kLoop ∨ s.kind = kPort) && decide (s.resource % 16 < 8) && !c.islandOn (s.resource % 16)

/-- An owner's occurrence begins. `bad` numbers the output word or entry of the occurrence on which the copies will disagree by chance
(R312); a LOOP, FOCUS, RECORD or SOLUTION occurrence is noted for a replay (R325); in a reseed epoch none of these kinds runs (R331). -/
def Core.runOwner (c : Core) (t : Clock) (i : Nat) (s : SlotEntry) (bad : Option Nat) : Core :=
  if s.kind = kPrism then c.openPrism s
  else if s.kind = kPort ∨ c.flag F.MIR_STAT.RESEED ∨ c.slotGated s then c
  else
    let occ : List Occurrence := if s.kind = kUser then [] else [{ slot := i, epoch := t.epoch, entry := s, supp := false }]
    let badOut := fun (l : List (Nat × Nat)) => (l.filter (·.1 ≠ pairOf s)) ++ (bad.map fun n => (pairOf s, n)).toList
    let c1 := c.onMir fun m => { m with badOut := badOut m.badOut, occs := m.occs ++ occ }
    (if s.kind = kRecord then c1.recordSlot i s t.epoch
     else if s.kind = kSolution then c1.solutionSlot i t.epoch
     else c1.runCompute t s).settleCaught t

/-- An owner still running at its slot's last fc is stopped there (R39). -/
def Core.slotOverrun (c : Core) (t : Clock) (s : SlotEntry) : Core :=
  let c1 := if s.kind = kLoop ∨ s.kind = kUser ∨ s.kind = kFocus then c.stopSlice (sliceOf s.resource) else c
  let c2 := if s.kind = kFocus then c1.onFoc fun f => { f with due := none } else c1
  ((c2.raise F.PLAN_STAT.OVRUN).raise F.PLAN_IRQ.OVRUN).lockstep t srcOvrun (pairOf s) 0 false

/-- An owner at its slot's last fc: a program that still runs there is stopped (R39), and what a FOCUS slot has written comes into force
(R189). -/
def Core.endSlot (c : Core) (epoch : Nat) (s : SlotEntry) : Core :=
  let program := decide (s.kind = kUser ∨ (s.kind = kLoop ∧ s.paramA ≠ 0) ∨ (s.kind = kFocus ∧ s.index ≠ 0))
  if program && c.flag (F.LPE_SLSTAT.RUN (sliceOf s.resource)) then c.slotOverrun { epoch := epoch, fc := s.last } s
  else if s.kind = kFocus ∧ ¬ c.flag F.MIR_STAT.RESEED then c.publishFocus program
  else c

/-! ### Rollback (R317 to R320) -/

/-- A stream cannot be replayed (R324). -/
def Core.noReplay (c : Core) (n : Nat) : Bool :=
  decide (c.ringLen n < 3) || c.snapHolds || !c.flag F.MIR_CFG.REPEN

/-- A strand after the rollback: the state of C_a with its phases, counters and window position projected to C_b. -/
def projected (live old : StrandSt) : StrandSt :=
  { old with
    cp := live.cp, kf := live.kf, ki := live.ki, cpc := live.cpc, wpos := live.wpos, cyc := live.cyc, edge := live.edge,
    inB := live.inB, split := live.split, seen := live.seen, wipeOff := live.wipeOff, dead := live.dead }

/-- The contribution of the lost half-epoch to an open window. -/
def mergeItem (s : Nat) (live old : StrandSt) : MergeItem :=
  { strand := s, acc := List.zipWith (· - ·) live.acc old.acc, nocode := live.nocode, wipex := live.wipex, zf := live.zf,
    mism := live.mism, tsg := live.tsg, seen := live.seen }

/-- One enabled strand at the rollback: projected, its broken window ended without a dump where it ends at C_b, left for the merge
where it can be, discarded otherwise (R319), as one that never got an earlier contribution is (R324, R329). -/
def Core.rollStrand (live : Core) (epochEnd : Bool) (q : Core × List MergeItem) (s : Nat) : Core × List MergeItem :=
  let c := q.1
  let d := c.live s
  if ¬ (d.en ∧ c.islandOn (s / 256)) then q
  else
    let x := live.strand s
    let y := projected x (c.strand s)
    let ends := decide (d.intl ≤ d.icnt + 1) || y.dead
    if epochEnd ∧ ends then ((c.setStrand s y.newWindow).storePhases s 0, q.2)
    else
      let icnt := if epochEnd then d.icnt + 1 else d.icnt
      let y1 := if epochEnd then { y with nep := y.nep + 1 } else y
      if c.noReplay d.stream ∨ y.dead then ((c.setStrand s { y1.newWindow with dead := true }).storePhases s icnt, q.2)
      else ((c.setStrand s y1).storePhases s icnt, q.2 ++ [mergeItem s x (c.strand s)])

/-- The running streams that cannot be replayed, as MIR_RPSTAT.NOREP (R324). -/
def Core.noRepMask (c : Core) : Nat := (((List.range 8).filter fun n => c.streamEn n && c.noReplay n).map (2 ^ ·)).sum

/-- A replay ends without its outputs (R329). -/
def Core.abandon (c : Core) (reason : Nat) : Core :=
  match c.replay with
  | none => c
  | some r =>
    let c1 := (((({ c with replay := none } : Core).setFld F.MIR_RPSTAT.REASON reason).countSat F.MIR_CNT.ABAND 1).setFld
      F.MIR_STAT.RPACT 0).raise F.MIR_IRQ.ABAND
    (c1.notify 5 (leBytes 8 (c1.reg R.MIR_RPSTAT).toNat)).onMir fun m => { m with reports := m.reports ++ [[16 + reason, 0, 0, r.cb / fcPerEpoch]] }

/-- The rollback at C_b, with the fc of C_b counted from epoch 0 (R317). -/
def Core.rollback (c : Core) (cb : Nat) (epochEnd ckptErr : Bool) : Core :=
  let c0 := c.abandon 7
  let back := { c0 with hot := c0.ckpt }
  let r := (List.range 2048).foldl (Core.rollStrand c0 epochEnd) (back, [])
  let c1 := (((r.1.restoreLatches).dropSolution).returnSamples).countSat F.MIR_CNT.ROLLBACK 1
  let lost := min 7 (c.fld F.MIR_STAT.LOST + 1)
  let c2 := ((c1.setFld F.MIR_STAT.LOST lost).setFld F.MIR_STAT.SUPP 0).setFld F.MIR_STAT.REC 1
  let on := c.flag F.MIR_CFG.REPEN
  let norep := c0.noRepMask
  let c3 := applyIf (decide (norep ≠ 0)) (·.setFld F.MIR_RPSTAT.REASON (if on then 2 else 5)) (c2.setFld F.MIR_RPSTAT.NOREP norep)
  let reruns := if c0.mir.cut then c0.mir.occs else []
  let rp : Replay := ⟨cb, true, r.2, c0.ckpt, c.plan.img, c.force, c1.foc, c0.mir.bells, reruns, false⟩
  let c4 := if on ∨ reruns ≠ [] then ({ c3 with replay := some rp } : Core).setFld F.MIR_STAT.RPACT 1 else c3
  let c5 := if on then c4 else c4.abandon 5
  let limit := max 1 (c.fld F.MIR_CFG.RBLIM)
  c5.onMir fun m =>
    { m with lost := false, badOut := [], cut := false, occs := [], bells := []
             reseedDue := m.reseedDue || ckptErr || decide (limit ≤ lost) }

/-- An agreed check point (R314, R336): the checkpoint is committed, seals end, the solution record reaches Flywheel. -/
def Core.agreed (c : Core) (t : Clock) : Core :=
  let c1 := ((c.unseal).applySolution t).setFld F.MIR_STAT.LOST 0
  let c2 := if c.flag F.MIR_STAT.REC then (c1.setFld F.MIR_STAT.REC 0).raise F.MIR_IRQ.RECOV else c1
  ((c2.onLpe fun l => { l with consumed := [] }).onFocOut fun f => { f with taken := [] }).onMir fun m =>
    { m with badOut := [], cut := false, occs := [], bells := [] }

/-- A state-bit fault comes nearer at each check point; it shows at the second one after its injection (R337). -/
def MirSt.injDue (m : MirSt) : Option Nat := match m.inj with | some (p, 0) => some p | _ => none

/-- RPACT ends when the replay correlators are done and no rerun is left. -/
def Core.settleReplay (c : Core) : Core :=
  match c.replay with
  | some r => if ¬ r.corr ∧ r.reruns = [] then ({ c with replay := none } : Core).setFld F.MIR_STAT.RPACT 0 else c
  | none => c

/-- A window that cannot be merged is discarded (R319), unless it was closed or restarted. -/
def Core.dropWindow (c : Core) (m : MergeItem) : Core :=
  let x := c.strand m.strand
  if m.seen ≤ x.seen then c.setStrand m.strand { x.newWindow with dead := true } else c

/-- Contributions not merged within 172,032 fc, and so not at the next check point: their streams count as not replayed, and their
windows are discarded (R319, R324, R329). -/
def Core.expireMerges (c : Core) : Core :=
  match c.replay with
  | some r =>
    let drop := fun (c : Core) (m : MergeItem) => (c.dropWindow m).setBit F.MIR_RPSTAT.NOREP (c.live m.strand).stream true
    ({ r.merges.foldl drop c with replay := some { r with corr := false, merges := [] } } : Core).settleReplay
  | none => c

/-- The check point of Mirror at the fc of C_b (R314 to R317), step 1 of R24 included at an epoch boundary: `epoch` begins there, or
runs on at mid-epoch. `mism` are the pairs whose digests differ. -/
def Core.checkPoint (c : Core) (t : Clock) (epochEnd : Bool) (mism : List Nat) (ckptErr : Bool) : Core :=
  let here : Clock := if epochEnd then { epoch := t.epoch + 1, fc := 0 } else { epoch := t.epoch, fc := fcPerHalf }
  let pairs := (match c.mir.injDue with | some p => [p] | none => []) ++ mism.filter (· < 10)
  let injected := c.mir.injDue.isSome
  let c1 := c.expireMerges.onMir fun m => { m with inj := match m.inj with | some (p, k + 1) => some (p, k) | _ => none }
  let c2 := match pairs with
    | [] => c1
    | p :: _ => (c1.fault here srcDigest p 0 injected).setFld F.MIR_DIGSTAT.MISM ((pairs.eraseDups.map (2 ^ ·)).sum)
  if c.mir.lost ∨ pairs ≠ [] then
    let c3 := if ckptErr then (c2.fault here srcCkpt (pairs.headD 0) 0 false).uncorrectable 1 else c2
    c3.rollback (fcPerEpoch * here.epoch + here.fc) epochEnd ckptErr
  else
    let c3 := if epochEnd then c2.dumpStep here.epoch else c2
    c3.agreed here

/-- The checkpoint committed (R24 step 2; after step 3 at an epoch boundary, so that restoring it applies step 3 again, R317). -/
def Core.commitCkpt (c : Core) : Core := { c with ckpt := c.hot }

/-! ### Replay (R322 to R329) -/

/-- One contribution added to the live window, unless that window was closed or restarted. -/
def Core.mergeOne (c : Core) (m : MergeItem) : Core :=
  let x := c.strand m.strand
  if (c.live m.strand).en ∧ m.seen ≤ x.seen ∧ ¬ x.dead then
    c.setStrand m.strand { x with
      acc := List.zipWith (fun a b => hold36 (a + b)) x.acc m.acc, nocode := x.nocode || m.nocode, wipex := x.wipex || m.wipex, zf := x.zf || m.zf,
      mism := x.mism || m.mism, tsg := x.tsg || m.tsg }
  else c

/-- Two copies of a replay disagree (R315, R330): the replay is abandoned with REFAULT, its contributions with it. -/
def Core.replayFault (c : Core) (t : Clock) (pair : Nat) : Core :=
  match c.replay with
  | some r => (r.merges.foldl Core.dropWindow (c.fault t srcReplay pair 0 false)).abandon 4
  | none => c

/-- The replay correlators finish within 172,032 fc of C_b: every contribution merges into the live accumulators, but those of the
streams whose replay stopped (R324). -/
def Core.replayMerge (c : Core) (t : Clock) (bad : Option Nat) (stopped : Nat) : Core :=
  match c.replay with
  | some r =>
    if fcPerEpoch * t.epoch + t.fc ≤ r.cb + 172032 ∧ r.corr then
      match bad with
      | some k => c.replayFault t k
      | none =>
        let stop := fun (c : Core) n => ((c.uncorrectable 4).setBit F.MIR_RPSTAT.NOREP n true).setFld F.MIR_RPSTAT.REASON 6
        let c1 := (belowSuch 8 (bitOf stopped)).foldl stop c
        let one := fun (c : Core) (m : MergeItem) =>
          if bitOf stopped (c.live m.strand).stream then c.dropWindow m else c.mergeOne m
        ({ r.merges.foldl one c1 with replay := some { r with corr := false, merges := [] } } : Core).settleReplay
    else c
  | none => c

/-- A resource is in a planned slot at an instant: a rerun waits for its end (R40, R325). -/
def Core.planned (c : Core) (t : Clock) (resource : Nat) : Bool :=
  c.slots.any fun s => s.resource == resource && s.occurs t.epoch && decide (s.start ≤ t.fc ∧ t.fc ≤ s.last)

/-- 2 ms after C_b with reruns left (R329). -/
def Core.replayDeadline (c : Core) (t : Clock) : Core :=
  match c.replay with
  | some r =>
    if r.cb + 2 * fcPerEpoch ≤ fcPerEpoch * t.epoch + t.fc ∧ r.reruns ≠ [] then c.abandon 1 else c
  | none => c

/-- A replay whose time is over is abandoned of itself (R329). -/
def Core.replayTimeout (c : Core) (now : Nat) : Core :=
  match c.replay with
  | some r => if r.cb + 2 * fcPerEpoch < now ∧ r.reruns ≠ [] then c.abandon 1 else c
  | none => c

/-- A rerun begins in its resource's unplanned time, no earlier than 512 fc after C_b (R325). -/
def Core.rerunStart (c : Core) (t : Clock) : Core :=
  match c.replay with
  | some r =>
    let free := match r.reruns with | o :: _ => !c.planned t o.entry.resource | [] => false
    if r.cb + 512 ≤ fcPerEpoch * t.epoch + t.fc ∧ free = true ∧ ¬ r.running then { c with replay := some { r with running := true } }
    else c
  | none => c

/-- The device as a rerun sees it (R326): the pairs as they stood, with the plan, the staged values and Focus's inputs of H; nothing it
pushes leaves. -/
def Core.inReplay (c : Core) (r : Replay) : Core :=
  ({ c with hot := r.base, force := r.force, foc := r.foc, plan := { c.plan with img := r.img } } : Core).setFld F.MIR_STAT.SUPP 1

/-- An occurrence of LOOP or FOCUS run again to its end, with the doorbells logged for it (R326, R328). -/
def Core.rerunCompute (d : Core) (r : Replay) (o : Occurrence) : Core :=
  let s := o.entry
  let k := sliceOf s.resource
  let bells := (r.bells.filter fun b => b.slice == k && b.epoch == o.epoch && b.start == s.start).map fun b => (b.issued, b.code)
  let wrote := match (d.slice k).rerun with | some q => q.wrote | none => []
  let d1 := (d.onSlice k fun x => { x with rerun := some { bells := bells, wrote := wrote } }).setFld (F.LPE_SLSTAT.RUN k) 0
  let d2 := (d1.runCompute { epoch := o.epoch, fc := s.start } s).runBundles k s.length
  if s.kind = kFocus then d2.publishFocus (decide (s.index ≠ 0)) else d2

/-- A rerun's own outputs (R327): a suppressed RECORD occurrence's entries, a suppressed SOLUTION occurrence's record. -/
def Core.rerunOutput (d : Core) (o : Occurrence) : Core :=
  if ¬ o.supp then d
  else if o.entry.kind = kRecord then d.recordReplay o.epoch o.entry.index o.entry.paramA
  else d.giveSolution true

/-- A rerun ends outside its resource's planned slots and within 2 ms of C_b (R325 to R329): its side effects stay in the replay context,
its outputs are delivered. Where the two copies of the context disagree (R330) or an overlay is full (R326), the replay is abandoned. -/
def Core.rerunComplete (c : Core) (now : Clock) (bad : Bool) : Core :=
  match c.replay with
  | none => c
  | some r =>
    match r.reruns, r.running with
    | o :: rest, true =>
      if r.cb + 2 * fcPerEpoch < fcPerEpoch * now.epoch + now.fc then c.replayDeadline now
      else if c.planned now o.entry.resource then c
      else if bad then c.replayFault now (pairOf o.entry)
      else
        let d := c.inReplay r
        let go := fun (e : Core) (base : Hot) (foc : FocOut) => ({ e with
          hot := c.hot, force := c.force, foc := c.foc, plan := { e.plan with img := c.plan.img }
          replay := some { r with base := base, foc := foc, reruns := rest, running := false } } : Core).settleReplay
        if o.entry.kind = kRecord ∨ o.entry.kind = kSolution then
          let e := d.rerunOutput o
          go (e.setFld F.MIR_STAT.SUPP (c.fld F.MIR_STAT.SUPP)) e.hot e.foc
        else
          let e := d.rerunCompute r o
          if (List.range 9).any e.overlayFull then c.abandon 3 else go c e.hot e.foc
    | _, _ => c

/-! ### Reseed (R331) -/

/-- A reseed at an epoch boundary. -/
def Core.reseed (c : Core) (epoch : Nat) : Core :=
  let ply := fun (c : Core) (p : Nat) =>
    if (c.bind p).en then (c.event p 0xF4 (c.ply p).state 0 epoch).clearPly p else c
  let c1 := forBelow 1024 ply c
  let c2 := c1.onHot fun h => { h with
    mem := (((h.mem.clear 0x30040000 0x40000).clear 0x30080000 0x2000).filter fun x =>
      decide (x.1 < 0x31400000 ∨ 0x31880000 ≤ x.1))
    strands := [], wbq := [], slices := [], phases := [] }
  let c3 := (c2.loadAllDescs).loadPhases
  let c4 := (c3.onFoc fun f => { f with restart := true })
  let c5 := ((c4.setFld F.MIR_STAT.RESEED 1).countSat F.MIR_CNT.RESEED 1).raise F.MIR_IRQ.RESEED
  (c5.notify 4 (leBytes 8 (c5.reg R.MIR_CNT).toNat)).onMir fun m => { m with reseedDue := false, reports := m.reports ++ [[32, 0, 0, epoch]] }

/-- The reseed step of an epoch boundary: the reseed epoch ends, and a reseed that is due begins. -/
def Core.reseedStep (c : Core) (epoch : Nat) (due : Bool) : Core :=
  let c1 := c.setFld F.MIR_STAT.RESEED 0
  if due then c1.reseed epoch else c1

/-! ### Distaff recovery and memory errors (R332 to R335) -/

/-- A cold restart of Distaff: 50 ms, sessions close (R333). -/
def Core.dstCold (c : Core) (now : Nat) : Core :=
  let c1 : Core := { c with links := vecMap c.links LinkSt.close }
  let rep := [[48, 1, 0, now / fcPerEpoch]]
  let c2 := c1.onMir fun m => { m with dstUntil := some (now + 50 * fcPerEpoch), lastWarm := none, reports := m.reports ++ rep }
  (c2.setFld F.MIR_STAT.DSTREC 1).raise F.MIR_IRQ.DSTCOLD

/-- The Distaff cores disagree: a warm restart, or a cold one within 10 ms of the last (R332, R333). -/
def Core.dstcmp (c : Core) (t : Clock) (inj : Bool) : Core :=
  let now := fcPerEpoch * t.epoch + t.fc
  let c1 := c.fault t srcDstcmp 10 0 inj
  let again := match c.mir.lastWarm with | some w => decide (now < w + 10 * fcPerEpoch) | none => false
  if again then c1.dstCold now
  else
    let rep := [[48, 0, 0, t.epoch]]
    let c2 := (c1.notify 6 (leBytes 8 t.epoch)).onMir fun m =>
      { m with dstUntil := some (now + 163840), lastWarm := some now, reports := m.reports ++ rep }
    (c2.setFld F.MIR_STAT.DSTREC 1).raise F.MIR_IRQ.DSTWARM

/-- Distaff serves again once its restart time has passed. -/
def Core.dstSettle (c : Core) (now : Nat) : Core :=
  match c.mir.dstUntil with
  | some e => if e ≤ now then (c.onMir fun m => { m with dstUntil := none }).setFld F.MIR_STAT.DSTREC 0 else c
  | none => c

/-- A doubleword or entry of a staging copy that cannot be read is not applied at its commit: it loses its mark (R334). -/
def Core.stageLost (c : Core) (group k : Nat) : Core :=
  let no := fun (l : List Nat) => l.filter (· != k)
  c.onPlan fun p =>
    match group with
    | 0 => { p with dirty := no p.dirty }
    | 1 => { p with hankChg := no p.hankChg }
    | 2 => { p with plyChg := no p.plyChg }
    | 3 => { p with coefChg := no p.coefChg }
    | 4 => { p with lifeChg := no p.lifeChg }
    | _ => p

/-- An entry of the output buffer, the event queue, the symbol queue or the completion FIFO that cannot be read: it is delivered with
all fields zero (R334). `k` counts from the oldest. -/
def Core.entryLost (c : Core) (queue k : Nat) : Core :=
  match queue with
  | 0 =>
    if k < c.outFill then
      { c with mem := c.mem.putWords (outEntry ((c.fld F.PLAN_ORD.ORD + k) % 4096)) (List.replicate 10 0) } else c
  | 1 => c.onLpe fun l => { l with evq := setAt l.evq k (0, 0) }
  | 2 => c.onLpe fun l => { l with symq := setAt l.symq k (0, 0) }
  | 3 => c.onPlan fun p => { p with doneFifo := p.doneFifo.modify k fun e => (lostClass, e.2.1, e.2.2) }
  | _ => c

/-- An error in a memory, by its row of the memory protection table (R334, R335). Row 1: the pair that holds it, by parity or not, and
the copy. Row 2: the staging group and the number of the doubleword or entry. Row 7: the queue and the entry. -/
def Core.scrub (c : Core) (t : Clock) (row pair : Nat) (unc alt : Bool) (index : Nat) : Core :=
  if ¬ unc then c.countSat F.MIR_ECC.CORR 1
  else
    let c1 := c.uncorrectable row
    if row = 1 then c1.lockstep t (if alt then srcParity else srcEcc) pair (if index ≤ 2 then index else 0) false
    else if row = 2 then c1.stageLost pair index
    else if row = 7 then c1.entryLost pair index
    else if row = 3 then c1.dstCold (fcPerEpoch * t.epoch + t.fc)
    else c1

/-- A write to MIR_INJ (R337): discarded without the key or out of service mode. -/
def Core.mirInject (c : Core) (t : Clock) (w : Word) (service : Bool) : Core :=
  let pair := bits w 11 8
  if bits w 31 16 ≠ 0x4D49 ∨ bits w 0 0 = 0 ∨ ¬ service ∨ 9 < pair then c
  else match bits w 5 4 with
    | 0 => c.onMir fun m => { m with inj := some (pair, 1) }
    | 1 => c.onMir fun m => { m with injOut := some pair }
    | 2 => c.dstcmp t true
    | _ => c

/-- No two Flywheel copies agree (R293, R315). -/
def Core.tmrFault (c : Core) (t : Clock) : Core := (c.tmrFail).fault t srcTmr 11 0 false

end Sys2Proof.Machine
end

