-- ==== Sys2Proof/Machine/Power.lean ====
section
/-! DEFINITION. Power states and supplies (chapter 14): islands, DOZE, SNAPSHOT, the supply monitors, idle timers and body bias. -/
namespace Sys2Proof.Machine

def Core.onPwr (c : Core) (f : PwrSt → PwrSt) : Core := { c with pwr := f c.pwr }

/-- A power state entered (R349). -/
def Core.setPwr (c : Core) (st : Nat) : Core :=
  if c.pwrState = st then c else (c.setFld F.PWR_STAT.STATE st).raise F.PWR_IRQ.STATE

/-- The first epoch whose boundary lies at least 200 µs ahead (R354). -/
def Clock.exitEpoch (t : Clock) : Nat := if 131072 ≤ t.left then t.epoch + 1 else t.epoch + 2

/-! ### Islands (R340, R350) -/

/-- The skeins a plan uses: those with a LOOP or a PORT slot. -/
def planUses (img : Image) : Nat :=
  let l := slotsOf (img.sec .plan)
  ((List.range 8).map fun k =>
    ofBool (l.any fun s => decide (s.kind = kLoop ∨ s.kind = kPort) && s.resource % 16 == k) * 2 ^ k).sum

/-- The skeins that a candidate under check, READY or ARMED uses. -/
def Core.candUses (c : Core) : Nat :=
  match c.plan.cand with
  | some (img, _) => if c.planState = plChecking ∨ c.planState = plReady ∨ c.planState = plArmed then planUses img else 0
  | none => 0

/-- The skein island in which an address lies (R339). -/
def islandOfAddr (a : Nat) : Option Nat :=
  if inRange 0x30080000 0x2000 a then some ((a - 0x30080000) / 4 / 256)
  else if inRange 0x31400000 0x400000 a then some ((a - 0x31400000) / 0x80000)
  else skeinOfAddr a

/-- What an island holds is lost: strands, live views, dump records, CYC, plies, the slice. -/
def Hot.loseIslands (h : Hot) (mask : Nat) : Hot :=
  let kept := fun k => !bitOf mask k
  { h with
    mem := h.mem.filter fun x => match islandOfAddr x.1 with | some k => kept k | none => true
    strands := h.strands.filter fun x => kept (x.1 / 256)
    wbq := h.wbq.filter fun w => kept (w.strand / 256)
    plies := h.plies.filter fun x => kept (x.1 / 128)
    phases := h.phases.filter fun x => kept (x.1 / 512)
    slices := h.slices.filter fun x => x.1 == 8 || kept x.1 }

/-- Islands gated. -/
def Core.gateIslands (c : Core) (mask : Nat) : Core :=
  let on := c.fld F.FAB_SKSTAT.PWR
  let left := ((List.range 8).map fun k => ofBool (bitOf on k && !bitOf mask k) * 2 ^ k).sum
  ((c.onHotBoth fun h => h.loseIslands mask).setFld F.FAB_SKSTAT.PWR left).countEnabled

/-- A plan in force sets the skeins used; RUN or TRIM by whether one is unused (R350). -/
def Core.useIslands (c : Core) : Core :=
  let used := planUses c.plan.img
  let c1 := c.setFld F.FAB_SKSTAT.USED used
  if c1.pwrState = pwRun ∨ c1.pwrState = pwTrim then c1.setPwr (if used = 0xFF then pwRun else pwTrim) else c1

/-- At a boundary, islands that neither the plan in force nor a candidate uses are gated. -/
def Core.gateUnused (c : Core) : Core :=
  let keep := fun k => bitOf (c.fld F.FAB_SKSTAT.USED) k || bitOf c.candUses k
  let mask := ((List.range 8).map fun k => ofBool (bitOf (c.fld F.FAB_SKSTAT.PWR) k && !keep k) * 2 ^ k).sum
  if mask = 0 then c else c.gateIslands mask

/-- LOAD powers the islands that the candidate uses and that are off, in turn. -/
def Core.powerCandidate (c : Core) : Core :=
  let off := belowSuch 8 fun k => bitOf c.candUses k && !bitOf (c.fld F.FAB_SKSTAT.PWR) k
  c.onPwr fun p => { p with powering := off }

/-- The next powering island is ready. -/
def Core.islandReady (c : Core) : Core :=
  match c.pwr.powering with
  | [] => c
  | k :: r => (c.setBit F.FAB_SKSTAT.PWR k true).onPwr fun p => { p with powering := r }

/-- A check completes: READY is not reported before every island is ready (R350). -/
def Core.checkComplete (c : Core) : Core :=
  match c.pwr.powering, c.plan.cand with
  | _ :: _, some (img, _) => if (planCheck img).code = 0 then c else c.planCheckComplete
  | _, _ => c.planCheckComplete

/-! ### Refusals (R354, R358) -/

def Core.pwrRefuse (c : Core) (code : Nat) : Core :=
  ((c.setFld F.PWR_STAT.RCODE code).raise F.PWR_STAT.REFUSED).raise F.PWR_IRQ.REFUSED

def Core.serviceMode (c : Core) : Bool := c.flag F.SVC_STAT.SVCMODE

/-- PER and DOZEON lie in their ranges, and COASTLIM covers the off phase. -/
def Core.dozeFits (c : Core) : Bool :=
  let per := c.fld F.PWR_DOZECFG.PER
  let on := c.fld F.PWR_DOZECFG.DOZEON
  decide (5 ≤ on ∧ on ≤ 100 ∧ 100 ≤ per ∧ per ≤ 10000 ∧ on < per ∧ per - on ≤ c.inForce F.FOC_LIM1.COASTLIM)

/-- Why DOZE may not be entered, 0 for none, tested in the order of R354. -/
def Core.dozeRefusal (c : Core) : Nat :=
  if c.fld F.PWR_CFG.DOZEEN = 0 ∨ c.serviceMode = true then 1
  else if c.hot.foc.state ≠ 3 then 2
  else if c.plan.jobs ≠ [] then 3
  else if c.fld F.BOB_SNAP_STAT.STATE ≠ 0 then 4
  else if c.planState ≠ plIdle then 5
  else if ¬ c.dozeFits then 6
  else 0

/-- DOZE entered or refused, from RUN and TRIM. -/
def Core.tryDoze (c : Core) (t : Clock) : Core :=
  if c.pwrState ≠ pwRun ∧ c.pwrState ≠ pwTrim then c
  else if c.dozeRefusal ≠ 0 then c.pwrRefuse c.dozeRefusal
  else (c.setPwr pwDoze).onPwr fun p => { p with dozeAt := t.epoch, offAt := 0, dozeExit := none, projected := false }

/-- An event that ends DOZE (R354). -/
def Core.dozeEvent (c : Core) (t : Clock) : Core :=
  if c.pwrState = pwDoze ∧ c.pwr.dozeExit = none then c.onPwr fun p => { p with dozeExit := some t.exitEpoch } else c

/-- Host or service activity: IDLECNT restarts, DOZE ends (R354, R356). -/
def Core.activity (c : Core) (t : Clock) : Core := (c.onPwr fun p => { p with actAt := t.abs }).dozeEvent t

/-- A job submitted ends DOZE, `old` being the device before the submission. -/
def Core.submitted (c old : Core) (t : Clock) : Core := if c.plan.nextSeq = old.plan.nextSeq then c else c.dozeEvent t

/-- Focus having left TRACK and COAST, or group 5 having broken the COASTLIM condition, ends DOZE. -/
def Core.dozeWatch (c : Core) (t : Clock) : Core :=
  if (c.hot.foc.state = 3 ∨ c.hot.foc.state = 4) ∧ c.dozeFits = true then c else c.dozeEvent t

/-! ### DOZE phases (R351 to R353) -/

/-- The epoch's place in the DOZE cycle. -/
def Core.dozePhase (c : Core) (epoch : Nat) : Nat := (epoch - c.pwr.dozeAt) % max 1 (c.fld F.PWR_DOZECFG.PER)

def Core.offPhase (c : Core) : Bool := c.flag F.PWR_STAT.OFFPH

/-- An exit is due at an epoch's boundary. -/
def Core.exitDue (c : Core) (epoch : Nat) : Bool :=
  match c.pwr.dozeExit with
  | some e => decide (c.pwrState = pwDoze ∧ e ≤ epoch)
  | none => false

/-- A strand projected over `n` samples, its window restarted at the end (R352, R318). -/
def Core.projectStrand (c : Core) (n s : Nat) : Core :=
  let d := c.live s
  if d.en && bitOf (c.fld F.FAB_SKSTAT.PWR) (s / 256) then
    (c.setStrand s ((Nat.repeat (c.ncoStep d) n (c.strand s)).newWindow)).storePhases s 0
  else c

/-- Before the boundary of `epoch` that ends an off phase: strands are projected over it, and each ply is marked as in its first
processing of a burst. -/
def Core.burstProject (c : Core) (epoch : Nat) : Core :=
  if c.offPhase && !c.pwr.projected then
    let n := tsPerEpoch * (epoch - c.pwr.offAt)
    let c1 := forBelow 2048 (fun (c : Core) s => c.projectStrand n s) c
    let c2 := c1.onHot fun h => { h with plies := h.plies.map fun x => (x.1, { x.2 with resumed := true }) }
    c2.onPwr fun p => { p with projected := true }
  else c

/-- A burst, or the exit from DOZE, begins at the boundary of `epoch`. -/
def Core.burstDue (c : Core) (epoch : Nat) : Bool :=
  c.offPhase && (c.exitDue epoch || decide (c.pwrState = pwDoze ∧ c.dozePhase epoch = 0))

/-- The islands run again from the boundary on. -/
def Core.burstBegin (c : Core) (epoch : Nat) : Core :=
  if c.burstDue epoch then
    ((c.burstProject epoch).setFld F.PWR_STAT.OFFPH 0).onPwr fun p => { p with projected := false }
  else c

/-- The used islands enter retention after DOZEON epochs; open windows are discarded (R351, R352). -/
def Core.offBegin (c : Core) (epoch : Nat) : Core :=
  if c.pwrState = pwDoze ∧ c.offPhase = false ∧ c.exitDue epoch = false ∧
      c.fld F.PWR_DOZECFG.DOZEON ≤ c.dozePhase epoch then
    let c1 := c.onHot fun h => { h with strands := h.strands.map fun x => (x.1, x.2.newWindow) }
    (c1.setFld F.PWR_STAT.OFFPH 1).onPwr fun p => { p with offAt := epoch, projected := false }
  else c

/-- DOZE is left (R354). -/
def Core.dozeLeave (c : Core) (epoch : Nat) : Core :=
  if c.exitDue epoch && !c.offPhase then
    (c.onPwr fun p => { p with dozeExit := none }).setPwr (if c.fld F.FAB_SKSTAT.USED = 0xFF then pwRun else pwTrim)
  else c

/-- What the boundary of an epoch brings to DOZE, where it has not come about yet. -/
def Core.dozeSettle (c : Core) (epoch : Nat) : Core := (c.dozeLeave epoch).offBegin epoch

/-! ### SNAPSHOT (R355, R357) -/

/-- A capture that ended with FEOFF puts the device in SNAPSHOT; every island is gated. -/
def Core.enterSnapshot (c : Core) : Core :=
  if c.fld F.BOB_SNAP_STAT.STATE = 3 ∧ c.bob.snapFeoff = true ∧ c.bob.rxOff = true ∧
      (c.pwrState = pwRun ∨ c.pwrState = pwTrim ∨ c.pwrState = pwDoze) then
    let c1 := (c.gateIslands 0xFF).setFld F.PWR_STAT.OFFPH 0
    (c1.onPwr fun p => { p with dozeExit := none, projected := false }).setPwr pwSnap
  else c

/-- Every enabled ply to IDLE with its status cleared, event 0xF4 queued (R150, R357). -/
def Core.idlePlies (c : Core) (epoch lo n : Nat) : Core :=
  forBelow n (fun (c : Core) i =>
    let p := lo + i
    if (c.bind p).en then (c.event p 0xF4 (c.ply p).state 0 epoch).clearPly p else c) c

/-- The release boundary of SNAPSHOT: the plan's islands are powered, live descriptors come from the staging copy. -/
def Core.leaveSnapshot (c : Core) (epoch : Nat) : Core :=
  if c.pwrState = pwSnap ∧ c.fld F.BOB_SNAP_STAT.STATE ≠ 3 then
    let used := c.fld F.FAB_SKSTAT.USED
    let c1 := c.setFld F.FAB_SKSTAT.PWR used
    let c2 := (c1.loadAllDescs.loadPhases).idlePlies epoch 0 1024
    c2.setPwr (if used = 0xFF then pwRun else pwTrim)
  else c

/-! ### Idle timers (R356) -/

/-- PWR_IDLECNT: whole seconds since the last activity. -/
def Core.idleCnt (c : Core) (t : Clock) : Nat := min 0xFFFFFFFF ((t.abs - c.pwr.actAt) / (1000 * fcPerEpoch))

def Core.dozeExpiry (c : Core) (t : Clock) : Core :=
  let lim := (c.reg R.PWR_DOZEIDLE).toNat
  if lim ≠ 0 ∧ lim ≤ c.idleCnt t ∧ c.serviceMode = false then c.tryDoze t else c

/-! ### HIBERNATE entry (R358) -/

/-- Why HIBERNATE may not be entered. -/
def Core.hibRefusal (c : Core) : Nat :=
  if c.fld F.PWR_CFG.HIBEN = 0 ∨ c.serviceMode = true then 1
  else if 1 < c.fld F.BOB_SNAP_STAT.STATE then 4
  else 0

/-- NVM has no write and no compaction in progress. -/
def Core.nvmIdle (c : Core) : Bool := c.nvm.queue.isEmpty && c.nvm.ops.isEmpty && c.nvm.compactTo.isNone

/-- Step 1 of the entry: once NVM is idle, every open session is told. -/
def Core.hibReady (c : Core) : Core :=
  if c.pwr.hib = 1 ∧ c.nvmIdle = true then
    (c.onPwr fun p => { p with hib := 2 }).notify 1 (leBytes 8 (c.reg R.PWR_WAKEEN).toNat)
  else c

/-- The entry is asked for, from RUN, TRIM and DOZE; a command ends every held job with ABORTED. -/
def Core.tryHib (c : Core) (t : Clock) : Core :=
  if ¬ (c.pwrState = pwRun ∨ c.pwrState = pwTrim ∨ c.pwrState = pwDoze) then c
  else if c.hibRefusal ≠ 0 then c.pwrRefuse c.hibRefusal
  else
    let c1 := c.plan.jobs.foldl (fun (c : Core) j => if j.live then c.endJob t.epoch j.tag .aborted else c) c
    if c1.pwr.hib = 0 then (c1.onPwr fun p => { p with hib := 1 }).hibReady else c1

def Core.hibExpiry (c : Core) (t : Clock) : Core :=
  let lim := (c.reg R.PWR_HIBIDLE).toNat
  if lim ≠ 0 ∧ lim ≤ c.idleCnt t ∧ c.serviceMode = false ∧ c.plan.jobs = [] then c.tryHib t else c

/-- The pins resume at the boundary after the epoch that a cancelled entry has cost (R359). -/
def Core.hibResume (c : Core) : Core :=
  if c.pwr.still = true ∧ c.pwr.hib ≠ 3 then
    (c.onBob fun b => { b with fePwr := List.replicate 4 true, sclk := true }).onPwr fun p => { p with still := false }
  else c

/-- Step 2, at the boundary after step 1: no slot starts, an armed snapshot is disarmed, pulses stop, front ends and SCLK_OUT go low. -/
def Core.hibBoundary (c0 : Core) : Core :=
  let c := c0.hibResume.hibReady
  if c.pwr.hib = 2 then
    let c1 := if c.fld F.BOB_SNAP_STAT.STATE = 1 then c.setFld F.BOB_SNAP_STAT.STATE 0 else c
    let c2 := (c1.onFly fun f => { f with tps := vecMap f.tps fun x => { x with active := false, offAt := none } }).onBob fun b =>
      { b with fePwr := List.replicate 4 false, sclk := false }
    c2.onPwr fun p => { p with hib := 3, still := true }
  else c

/-- A wake event before the tick edge cancels the entry (R359). -/
def Core.cancelHib (c : Core) : Core := c.onPwr fun p => { p with hib := 0 }

/-! ### Supplies (R345) and body bias (R366) -/

/-- A rail's comparator changed. -/
def Core.supply (c : Core) (bit : Nat) (ok : Bool) : Core :=
  if bitOf (c.fld F.PWR_SUPSTAT.OK) bit = ok then c
  else (c.setBit F.PWR_SUPSTAT.OK bit ok).raise F.PWR_IRQ.SUPPLY

/-- Forward bias by BBMODE and the die temperature in 0.01 °C, in RUN and TRIM. -/
def Core.runHigh (c : Core) (temp : Int) : Bool :=
  if c.pwrState ≠ pwRun ∧ c.pwrState ≠ pwTrim then false
  else if c.fld F.PWR_CFG.BBMODE = 1 then true
  else if temp < 0 then true
  else if 500 < temp then false
  else c.flag F.PWR_STAT.RUNHI

def Core.biasChange (c : Core) (temp : Int) : Core :=
  let hi := c.runHigh temp
  if hi = c.flag F.PWR_STAT.RUNHI then c else (c.setFld F.PWR_STAT.RUNHI (ofBool hi)).raise F.PWR_IRQ.BIAS

end Sys2Proof.Machine
end

