-- ==== Sys2Proof/Machine/Whorl.lean ====
section
/-! DEFINITION. Whorl, the backup domain, and Distaff's calendar service (chapter 15). -/
namespace Sys2Proof.Machine

def two48 : Nat := 2 ^ 48
/-- The ticks of a day. -/
def dayTicks : Nat := 2831155200

def Core.onWhl (c : Core) (f : WhlSt → WhlSt) : Core := { c with whl := f c.whl }

/-- Whorl is on VBAT. -/
def Core.onVbat (c : Core) : Bool := c.flag F.WHL_STAT.SRC

/-- The core is powered and sees Whorl: not in HIBERNATE or BACKUP (R368). -/
def Core.coreOn (c : Core) : Bool := decide (c.pwrState < pwHib)

/-- The block of the Whorl registers, which hold their values through RST_N (R8). -/
def whorlBlock (a : Nat) : Bool := inRange 0x4000B000 0x100 a

/-- A map with the registers that `p` picks as another map has them. -/
def RegMap.take (m : RegMap) (src : RegMap) (p : Nat → Bool) : RegMap :=
  src.foldr (fun x m => if p x.1 then m.setReg x.1 x.2 else m) (m.filter fun x => !p x.1)

/-- Whether epochs run: step 10 of the start-up has been reached and the core is powered. -/
def Core.epochsRun (c : Core) : Bool := decide (c.fld F.SYS_BOOT.STAGE = 10) && c.coreOn

/-! ### Trust flags (R373 to R375) -/

/-- SUM from the flags. -/
def Core.trustSum (c : Core) : Nat :=
  if c.flag F.WHL_TRUST.OSF || c.flag F.WHL_TRUST.BOR then 2 else if c.flag F.WHL_TRUST.LBV then 1 else 0

/-- SUM follows the flags; a change raises TRUST. -/
def Core.showTrust (c : Core) : Core :=
  if c.trustSum = c.fld F.WHL_TRUST.SUM then c else (c.setFld F.WHL_TRUST.SUM c.trustSum).raise F.WHL_IRQ.TRUST

/-- OSF set: no crystal edge has come since. WHL_TRUST shows it at once (log entry 197). -/
def Core.setOsf (c : Core) : Core := ((c.raise F.WHL_TRUST.OSF).onWhl fun w => { w with alive := false }).showTrust

/-- The low-battery threshold in mV. -/
def lbMv (lbth : Nat) : Nat := ([1300, 1500, 1800, 2200] : List Nat).getD (lbth % 4) 1500

def Core.vbatLow (c : Core) : Bool := c.onVbat && decide (c.whl.vbat < lbMv c.whl.lbth)

/-- WHL_TRUST written with ones to clear (R374). -/
def Core.trustClear (c : Core) (w : Word) : Core :=
  let c1 := if bits w 7 7 = 1 then c.setFld F.WHL_TRUST.SWO 0 else c
  let c2 := if bits w 6 6 = 1 then c1.setFld F.WHL_TRUST.BOR 0 else c1
  let c3 := if bits w 5 5 = 1 ∧ c.vbatLow = false then c2.setFld F.WHL_TRUST.LBV 0 else c2
  (if bits w 4 4 = 1 ∧ c.whl.alive = true then c3.setFld F.WHL_TRUST.OSF 0 else c3).showTrust

/-! ### Supply switch and brown-out (R346, R385) -/

/-- Whorl changes its source: 0 VMAIN, 1 VBAT. -/
def Core.switchWhorl (c : Core) (src : Nat) : Core :=
  if c.fld F.WHL_STAT.SRC = src then c
  else
    let c1 := (c.setFld F.WHL_STAT.SRC src).setFld F.PWR_SUPSTAT.WHLSRC src
    (c1.raise F.WHL_TRUST.SWO).raise F.WHL_IRQ.SWITCH

/-- Whorl's own state after a brown-out or a first power-up (R385). -/
def WhlSt.lost (w : WhlSt) : WhlSt :=
  { w with cntA := 0, cntB := 0, acc := 0, k := 0, wday := 0, phase := 0, lbth := 1, chg := 0, offset := 0,
           curve := List.replicate 33 0, curveNext := none, pend := [], edges := 0, alive := false, shCnt := 0, shTs := 0, shWday := 0 }

/-- The registers of the Whorl domain and their core-side copies after a brown-out (R385, R372). -/
def Core.showWhorl (c : Core) : Core :=
  let w := c.whl
  let put := fun (c : Core) (p : Nat × Nat) => c.setReg p.1 (BitVec.ofNat 32 p.2)
  [(R.WHL_DAYPHASE, w.phase), (R.WHL_CFG, w.lbth), (R.WHL_CHG, w.chg), (R.WHL_OFFSET, unsignedOf 16 w.offset),
    (R.WHL_CORR, unsignedOf 32 w.k), (R.WHL_ACC, unsignedOf 32 w.acc)].foldl put c

/-- A brown-out: the Whorl registers take their reset values but for the source, and backup RAM is cleared (R381, R385, log entry 204). -/
def Core.brownOut (c : Core) : Core :=
  let c1 : Core := { c with regs := RegMap.take c.regs resetRegs whorlBlock, mem := c.mem.clear 0x4000B100 256 }
  let c2 := (c1.setFld F.WHL_STAT.SRC (c.fld F.WHL_STAT.SRC)).setFld F.WHL_TRUST.SUM (c.fld F.WHL_TRUST.SUM)
  ((c2.onWhl WhlSt.lost).raise F.WHL_TRUST.BOR).setOsf

/-- The core starts: a write that had not reached the Whorl domain is gone, and the copies read the values in force (R372, log
entry 205). -/
def Core.whorlCopies (c : Core) : Core := ((c.onWhl fun w => { w with pend := [] }).showWhorl).setFld F.WHL_STAT.WPEND 0

/-! ### Tick edges (R369 to R372, R377, R380) -/

/-- The count the logic works from: the higher copy. -/
def WhlSt.count (w : WhlSt) : Nat := max w.cntA w.cntB

/-- A copy's parity fails when an odd number of its bits has flipped. -/
def parityBad (x : BitVec 48) : Bool := decide (popCount 48 x.toNat % 2 = 1)

/-- The two copies checked: the count to go on from, and whether it is invalid (R370). -/
def checkCopies (a b : Nat) (badA badB : Bool) : Nat × Bool :=
  if badA && !badB then (b, false)
  else if badB && !badA then (a, false)
  else if badA || decide (a ≠ b) then (max a b, true)
  else (a, false)

/-- How far the count advances at an edge, and the accumulator after it (R377). -/
def tickAdvance (acc : Int) : Nat × Int :=
  if 65536 ≤ acc then (2, acc - 65536) else if acc ≤ -65536 then (0, acc + 65536) else (1, acc)

/-- The count crosses the day phase in going from `n` by `k` (R380). -/
def dayCrossed (phase n k : Nat) : Bool := (List.range k).any fun i => decide ((n + i + 1) % two48 % dayTicks = phase)

/-- A write that waited for its second edge reaches the Whorl domain (R372). -/
def WhlSt.take (w : WhlSt) (p : Nat × Nat × Nat) : WhlSt :=
  let v := p.2.1
  if p.1 = R.WHL_DAYPHASE then { w with phase := v }
  else if p.1 = R.WHL_CFG then { w with lbth := v % 4 }
  else if p.1 = R.WHL_CHG then { w with chg := v }
  else if p.1 = R.WHL_OFFSET then { w with offset := signedOf 16 v }
  else { w with wday := v }

/-- Whether the next edge, with the copies hit as given, is a day boundary. -/
def WhlSt.nextIsDay (w : WhlSt) (hitA hitB : BitVec 48) : Bool :=
  let n := (checkCopies (w.cntA ^^^ hitA.toNat) (w.cntB ^^^ hitB.toNat) (parityBad hitA) (parityBad hitB)).1
  dayCrossed w.phase n (tickAdvance w.acc).1

/-- A crystal edge; `hitA` and `hitB` are the bits of the two copies that have flipped since the last one. -/
def Core.whorlTick (c : Core) (t : Clock) (hitA hitB : BitVec 48) : Core :=
  let w0 := c.whl
  let chk := checkCopies (w0.cntA ^^^ hitA.toNat) (w0.cntB ^^^ hitB.toNat) (parityBad hitA) (parityBad hitB)
  let adv := tickAdvance w0.acc
  let n := (chk.1 + adv.1) % two48
  let day := dayCrossed w0.phase chk.1 adv.1
  let pend := w0.pend.map fun p => (p.1, p.2.1, p.2.2 - 1)
  let due := pend.filter fun p => p.2.2 == 0
  let w1 := { w0 with
    cntA := n, cntB := n, acc := adv.2, edges := w0.edges + 1, alive := true,
    wday := if day then (w0.wday + 1) % 7 else w0.wday, pend := pend.filter fun p => p.2.2 != 0 }
  let w2 := due.foldl WhlSt.take w1
  let ts := if c.coreOn && decide (6 ≤ c.fld F.SYS_BOOT.STAGE) then t.sidx else 0
  let w3 := if c.coreOn then { w2 with shCnt := n, shTs := ts, shWday := w2.wday } else w2
  let c1 := (c.onWhl fun _ => w3).setReg R.WHL_ACC (BitVec.ofNat 32 (unsignedOf 32 w3.acc))
  let c2 := c1.setFld F.WHL_STAT.WPEND (ofBool (w3.pend ≠ []))
  let c3 := if day then c2.raise F.WHL_IRQ.DAY else c2
  if chk.2 then applyIf c.coreOn (·.uncorrectable 9) ((c3.setOsf.raise F.WHL_STAT.CNTERR).raise F.WHL_IRQ.CNTERR) else c3

/-- A read of WHL_CNT_LO (R371). -/
def Core.readCnt (c : Core) : Core × Word :=
  let w := c.whl
  let c1 := (c.setReg R.WHL_CNT_HI (BitVec.ofNat 32 (w.shCnt / 2 ^ 32))).setReg R.WHL_TSIDX_LO (BitVec.ofNat 32 w.shTs)
  let c2 := (c1.setReg R.WHL_TSIDX_HI (BitVec.ofNat 32 (w.shTs / 2 ^ 32))).setFld F.WHL_WDAY.WDAY w.shWday
  (c2, BitVec.ofNat 32 w.shCnt)

/-! ### Writes from the core (R372, R378, R380, R384) -/

def Core.whlBadw (c : Core) : Core := c.raise F.WHL_STAT.BADW

/-- A value sent to the Whorl domain, to arrive at the second edge from now. -/
def Core.pendWhorl (c : Core) (item v : Nat) : Core :=
  (c.onWhl fun w => { w with pend := (w.pend.filter fun p => p.1 != item) ++ [(item, v, 2)] }).setFld F.WHL_STAT.WPEND 1

/-- Writes of WHL_CFG, WHL_OFFSET and WHL_DAYPHASE. -/
def Core.whlWrite (c : Core) (a : Nat) (w : Word) : Core :=
  if a = R.WHL_DAYPHASE then
    if dayTicks ≤ w.toNat then c.whlBadw else (c.setReg a w).pendWhorl a w.toNat
  else if a = R.WHL_CFG then (c.setReg a (BitVec.ofNat 32 (bits w 1 0))).pendWhorl a (bits w 1 0)
  else (c.setReg a (BitVec.ofNat 32 (bits w 15 0))).pendWhorl a (bits w 15 0)

/-- A write of WHL_WDAY (R380). -/
def Core.wdaySet (c : Core) (w : Word) : Core :=
  if bits w 11 11 = 0 then c
  else if bits w 10 8 = 7 then c.whlBadw
  else c.pendWhorl R.WHL_WDAY (bits w 10 8)

/-- A write of WHL_CHG (R384). -/
def Core.chgWrite (c : Core) (w : Word) : Core :=
  if bits w 31 24 ≠ 0xC4 then c.whlBadw
  else
    let v := w.toNat % 128 - bits w 3 3 * 8
    (c.setReg R.WHL_CHG (BitVec.ofNat 32 v)).pendWhorl R.WHL_CHG v

/-- The charger conducts (R384). -/
def Core.clampMv (c : Core) : Nat := ([2500, 3000, 3300] : List Nat).getD (c.whl.chg / 16 % 4) 3300
def Core.charging (c : Core) : Bool :=
  !c.onVbat && decide (1 ≤ c.whl.chg % 8 ∧ c.whl.chg % 8 ≤ 4) && decide (c.whl.vbat < c.clampMv)

/-- VBAT reaches CLAMP and the charger stops. -/
def Core.chargerClamp (c : Core) : Core := if c.charging then c.onWhl fun w => { w with vbat := c.clampMv } else c

/-- The points held in WHL_CURVEi. -/
def Core.curveRegs (c : Core) : List Int :=
  (List.range 33).map fun i =>
    let w := c.reg (R.WHL_CURVE (i / 2))
    signedOf 16 (if i % 2 = 0 then bits w 15 0 else bits w 31 16)

/-- WHL_CTRL.CURVLD (R378). -/
def Core.curvld (c : Core) : Core :=
  (c.onWhl fun w => { w with curveNext := some c.curveRegs }).setFld F.WHL_STAT.CURVPEND 1

/-- A write of WHL_CTRL. -/
def Core.whlCtrl (c : Core) (w : Word) : Core :=
  let c1 := if bits w 0 0 = 1 then c.curvld else c
  if bits w 1 1 = 1 then c1.setOsf else c1

/-- A WHL_CURVE body of the layout of R378. -/
def curveBodyOk (b : List Byte) : Bool :=
  decide (b.length = 96) && decide (leAt b 0 2 = 33) && zeroAt b 2 14 && zeroAt b 82 14

/-- The loader writes an image's curve and sends it (R378, R61). -/
def Core.loadCurve (c : Core) (img : Image) : Core :=
  let b := img.sec .whlCurve
  let ok := curveBodyOk b
  let pt := fun i => if ok && decide (i < 33) then leAt b (16 + 2 * i) 2 else 0
  let c1 := forBelow 17 (fun (c : Core) i => c.setReg (R.WHL_CURVE i) (BitVec.ofNat 32 (pt (2 * i) + 2 ^ 16 * pt (2 * i + 1)))) c
  (c1.setFld F.WHL_STAT.CURVDEF (ofBool (img.has .whlCurve && !ok))).curvld

/-! ### Rate compensation (R376) -/

/-- The crystal's error e at a temperature in 0.1 °C, in 0.01 ppm. -/
def curveError (curve : List Int) (offset temp : Int) : Rat :=
  let t := clampInt (-400) 1200 temp
  let i := min 31 ((t + 400) / 50).toNat
  let p := curve.getD i 0
  (p : Rat) + ((curve.getD (i + 1) 0 - p : Int) : Rat) * (((t + 400 - 50 * (i : Int) : Int) : Rat) / 50) + (offset : Rat)

/-- The correction per second in 2^-16 tick. -/
def correction (e : Rat) : Int := roundRat (-e * 2147483648 / 100000000)

/-- An update is due: 32,768 edges on VMAIN, 262,144 on VBAT. -/
def Core.compDue (c : Core) : Bool := decide ((if c.onVbat then 262144 else 32768) ≤ c.whl.edges)

/-- A compensation update at a temperature in 0.1 °C and VBAT in mV. -/
def Core.compUpdate (c : Core) (temp : Int) (vbat : Nat) : Core :=
  if ¬ c.compDue then c
  else
    let curve := c.whl.curveNext.getD c.whl.curve
    let k := correction (curveError curve c.whl.offset temp)
    let s : Rat := (c.whl.edges : Rat) / 32768
    let c1 := c.onWhl fun w =>
      { w with curve := curve, curveNext := none, k := k, acc := w.acc + roundRat ((k : Rat) * s), edges := 0, vbat := vbat }
    let c2 := ((c1.setFld F.WHL_STAT.CURVPEND 0).setFld F.WHL_TEMP.TEMP (unsignedOf 16 temp)).setReg R.WHL_CORR
      (BitVec.ofNat 32 (unsignedOf 32 k))
    let c3 := c2.setReg R.WHL_ACC (BitVec.ofNat 32 (unsignedOf 32 c2.whl.acc))
    if c3.vbatLow then (c3.raise F.WHL_TRUST.LBV).showTrust else c3

/-! ### Backup RAM and anchors (R381 to R383) -/

def backupRam : Nat := 0x4000B100

/-- A read of a backup RAM word; an uncorrectable error returns the stored bits and sets BRERR. -/
def Core.ramRead (c : Core) (i : Nat) (bad : Bool) : Core × Word :=
  (applyIf bad (fun c => (c.raise F.WHL_STAT.BRERR).raise F.WHL_IRQ.BRERR) c, c.mem.word (backupRam + 4 * (i % 64)))

def Core.ramWrite (c : Core) (i : Nat) (w : Word) : Core := { c with mem := c.mem.putWord (backupRam + 4 * (i % 64)) w }

/-- Anchor record A (0) or B (1). -/
def Core.anchor (c : Core) (i : Nat) : List Byte := c.mem.reads (backupRam + 32 * i) 32

def anchorCrcOk (b : List Byte) : Bool := decide (leAt b 28 4 = (crc32 (b.take 28)).toNat)
def anchorSeq (b : List Byte) : Nat := leAt b 6 2

/-- The valid anchor's index (R382). -/
def Core.validAnchor (c : Core) : Option Nat :=
  let a := c.anchor 0
  let b := c.anchor 1
  match anchorCrcOk a, anchorCrcOk b with
  | true, true => some (if serialNewer 16 (anchorSeq b) (anchorSeq a) then 1 else 0)
  | true, false => some 0
  | false, true => some 1
  | false, false => none

/-- An anchor record. -/
def anchorBytes (tick seq gpst unc ls flags : Nat) : List Byte :=
  let b := leBytes 6 tick ++ leBytes 2 seq ++ leBytes 8 gpst ++ leBytes 4 unc ++ leBytes 1 ls ++ leBytes 1 flags ++ List.replicate 6 0
  b ++ leBytes 4 (crc32 b).toNat

/-- The record with the older SEQ, or the one that fails its CRC, written with the newer SEQ + 1. -/
def Core.writeAnchor (c : Core) (tick gpst unc ls flags : Nat) : Core :=
  let valid := c.validAnchor
  let seq := match valid with | some i => (anchorSeq (c.anchor i) + 1) % 2 ^ 16 | none => 0
  let i := match valid with | some i => 1 - i | none => 0
  { c with mem := c.mem.writes (backupRam + 32 * i) (anchorBytes tick seq gpst unc ls flags) }

/-- GPST − UTC in whole seconds and whether it is known: the UTC entry of the time-scale table is valid (R261). -/
def Core.leapSeconds (c : Core) : Nat × Bool := (c.inForce F.PLAN_OUTCFG.LS, (c.scaleOfs 4).isSome)

/-- An anchor is due at an fc: Flywheel LOCKED, FLY_UNC below 1,000 ns, and 3,600 s since the last one of this LOCKED state (R382, log
entry 203). -/
def Core.anchorDue (c : Core) (now : Nat) : Bool :=
  decide (c.flyState = flyLocked ∧ c.fld F.FLY_UNC.UNC < 1000) &&
    (match c.fly.anchored with | some w => decide (w + 3600 * fcPerSec ≤ now) | none => true)

/-- Distaff's anchor, where one is due. -/
def Core.anchorWrite (c : Core) (now : Nat) : Core :=
  if c.anchorDue now then
    let m := (c.modelAt (((8 * c.whl.shTs : Nat) : Rat) * nsPerFc)).floor
    let ls := c.leapSeconds
    (c.writeAnchor c.whl.shCnt (unsignedOf 64 m) (c.fld F.FLY_UNC.UNC) ls.1 (ofBool ls.2)).onFly fun f => { f with anchored := some now }
  else c

/-- Whorl time and its uncertainty at a count, from the valid anchor (R383): ns, with `err` CAL_WHLRERR. -/
def Core.whorlTime (c : Core) (err tick : Nat) : Option (Nat × Nat) :=
  c.validAnchor.map fun i =>
    let b := c.anchor i
    let d := (tick + two48 - leAt b 0 6 % two48) % two48
    let dt : Rat := (d : Rat) * (30517578125 / 1000000)
    (leAt b 8 8 + dt.floor.toNat, leAt b 16 4 + ((err : Rat) * dt / 100000000).ceil.toNat + 31)

/-- At boot: no valid anchor, or BRERR in its bytes, sets OSF (R382). -/
def Core.checkAnchor (c : Core) (bad : Bool) : Core := if bad || c.validAnchor.isNone then c.setOsf else c

/-! ### The calendar service (R387, R388) -/

def leapYear (y : Nat) : Bool := decide (y % 4 = 0 ∧ (y % 100 ≠ 0 ∨ y % 400 = 0))

def monthDays (y m : Nat) : Nat :=
  if m = 2 then (if leapYear y then 29 else 28) else if m = 4 ∨ m = 6 ∨ m = 9 ∨ m = 11 then 30 else 31

/-- Days from 1980-01-06 to the first of a year or month. -/
def yearDays (y : Nat) : Nat := ((List.range (y - 1980)).map fun i => if leapYear (1980 + i) then 366 else 365).sum
def dayNumber (y m d : Nat) : Int := ((yearDays y + ((List.range (m - 1)).map fun i => monthDays y (i + 1)).sum + d : Nat) : Int) - 6

/-- The year that holds a day, counted up from 1980, with the days left in it. -/
def findYear : Nat → Nat → Nat → Nat × Nat
  | 0, y, d => (y, d)
  | f + 1, y, d => let n := if leapYear y then 366 else 365
                   if d < n then (y, d) else findYear f (y + 1) (d - n)

def findMonth (y : Nat) : Nat → Nat → Nat → Nat × Nat
  | 0, m, d => (m, d)
  | f + 1, m, d => if d < monthDays y m then (m, d) else findMonth y f (m + 1) (d - monthDays y m)

/-- A date from ns in a scale since the GPS time origin. -/
def calDate (ns : Nat) : CalDate :=
  let days := ns / 86400000000000
  let s := ns / 1000000000 % 86400
  let y := findYear 220 1980 (days + 5)
  let m := findMonth y.1 12 1 y.2
  { year := y.1, month := m.1, day := m.2 + 1, hour := s / 3600, minute := s / 60 % 60, second := s % 60, ns := ns % 1000000000 }

/-- The label in UTC of GPST `g` under the offset `ofs` in force, both in ns: an inserted leap second is 23:59:60, a deleted one is not
shown (R262, R286, R387). -/
def utcLabel (leap : Option LeapSecond) (g ofs : Int) : CalDate :=
  match leap with
  | none => calDate (g + ofs).toNat
  | some l =>
    let sec : Int := 1000000000
    let u := g + ofs + (-(roundRat ((ofs : Rat) / 1000000000)) - l.before) * sec
    let day : Int := ((l.day + 1) * 86400 : Nat) * sec
    if l.inserted then
      if u < day then calDate u.toNat
      else if u < day + sec then { calDate (u - sec).toNat with second := 60 }
      else calDate (u - sec).toNat
    else if u < day - sec then calDate u.toNat
    else calDate (u + sec).toNat

/-- GPST of a count of ns in UTC labels whose day is `n`: the inverse of `utcLabel`. -/
def gpstOfUtc (leap : Option LeapSecond) (n v ofs : Int) : Int :=
  match leap with
  | none => v - ofs
  | some l =>
    let sec : Int := 1000000000
    let past := if n ≤ ((l.day : Nat) : Int) then 0 else if l.inserted then sec else -sec
    v + past - ofs - (-(roundRat ((ofs : Rat) / 1000000000)) - l.before) * sec

/-- The label of GPST in a scale, UTC with its leap seconds. -/
def Core.label (c : Core) (scale : Nat) (g ofs : Int) : CalDate :=
  if scale = 4 then utcLabel c.dst.leap g ofs else calDate (g + ofs).toNat

/-- The weekday of a day number, 0 Sunday, the day of the GPS time origin. -/
def weekday (n : Int) : Nat := (n % 7).toNat

/-- BAD_DATE's tests (R387, R388). -/
def Core.dateOk (c : Core) (d : CalDate) (scale : Nat) : Bool :=
  let n := dayNumber d.year d.month d.day
  decide (1980 ≤ d.year ∧ d.year ≤ 2199 ∧ 1 ≤ d.month ∧ d.month ≤ 12 ∧ 1 ≤ d.day ∧ d.day ≤ monthDays d.year d.month ∧
    d.hour ≤ 23 ∧ d.minute ≤ 59 ∧ d.ns < 1000000000 ∧ 0 ≤ n) &&
  (decide (d.second ≤ 59) ||
    (decide (d.second = 60 ∧ d.hour = 23 ∧ d.minute = 59 ∧ scale = 4) && c.dst.leap.any fun l => l.inserted && l.day == n.toNat))

/-- SETDATE (R388): the refusal code, 0 done. `unc` is the host's uncertainty in ns. -/
def Core.calSet (c : Core) (d : CalDate) (scale unc : Nat) : Core × Nat :=
  if ¬ c.dateOk d scale then (c, 1)
  else
    match c.scaleOfs scale with
    | none => (c, 2)
    | some ofs =>
      if c.flyState = flyLocked then (c, 3)
      else
        let n := dayNumber d.year d.month d.day
        let tod := (d.hour * 60 + d.minute) * 60 + d.second
        let inScale : Int := (n * 86400 + (tod : Int)) * 1000000000 + (d.ns : Int)
        let o := ofs.fdiv 65536
        let gpst := if scale = 4 then gpstOfUtc c.dst.leap n inScale o else inScale - o
        let ls := c.leapSeconds
        let c1 := c.writeAnchor c.whl.shCnt (unsignedOf 64 gpst) unc ls.1 (2 + ofBool ls.2)
        let ticks := tod * 32768 + d.ns * 32768 / 1000000000
        let phase := (c.whl.shCnt + dayTicks - ticks % dayTicks) % dayTicks
        let c2 := (c1.whlWrite R.WHL_DAYPHASE (BitVec.ofNat 32 phase)).pendWhorl R.WHL_WDAY (weekday n)
        (c2.trustClear 0x50#32, 0)

/-- A tick-to-date request (R387, R388): the date in a scale, its weekday and U, or the refusal code. Tick 0 is now. -/
def Core.calGet (c : Core) (err tick scale : Nat) : Except Nat (CalDate × Nat × Nat) :=
  let n := if tick = 0 then c.whl.shCnt else tick
  match c.whorlTime err n, c.scaleOfs scale with
  | none, _ => .error 4
  | some _, none => .error 2
  | some (g, u), some ofs =>
    let d := c.label scale g (ofs.fdiv 65536)
    if 2199 < d.year then .error 1 else .ok (d, weekday (dayNumber d.year d.month d.day), u)

end Sys2Proof.Machine
end

