-- ==== Sys2Proof/Machine/Spool.lean ====
section
/-! DEFINITION. The NVM and the Spool journal (R397 to R409): records, batches, mounting, compaction, and the two-copy areas. -/
namespace Sys2Proof.Machine

def Core.onNvm (c : Core) (f : NvmSt → NvmSt) : Core := { c with nvm := f c.nvm }
def Core.onDst (c : Core) (f : DstSt → DstSt) : Core := { c with dst := f c.dst }

def nvmBase : Nat := 0x20000000
def halfSize : Nat := 0x40000
def halfBase (h : Nat) : Nat := 0x20200000 + halfSize * h
def sectorOf (a : Nat) : Nat := (a - nvmBase) / 65536
def commitWord : Nat := 0x3C3CA5A5
def erasedWord : Nat := 0xFFFFFFFF

/-! ### Flash operations (R398) -/

/-- NVM_STAT shows the operation in progress. -/
def Core.showOp (c : Core) : Core :=
  match c.nvm.ops with
  | [] => (((c.setFld F.NVM_STAT.BUSY 0).setFld F.NVM_STAT.OP 0).setFld F.NVM_STAT.BANK 0).setFld F.NVM_STAT.SECTOR 0
  | (op, sec, _) :: _ =>
    (((c.setFld F.NVM_STAT.BUSY 1).setFld F.NVM_STAT.OP op).setFld F.NVM_STAT.BANK (sec / 16)).setFld F.NVM_STAT.SECTOR sec

/-- Words programmed from an address on; a word takes its contents as soon as the operation begins. -/
def Core.programNvm (c : Core) (a : Nat) (bs : List Byte) : Core :=
  let c1 := c.onNvm fun n => { n with ops := n.ops ++ [(1, sectorOf a, (bs.length + 3) / 4)] }
  ({ c1 with mem := c1.mem.writes a bs } : Core).showOp

/-- `n` sectors erased from an address on. -/
def Core.eraseNvm (c : Core) (a n : Nat) : Core :=
  let c1 := c.onNvm fun s => { s with ops := s.ops ++ [(2, sectorOf a, n)] }
  ({ c1 with mem := c1.mem.clear a (65536 * n) } : Core).showOp

/-- A word program (1) or a sector erase (2) completes. -/
def Core.nvmDone (c : Core) (op : Nat) : Core :=
  match c.nvm.ops with
  | (o, sec, k) :: r =>
    if o ≠ op then c
    else
      let next := if 2 ≤ k then (o, if op = 2 then sec + 1 else sec, k - 1) :: r else r
      (c.onNvm fun n => { n with ops := next }).showOp
  | [] => c

/-! ### Records (R401 to R404) -/

/-- A record found in a half. -/
structure SpoolRec where
  seq : Nat
  key : Nat
  batch : Bool
  fin : Bool
  payload : List Byte
  size : Nat
  committed : Bool
deriving DecidableEq, Repr

def ceil4 (n : Nat) : Nat := (n + 3) / 4 * 4

/-- The bytes a record takes. -/
def recSize (len : Nat) : Nat := 32 * ceilDiv (ceil4 len + 16) 32

/-- A record's bytes. -/
def recBytes (seq key : Nat) (batch fin : Bool) (payload : List Byte) : List Byte :=
  let body := leBytes 4 seq ++ leBytes 4 (key * 65536 + ofBool batch * 32768 + ofBool fin * 16384 + payload.length) ++ payload ++
    List.replicate (ceil4 payload.length - payload.length) 0
  let crc := leBytes 4 (crc32 body).toNat
  body ++ crc ++ List.replicate (recSize payload.length - body.length - 8) 0xFF ++ leBytes 4 commitWord

/-- A tombstone, or a value. -/
def SpoolRec.value (r : SpoolRec) : Option (List Byte) := if r.payload = [] then none else some r.payload

/-- The record at an address, where its word 1 is valid. -/
def recAt (m : Memory) (a : Nat) : Option SpoolRec :=
  let w1 := m.readLe (a + 4) 4
  let len := w1 % 4096
  if w1 = erasedWord ∨ w1 / 4096 % 4 ≠ 0 ∨ 2016 < len then none
  else
    let size := recSize len
    let crc := m.readLe (a + 8 + ceil4 len) 4
    some { seq := m.readLe a 4, key := w1 / 65536, batch := bitOf w1 15, fin := bitOf w1 14, payload := m.reads (a + 8) len, size := size,
           committed := decide (m.readLe (a + size - 4) 4 = commitWord) &&
             decide ((crc32 (m.reads a (8 + ceil4 len))).toNat = crc) }

/-- What a scan of a half finds: the records, the tail, whether it ended at a fault. -/
structure SpoolScan where
  recs : List SpoolRec
  tail : Nat
  dirty : Bool
deriving DecidableEq, Repr

/-- The scan of R405 from an offset; `prev` is the SEQ before. -/
def scanFrom (m : Memory) (h : Nat) : Nat → Nat → Option Nat → SpoolScan
  | 0, o, _ => { recs := [], tail := o, dirty := true }
  | f + 1, o, prev =>
    if halfSize ≤ o ∨ m.readLe (halfBase h + o) 4 = erasedWord then { recs := [], tail := min o halfSize, dirty := false }
    else
      match recAt m (halfBase h + o) with
      | none => { recs := [], tail := o, dirty := true }
      | some r =>
        let ascends : Bool := match prev with | some p => serialNewer 32 r.seq p | none => true
        if ¬ ascends then { recs := [], tail := o, dirty := true }
        else
          let s := scanFrom m h f (o + r.size) (some r.seq)
          { s with recs := r :: s.recs }

/-- A half scanned; words beyond the tail that are not erased make it dirty. -/
def scanHalf (m : Memory) (h : Nat) : SpoolScan :=
  let s := scanFrom m h 8192 32 none
  let beyond := m.any fun x => decide (halfBase h + s.tail ≤ x.1 ∧ x.1 < halfBase h + halfSize)
  { s with dirty := s.dirty || beyond }

/-- An attempt that failed: the record that follows repeats it (R403). -/
def SpoolRec.repeated (r : SpoolRec) (rs : List SpoolRec) : Bool :=
  match rs with | n :: _ => n.key == r.key && n.batch == r.batch && n.fin == r.fin | [] => false

/-- The committed records that count: a batch whose END record is committed counts whole, any other not at all (R404). A batch member
that is not committed and not repeated ends its batch (log entry 208). -/
def countBatches : List SpoolRec → List SpoolRec → List SpoolRec
  | _, [] => []
  | run, r :: rs =>
    if ¬ r.committed then countBatches (if r.repeated rs then run else []) rs
    else if ¬ r.batch then r :: countBatches [] rs
    else if r.fin then (run ++ [r]) ++ countBatches [] rs
    else countBatches (run ++ [r]) rs

def SpoolScan.valid (s : SpoolScan) : List SpoolRec := countBatches [] s.recs

/-- How many records of a log key are kept; none for a value key (R402). -/
def logKeep (key : Nat) : Option Nat := if key = 0x300 then some 64 else if key = 0x400 then some 16 else none

/-- The live set (R407), in ascending SEQ order. -/
def liveOf : List SpoolRec → List SpoolRec
  | [] => []
  | r :: rs =>
    let later := (rs.filter fun x => x.key == r.key).length
    let keep := match logKeep r.key with
      | some n => decide (later < n)
      | none => decide (later = 0 ∧ r.payload ≠ [])
    if keep then r :: liveOf rs else liveOf rs

def liveSize (l : List SpoolRec) : Nat := (l.map (·.size)).sum

/-- The active half. -/
def Core.spoolHalf (c : Core) : Nat := c.fld F.NVM_SPOOL.HALF
def Core.spoolScan (c : Core) : SpoolScan := scanHalf c.mem c.spoolHalf
def Core.spoolLive (c : Core) : List SpoolRec := liveOf c.spoolScan.valid

/-- The value in force of a value key. -/
def Core.spoolValue (c : Core) (key : Nat) : Option (List Byte) :=
  (c.spoolLive.find? fun r => r.key == key).bind (·.value)

/-- The number after a SEQ; 0xFFFF_FFFF is never used. -/
def nextSeq (s : Nat) : Nat := (s + 1) % erasedWord

/-- NVM_SPOOL's FREE and LIVE. -/
def Core.showSpool (c : Core) : Core :=
  (c.setFld F.NVM_SPOOL.FREE ((halfSize - c.nvm.tail) / 32)).setFld F.NVM_SPOOL.LIVE (liveSize c.spoolLive / 32)

/-- One attempt to write a record at the tail. With a verify that fails, COMMIT is not written (R403); NVM_SPSEQ shows committed records
only. -/
def Core.appendRec (c : Core) (key : Nat) (batch fin : Bool) (payload : List Byte) (ok : Bool) : Core :=
  let num := nextSeq c.nvm.lastSeq
  let bs := recBytes num key batch fin payload
  let c1 := c.programNvm (halfBase c.spoolHalf + c.nvm.tail) (if ok then bs else bs.take (bs.length - 4))
  let c2 := c1.onNvm fun n => { n with tail := n.tail + bs.length, lastSeq := num, fails := if ok then 0 else n.fails + 1 }
  let c3 := if ok then c2.setReg R.NVM_SPSEQ (BitVec.ofNat 32 num) else ((c2.countSat F.NVM_STAT.ERRCNT 1).raise F.NVM_IRQ.VERIFY)
  (if 3 ≤ c3.nvm.fails then c3.setFld F.NVM_STAT.RDONLY 1 else c3).showSpool

/-- A batch waits or is being written. -/
def Core.batchBusy (c : Core) : Bool := c.nvm.queue.any (·.batch)

/-- The live set with records added would break R407. -/
def Core.spoolFull (c : Core) (l : List SpoolReq) : Bool :=
  let fresh := fun (r : SpoolReq) =>
    SpoolRec.mk 0 r.key false false r.payload (recSize r.payload.length) true
  let live := liveOf (c.spoolScan.valid ++ (c.nvm.queue ++ l).map fresh)
  decide (131072 < liveSize live) ||
    (l.any (fun r => decide (0x8000 ≤ r.key)) && decide (98304 < liveSize (live.filter fun r => decide (0x8000 ≤ r.key))))

/-- At shed level 3 a non-urgent record of a key not yet queued is dropped where 64 wait (R406). -/
def Core.recDropped (c : Core) (r : SpoolReq) : Bool :=
  !r.urgent && decide (3 ≤ c.fld F.SYS_DSTLOAD.LEVEL) && !(c.nvm.queue.any fun q => !q.urgent && q.key == r.key) &&
    decide (64 ≤ (c.nvm.queue.filter fun q => !q.urgent).length)

/-- A record queued, unless Spool is read-only (R403). At shed level 3 a non-urgent one replaces the queued record of its key (R406). -/
def Core.queueRec (c : Core) (r : SpoolReq) : Core :=
  if c.flag F.NVM_STAT.RDONLY then c
  else if r.urgent || decide (c.fld F.SYS_DSTLOAD.LEVEL < 3) then c.onNvm fun n => { n with queue := n.queue ++ [r] }
  else if c.nvm.queue.any (fun q => !q.urgent && q.key == r.key) then
    c.onNvm fun n => { n with queue := n.queue.map fun q =>
      if !q.urgent && q.key == r.key then { r with olds := q.olds ++ q.ack.toList } else q }
  else if c.recDropped r then
    (c.countSat F.SYS_DSTSHED.DEFDROP 1).raise F.NVM_IRQ.DEFDROP
  else c.onNvm fun n => { n with queue := n.queue ++ [r] }

/-- The record written next: at shed level 3 an urgent one, unless HIBERNATE is being entered. -/
def Core.nextRec (c : Core) : Option SpoolReq :=
  if c.fld F.SYS_DSTLOAD.LEVEL = 3 ∧ c.pwr.hib = 0 then c.nvm.queue.find? (·.urgent) else c.nvm.queue.head?

/-- The front record is written, with the outcome of its verify; what comes back are the requests to acknowledge. -/
def Core.writeRec (c : Core) (ok : Bool) : Core × List AckTo :=
  match c.nextRec with
  | none => (c, [])
  | some r =>
    if c.flag F.NVM_STAT.RDONLY ∨ c.nvm.dirty = true ∨ halfSize < c.nvm.tail + recSize r.payload.length then (c, [])
    else
      let c1 := c.appendRec r.key r.batch r.fin r.payload ok
      if ok then (c1.onNvm fun n => { n with queue := n.queue.erase r }, r.olds ++ r.ack.toList) else (c1, [])

/-! ### Mounting (R400, R405) -/

/-- A half's header is complete. -/
def halfComplete (m : Memory) (h : Nat) : Bool :=
  decide (m.readLe (halfBase h) 4 = 0x53504C31) && decide (m.readLe (halfBase h + 28) 4 = 0x69966996)
def halfBlank (m : Memory) (h : Nat) : Bool := !(m.any fun x => decide (halfBase h ≤ x.1 ∧ x.1 < halfBase h + halfSize))
def halfSeq (m : Memory) (h : Nat) : Nat := m.readLe (halfBase h + 4) 4
/-- A half's erase count, 0 where its header holds none (log entry 206). -/
def halfErases (m : Memory) (h : Nat) : Nat :=
  if m.readLe (halfBase h) 4 = 0x53504C31 then m.readLe (halfBase h + 8) 4 else 0

/-- A half's header, without DONE. -/
def halfHeader (hseq erases : Nat) : List Byte :=
  leBytes 4 0x53504C31 ++ leBytes 4 hseq ++ leBytes 4 erases ++ List.replicate 16 0

def Core.showWear (c : Core) : Core :=
  (c.setFld F.NVM_WEAR0.ERASES (min 0xFFFFF (halfErases c.mem 0))).setFld F.NVM_WEAR1.ERASES (min 0xFFFFF (halfErases c.mem 1))

/-- A half erased where it is not blank. -/
def Core.eraseHalf (c : Core) (h : Nat) : Core := if halfBlank c.mem h then c else c.eraseNvm (halfBase h) 4

/-- A half formatted as an empty active half. -/
def Core.formatHalf (c : Core) (h hseq erases : Nat) : Core :=
  c.programNvm (halfBase h) (halfHeader hseq erases ++ leBytes 4 0x69966996)

/-- The mount: the active half chosen, the other erased, the journal scanned (R405). -/
def Core.mountSpool (c : Core) : Core :=
  let m := c.mem
  let e0 := halfErases m 0
  let e1 := halfErases m 1
  let pick : Core × Nat :=
    match halfComplete m 0, halfComplete m 1 with
    | true, true => if serialNewer 32 (halfSeq m 1) (halfSeq m 0) then (c.eraseHalf 0, 1) else (c.eraseHalf 1, 0)
    | true, false => (c.eraseHalf 1, 0)
    | false, true => (c.eraseHalf 0, 1)
    | false, false =>
      if halfBlank m 0 && halfBlank m 1 then (c.formatHalf 0 1 (max e0 e1), 0)
      else ((((c.eraseHalf 0).eraseHalf 1).formatHalf 0 1 (max e0 e1 + 1)).raise F.NVM_IRQ.DIRTY, 0)
  let c1 := pick.1.setFld F.NVM_SPOOL.HALF pick.2
  let s := c1.spoolScan
  let last := fun (l : List SpoolRec) => (l.getLast?.map (·.seq)).getD 0
  let c2 := (c1.onNvm fun n => { n with tail := s.tail, lastSeq := last s.recs, dirty := s.dirty, fails := 0, compactTo := none }).setReg
    R.NVM_SPSEQ (BitVec.ofNat 32 (last (s.recs.filter (·.committed))))
  let c3 := ((c2.setFld F.NVM_SPOOL.MOUNTED 1).setFld F.NVM_SPOOL.COMPACT 0).setFld F.NVM_SPOOL.DIRTY (ofBool s.dirty)
  ((if s.dirty then c3.raise F.NVM_IRQ.DIRTY else c3).showSpool).showWear

/-! ### Compaction (R408) -/

/-- Compaction is due: less than 32 KiB free, or a dirty half. -/
def Core.compactDue (c : Core) : Bool :=
  c.flag F.NVM_SPOOL.MOUNTED && c.nvm.compactTo.isNone &&
    (decide (halfSize - c.nvm.tail < 32768) || c.nvm.dirty)

/-- Steps 1 and 2. -/
def Core.compactStart (c : Core) : Core :=
  if ¬ c.compactDue then c
  else
    let h := 1 - c.spoolHalf
    let erases := max (halfErases c.mem 0) (halfErases c.mem 1) + 1
    let c1 := (c.eraseHalf h).programNvm (halfBase h) ((halfHeader ((halfSeq c.mem c.spoolHalf + 1) % 2 ^ 32) erases).take 12)
    ((c1.onNvm fun n => { n with compactTo := some h }).setFld F.NVM_SPOOL.COMPACT 1).showWear

/-- Steps 3 to 6: the live set as it now stands copied, DONE written, the old half erased. -/
def Core.compactEnd (c : Core) : Core :=
  match c.nvm.compactTo with
  | none => c
  | some h =>
    let old := c.spoolHalf
    let body := c.spoolLive.flatMap fun r => recBytes r.seq r.key false false r.payload
    let c1 := (c.programNvm (halfBase h + 12) (List.replicate 16 0 ++ leBytes 4 0x69966996)).programNvm (halfBase h + 32) body
    let c2 := c1.eraseHalf old
    let c3 := (c2.onNvm fun n => { n with compactTo := none, dirty := false, tail := 32 + body.length }).setFld F.NVM_SPOOL.HALF h
    let c4 := (c3.setFld F.NVM_SPOOL.COMPACT 0).raise F.NVM_IRQ.COMPDONE
    c4.showSpool.showWear

/-! ### The cache and the calibration area (R399) -/

def cacheBase (i : Nat) : Nat := 0x20280000 + 0x40000 * i
def calBase (i : Nat) : Nat := 0x20300000 + 0x10000 * i

/-- A copy's sequence number and body where its commit word and CRC are good. Its header holds the number and the body's length. -/
def copyAt (m : Memory) (a most : Nat) : Option (Nat × List Byte) :=
  let n := m.readLe (a + 4) 4
  if most < n then none
  else if m.readLe (a + 8 + ceil4 n + 4) 4 = commitWord ∧ m.readLe (a + 8 + ceil4 n) 4 = (crc32 (m.reads a (8 + ceil4 n))).toNat then
    some (m.readLe a 4, m.reads (a + 8) n)
  else none

/-- The copy that holds: good, with the newer number; of two that are equal or unordered copy 0 (log entry 184). -/
def newestCopy (m : Memory) (base : Nat → Nat) (most : Nat) : Option (Nat × Nat × List Byte) :=
  match copyAt m (base 0) most, copyAt m (base 1) most with
  | some a, some b => some (if serialNewer 32 b.1 a.1 then (1, b) else (0, a))
  | some a, none => some (0, a)
  | none, some b => some (1, b)
  | none, none => none

/-- A body written to the older copy, or to one that fails its check: erased first, the commit word last. -/
def Core.writeCopy (c : Core) (base : Nat → Nat) (sectors most : Nat) (body : List Byte) : Core :=
  let cur := newestCopy c.mem base most
  let i := match cur with | some x => 1 - x.1 | none => 0
  let seq := match cur with | some x => (x.2.1 + 1) % 2 ^ 32 | none => 1
  let hb := leBytes 4 seq ++ leBytes 4 body.length ++ body ++ List.replicate (ceil4 body.length - body.length) 0
  (c.eraseNvm (base i) sectors).programNvm (base i) (hb ++ leBytes 4 (crc32 hb).toNat ++ leBytes 4 commitWord)

def cacheMost : Nat := 4 * 65536 - 16
def calMost : Nat := 65536 - 16

/-- The cache is due at an fc: NVM_CACHEINT seconds after it was last due (R399, log entry 203). -/
def Core.cacheDue (c : Core) (now : Nat) : Bool :=
  match c.nvm.cacheAt with | some w => decide (w + c.settingNat 19 * fcPerSec ≤ now) | none => true

/-- The cache, where it is due, written with what Distaff has learnt; at shed level 3 it waits for the next interval. -/
def Core.cacheWrite (c : Core) (now : Nat) (body : List Byte) : Core :=
  if ¬ c.cacheDue now then c
  else
    let c1 := c.onNvm fun n => { n with cacheAt := some now }
    if c.fld F.SYS_DSTLOAD.LEVEL = 3 then c1 else c1.writeCopy cacheBase 4 cacheMost (body.take cacheMost)

/-- The calibration items: 0 the OSNMA root, 1 a key, 2 the board identity, each with its bytes. -/
def calItems : Nat → List Byte → List (Nat × List Byte)
  | 0, _ => []
  | f + 1, b => if b.length < 8 then [] else (leAt b 0 4, (b.drop 8).take (leAt b 4 4)) :: calItems f (b.drop (8 + leAt b 4 4))

/-- A provisioning message's item replaces the one of its kind. -/
def Core.provWrite (c : Core) (kind : Nat) (data : List Byte) : Core :=
  let items := match newestCopy c.mem calBase calMost with | some x => calItems 8 x.2.2 | none => []
  let next := (items.filter fun p => p.1 != kind) ++ [(kind, data)]
  c.writeCopy calBase 1 calMost ((next.flatMap fun p => leBytes 4 p.1 ++ leBytes 4 p.2.length ++ p.2).take calMost)

end Sys2Proof.Machine
end

