-- ==== Sys2Proof/Machine/Nvm.lean ====
section
/-! DEFINITION. Image slots, the boot record and fuses (R64 to R72), the persistent set and STORE (R269, R410 to R413), Distaff's load
and shed level, and ROM patches (R390 to R396). -/
namespace Sys2Proof.Machine

/-! ### Image slots (R68, R69) -/

def slotBase (k : Nat) : Nat := nvmBase + 0x100000 * k
def slotStateFld (k : Nat) : Fld := if k = 0 then F.NVM_IMG_SLOTA.STATE else F.NVM_IMG_SLOTB.STATE
def slotCodeFld (k : Nat) : Fld := if k = 0 then F.NVM_IMG_SLOTA.CODE else F.NVM_IMG_SLOTB.CODE
def slotProdFld (k : Nat) : Fld := if k = 0 then F.NVM_IMG_SLOTA.PRODUCT else F.NVM_IMG_SLOTB.PRODUCT

def ssUnchecked : Nat := 0
def ssWriting : Nat := 1
def ssVerifying : Nat := 2
def ssValid : Nat := 3
def ssRefused : Nat := 4

/-- The slot whose image is in force. -/
def Core.runningSlot (c : Core) : Option Nat :=
  match c.plan.src with
  | .slotA => some 0
  | .slotB => some 1
  | _ => none

/-- The slot that writes, VERIFY, LOAD and SELECT act on. -/
def Core.inactiveSlot (c : Core) : Nat :=
  match c.runningSlot with
  | some k => 1 - k
  | none => c.fld F.NVM_IMG_CTRL.TARGET

def slotSrc (k : Nat) : ImageSrc := if k = 0 then .slotA else .slotB

/-- A slot's bytes, IMG_LEN at most. -/
def Core.slotBytes (c : Core) (k : Nat) : List Byte :=
  c.mem.reads (slotBase k) (min 0x100000 (max 64 (c.mem.readLe (slotBase k + 8) 4)))

/-- LOAD's image: the inactive slot's, when it is VALID. -/
def Core.loadable (c : Core) : Option (Image × ImageSrc) :=
  let k := c.inactiveSlot
  if c.fld (slotStateFld k) = ssValid then some (imageOf (c.slotBytes k), slotSrc k) else none

/-- A write of PLAN_CTRL.LOAD (R53, R350). -/
def Core.loadCandidate (c : Core) : Core :=
  let c1 := c.planLoad c.loadable
  if c1.planState = plChecking ∧ c.planState ≠ plChecking then c1.powerCandidate else c1

/-- A slot write touches words already written in the session. -/
def Core.slotRewrites (c : Core) (ofs len : Nat) : Bool := c.nvm.written.any fun r => decide (ofs < r.1 + r.2 ∧ r.1 < ofs + len)

/-- An image write at an offset over both slots: 0 done, 1 WRPROT, 2 REWRITE (R69, log entry 182). -/
def Core.imgWrite (c : Core) (ofs : Nat) (data : List Byte) : Core × Nat :=
  let k := ofs / 0x100000
  let st := c.fld (slotStateFld k)
  if k ≠ c.inactiveSlot ∨ st = ssVerifying ∨ c.planState = plChecking ∨ c.planState = plArmed then (c.raise F.NVM_IMG_STAT.WRPROT, 1)
  else if st = ssWriting ∧ c.slotRewrites ofs data.length = true then (c, 2)
  else
    let c1 := c.dropCandidate
    let c2 := if st = ssWriting then c1 else
      (c1.eraseNvm (slotBase k) 16).onNvm fun n => { n with written := n.written.filter fun r => r.1 / 0x100000 != k }
    let c3 := (c2.programNvm (nvmBase + ofs) data).onNvm fun n => { n with written := n.written ++ [(ofs, data.length)] }
    (c3.setFld (slotStateFld k) ssWriting, 0)

/-- VERIFY (R69). -/
def Core.imgVerify (c : Core) : Core :=
  if c.flag F.NVM_IMG_STAT.BUSY then c
  else (c.setFld (slotStateFld c.inactiveSlot) ssVerifying).setFld F.NVM_IMG_STAT.BUSY 1

/-- The slot being verified. -/
def Core.verifying (c : Core) : Option Nat := (List.range 2).find? fun k => c.fld (slotStateFld k) = ssVerifying

/-- A verified slot's verdict in its registers (R63). -/
def Core.slotVerdict (c : Core) (k code : Nat) (l : List Byte) : Core :=
  let c1 := (c.setFld (slotStateFld k) (if code = 0 then ssValid else ssRefused)).setFld (slotCodeFld k) code
  let c2 := if code = 0 then c1.setFld (slotProdFld k) (leAt l 16 4) else c1
  ((c2.setFld F.NVM_IMG_STAT.CODE code).setFld F.NVM_IMG_STAT.SKIP (skippedSecs code l)).setFld F.NVM_IMG_STAT.BUSY 0

/-- Facet ends verification; `ecc` says that an uncorrectable NVM error was met. -/
def Core.verifyComplete (c : Core) (ecc : Bool) : Core :=
  match c.verifying with
  | some k => let l := c.slotBytes k
              c.slotVerdict k (verifyCode c.otp ecc l) l
  | none => c

/-! ### The boot record (R70, R71) -/

def keyBoot : Nat := 1
def keyWroll : Nat := 2

/-- The boot record shown and queued for Spool. -/
def Core.setBoot (c : Core) (active try_ : Nat) : Core :=
  ((c.setFld F.NVM_BOOTINFO.ACTIVE active).setFld F.NVM_BOOTINFO.TRY try_).queueRec
    { key := keyBoot, batch := false, fin := false, payload := leBytes 1 active ++ leBytes 1 try_, urgent := true, ack := none }

/-- CONFIRM (R71): TRY becomes 0, ACTIVE stays (log entry 183). -/
def Core.imgConfirm (c : Core) : Core := c.setBoot (c.fld F.NVM_BOOTINFO.ACTIVE) 0

def Core.imgSelect (c : Core) : Core :=
  if c.fld (slotStateFld c.inactiveSlot) = ssValid then c.setBoot c.inactiveSlot 1 else c

/-- A write of NVM_IMG_CTRL. -/
def Core.imgCtrl (c : Core) (w : Word) : Core :=
  let c1 := c.setFld F.NVM_IMG_CTRL.TARGET (bits w 4 4)
  let c2 := if bits w 0 0 = 1 then c1.imgVerify else c1
  let c3 := if bits w 1 1 = 1 then c2.imgSelect else c2
  if bits w 2 2 = 1 then c3.imgConfirm else c3

/-- The boot record as Spool holds it: ACTIVE and TRY; none and confirmed where there is no record. -/
def Core.bootRecord (c : Core) : Nat × Nat :=
  match c.spoolValue keyBoot with
  | some b => (leAt b 0 1, leAt b 1 1)
  | none => (2, 0)

/-! ### Fuses (R64, R65) -/

def Otp.afterOp (o : Otp) : FuseOp → Otp
  | .program s k => { o with cks := o.cks.modify s fun x => { x with key := k, valid := true } }
  | .revoke s => { o with cks := o.cks.modify s fun x => { x with revoked := true } }
  | .kldoff => { o with kldoff := true }

def Otp.anyKey (o : Otp) : Bool := !o.kldoff || o.cks.any fun k => k.valid && !k.revoked

/-- A fuse request's code: 0 done, 1 LASTKEY, 3 SLOTUSED. -/
def Otp.fuseCode (o : Otp) (op : FuseOp) : Nat :=
  let used : Bool := match op with
    | .program s _ => (o.cks[s]?.map (·.valid)).getD false
    | _ => false
  if used then 3 else if ¬ (o.afterOp op).anyKey then 1 else 0

def Otp.word (o : Otp) : Word :=
  let k := fun i => o.cks.getD i { key := [], valid := false, revoked := false }
  BitVec.ofNat 32 (ofBool (k 0).valid + 2 * ofBool (k 0).revoked + 4 * ofBool (k 1).valid + 8 * ofBool (k 1).revoked +
    16 * ofBool o.kldoff)

def Core.fuse (c : Core) (op : FuseOp) : Core × Nat :=
  let code := c.otp.fuseCode op
  if code ≠ 0 then (c, code) else ({ c with otp := c.otp.afterOp op }, 0)

/-! ### Distaff settings (R269, R383, R392, R399) -/

/-- A setting written; false where it is refused. -/
def Core.setSetting (c : Core) (i : Nat) (b : List Byte) : Core × Bool :=
  if i < settingCount ∧ settingOk i b = true then (c.onDst fun d => { d with sets := mapPut settingDefault d.sets i b }, true)
  else (c, false)

/-! ### The persistent set and STORE (R410 to R413) -/

/-- The registers of the persistent set. -/
def persistRegs : List Nat :=
  group12Regs ++ group10Regs ++ group11Regs ++ [R.WHL_OFFSET, R.WHL_CFG, R.WHL_CHG] ++
    [R.PWR_CFG, R.PWR_DOZECFG, R.PWR_DOZEIDLE, R.PWR_HIBIDLE, R.PWR_WAKEEN] ++
    [R.UART_CFG 0, R.UART_RATE 0, R.UART_CFG 1, R.UART_RATE 1]

/-- The staged registers of the persistent set: Flywheel's. -/
def flyRegs : List Nat := group12Regs ++ group10Regs ++ group11Regs

def persistKey (i : Nat) : Nat := 0x100 + i

/-- Every persistent item: its key and its current value, for staged fields the one in force. -/
def Core.persistItems (c : Core) : List (Nat × List Byte) :=
  ((List.range settingCount).map fun i => (persistKey i, c.setting i)) ++
    (persistRegs.zipIdx.map fun r =>
      (persistKey (settingCount + r.2), leBytes 4 (if flyRegs.contains r.1 then c.force.reg r.1 else c.reg r.1).toNat))

/-- A batch of records, the last with END; the last is acknowledged. -/
def batchOf (ack : Option AckTo) : List (Nat × List Byte) → List SpoolReq
  | [] => []
  | [p] => [{ key := p.1, batch := true, fin := true, payload := p.2, urgent := true, ack := ack }]
  | p :: r => { key := p.1, batch := true, fin := false, payload := p.2, urgent := true, ack := none } :: batchOf ack r

/-- A batch handed to Spool: the code, and whether it is already complete (R411). -/
def Core.queueBatch (c : Core) (items : List (Nat × List Byte)) (ack : Option AckTo) : Core × Nat × Bool :=
  let l := batchOf ack items
  if c.batchBusy then (c, 1, true)
  else if c.flag F.NVM_STAT.RDONLY then (c, 3, true)
  else if l = [] then (c, 0, true)
  else if c.spoolFull l || decide (64 < l.length) then (c.raise F.NVM_IRQ.FULL, 2, true)
  else (l.foldl Core.queueRec c, 0, false)

/-- STORE: the items whose current value differs from the value in force in Spool. -/
def Core.store (c : Core) (ack : Option AckTo) : Core × Nat × Bool :=
  let live := c.spoolLive
  let stored := fun k => (live.find? fun r => r.key == k).map (·.payload)
  c.queueBatch (c.persistItems.filter fun p => stored p.1 != some p.2) ack

/-- FACTORY: a tombstone for every SET key in force. -/
def Core.factory (c : Core) (ack : Option AckTo) : Core × Nat × Bool :=
  c.queueBatch ((c.spoolLive.filter fun r => decide (0x100 ≤ r.key ∧ r.key < 0x200)).map fun r => (r.key, [])) ack

/-- A USER record (R402, R407): the code, and whether it is already complete; one that is dropped is answered FULL (log entry 200). -/
def Core.userRecord (c : Core) (key : Nat) (payload : List Byte) (ack : AckTo) : Core × Nat × Bool :=
  let r : SpoolReq := { key := key, batch := false, fin := false, payload := payload, urgent := false, ack := some ack }
  if c.flag F.NVM_STAT.RDONLY then (c, 3, true)
  else if c.spoolFull [r] then (c.raise F.NVM_IRQ.FULL, 2, true)
  else (c.queueRec r, if c.recDropped r then 2 else 0, c.recDropped r)

/-! ### Distaff's own records (R336, R389, R402) -/

/-- A FAULT record of 48 bytes from a report: source, pair, copy, epoch. -/
def faultRecord (r : List Nat) : List Byte :=
  leBytes 4 (r.getD 0 0) ++ leBytes 4 (r.getD 1 0) ++ leBytes 4 (r.getD 2 0) ++ leBytes 8 (r.getD 3 0) ++ List.replicate 28 0

/-- The full week of a broadcast week of `b` bits under the rollover anchor. -/
def resolveWeek (wr w b : Nat) : Nat := wr + (w % 2 ^ b + 2 ^ b - wr % 2 ^ b) % 2 ^ b

/-- The bits of a broadcast week by its system: 0 GPS LNAV, 1 GPS CNAV, 2 Galileo, 3 BeiDou. -/
def weekBits (sys : Nat) : Nat := ([10, 13, 12, 13] : List Nat).getD sys 10

/-- BeiDou's week 0 is GPS week 1,356 (log entry 198). -/
def bdtWeek0 : Nat := 1356

/-- The full week of a decoded one; a Galileo or BeiDou week already decoded resolves a GPS LNAV week (log entry 199). -/
def Core.fullWeek (c : Core) (sys w : Nat) : Nat :=
  match sys, c.dst.week with
  | 0, some g => resolveWeek (g - 512) w 10
  | _, _ => resolveWeek c.dst.wroll (if sys = 3 then w + bdtWeek0 else w) (weekBits sys)

/-- A resolved week 52 or more beyond W_R becomes the new W_R, in Spool too (R389). -/
def Core.weekSeen (c : Core) (sys w : Nat) : Core :=
  let full := c.fullWeek sys w
  let c1 := applyIf (decide (2 ≤ sys)) (·.onDst fun d => { d with week := some full }) c
  if c.dst.wroll + 52 ≤ full then
    (c1.onDst fun d => { d with wroll := full }).queueRec
      { key := keyWroll, batch := false, fin := false, payload := leBytes 4 full, urgent := true, ack := none }
  else c1

/-- Mirror's next report is filed as a FAULT record. -/
def Core.fileReport (c : Core) : Core :=
  match c.mir.reports[c.dst.filed]? with
  | some r =>
    (c.onDst fun d => { d with filed := d.filed + 1 }).queueRec
      { key := 0x300, batch := false, fin := false, payload := faultRecord r, urgent := true, ack := none }
  | none => c

/-! ### Load and shedding (R391 to R393) -/

/-- A frame starts with the load in 1/16 epoch and the use of the last 1,000 frames in percent. -/
def Core.frameStart (c : Core) (load util : Nat) : Core :=
  let lim := c.settingNat 18
  let level := c.fld F.SYS_DSTLOAD.LEVEL
  let low := if 2 * load ≤ 16 * lim then c.dst.low + 1 else 0
  let level1 := if 16 * lim < load ∧ level < 3 then level + 1 else if 100 ≤ low ∧ 0 < level then level - 1 else level
  let c1 := c.onDst fun d => { d with low := if level1 < level then 0 else low }
  ((c1.setFld F.SYS_DSTLOAD.BACKLOG (min 0xFFFF load)).setFld F.SYS_DSTLOAD.UTIL (min 0xFF util)).setFld F.SYS_DSTLOAD.LEVEL level1

/-! ### SRAM and patches (R394 to R396) -/

def patchArea : Nat := 0x10070000
def patchAreaLen : Nat := 63488

/-- The slots of a PATCH body. -/
def patchSlots (b : List Byte) : List (Nat × Nat) :=
  (List.range (leAt b 2 2)).map fun i => (leAt b (16 + 8 * i) 4, leAt b (20 + 8 * i) 4)

/-- A PATCH body keeps the layout of R395. -/
def patchOk (b : List Byte) : Bool :=
  let n := leAt b 2 2
  let len := leAt b 4 4
  let slots := patchSlots b
  decide (1 ≤ n ∧ n ≤ 32 ∧ len % 16 = 0 ∧ len ≤ patchAreaLen ∧ b.length = 16 + 8 * n + len) && zeroAt b 8 8 &&
    slots.all (fun s => decide (s.1 % 16 = 0 ∧ s.1 < 0x60000 ∧ s.2 % 16 = 0 ∧ s.2 < len)) && (slots.map (·.1)).Nodup

/-- The loader takes an image's patch and locks the area (R395). -/
def Core.loadPatch (c : Core) (img : Image) : Core :=
  let b := img.sec .patch
  let c1 := (c.setFld F.SYS_PATCH.ERR 0).setFld F.SYS_PATCH.LOST 0
  if ¬ img.has .patch then (c1.setFld F.SYS_PATCH.NSLOT 0).onDst fun d => { d with patches := [], locked := true }
  else if ¬ patchOk b then
    ((c1.setFld F.SYS_PATCH.ERR 1).setFld F.SYS_PATCH.NSLOT 0).onDst fun d => { d with patches := [], locked := true }
  else
    let c2 := (c1.setFld F.SYS_PATCH.NSLOT (leAt b 2 2)).onDst fun d => { d with patches := patchSlots b, locked := true }
    let mem := c2.mem.writes patchArea (b.drop (16 + 8 * leAt b 2 2))
    { c2 with mem := mem }

/-- A write into Distaff SRAM by Distaff: into the locked patch area it is discarded (R396). -/
def Core.sramWrite (c : Core) (a : Nat) (w : Word) : Core :=
  if c.dst.locked && inRange patchArea patchAreaLen a then c.raise F.SYS_PATCH.WRPROT else { c with mem := c.mem.putWord a w }

/-- An uncorrectable error in the patch area: the comparators go off until the next reset (R396). -/
def Core.patchLost (c : Core) : Core := ((c.setFld F.SYS_PATCH.LOST 1).setFld F.SYS_PATCH.NSLOT 0).onDst fun d => { d with patches := [] }

end Sys2Proof.Machine
end

