-- ==== Sys2Proof/Machine/Serial.lean ====
section
/-! DEFINITION. The UARTs and the QSPI slave (chapter 17). -/
namespace Sys2Proof.Machine

/-! ### UART state -/

def uartZero : UartSt :=
  { rx := [], tx := [], shift := none, rxPend := false, txPend := false, rxCfg := 1, wake := [], glitches := 0 }

def Core.uart (c : Core) (n : Nat) : UartSt := vecAt uartZero c.uarts n
def Core.onUart (c : Core) (n : Nat) (f : UartSt → UartSt) : Core := { c with uarts := putAt c.uarts n (f (c.uart n)) }

/-- UARTn_STAT's counts, and RATEPEND. -/
def Core.showUart (c : Core) (n : Nat) : Core :=
  let u := c.uart n
  let c1 := (c.setFld (F.UART_STAT.TXCNT n) u.tx.length).setFld (F.UART_STAT.RXCNT n) u.rx.length
  (c1.setFld (F.UART_STAT.RATEPEND n) (ofBool (u.rxPend || u.txPend))).setFld (F.UART_STAT.TXBUSY n) (ofBool u.shift.isSome)

/-- The rate in force is not served on the clock in use (R416, R417). -/
def Core.rateHeld (c : Core) (n : Nat) : Bool :=
  c.flag (F.UART_STAT.CLKSRC n) && decide (230400 < c.fld (F.UART_RATE.RATE n))

def Core.showClkWait (c : Core) (n : Nat) : Core := c.setFld (F.UART_STAT.CLKWAIT n) (ofBool (c.rateHeld n))

/-- PLL-B lock moves Distaff and the UARTs to the Distaff clock (R20). -/
def Core.pllLock (c : Core) : Core :=
  forBelow 2 (fun c n => (c.setFld (F.UART_STAT.CLKSRC n) 0).showClkWait n) c

/-! ### Register writes (R418, R424) -/

def Core.uartBadw (c : Core) (n : Nat) : Core := c.raise (F.UART_STAT.BADW n)

def rateTop (n : Nat) : Nat := if n = 0 then 6000000 else 921600

/-- UARTn_RATE. -/
def Core.uartRate (c : Core) (n : Nat) (w : Word) : Core :=
  let r := bits w 22 0
  if r < 1200 ∨ rateTop n < r then c.uartBadw n
  else
    (((c.setFld (F.UART_RATE.RATE n) r).onUart n fun u => { u with rxPend := true, txPend := true }).showUart n).showClkWait n

/-- UARTn_CFG. -/
def Core.uartCfg (c : Core) (n : Nat) (w : Word) : Core :=
  if bits w 3 2 = 3 then c.uartBadw n
  else ((c.setReg (R.UART_CFG n) (BitVec.ofNat 32 (bits w 5 0))).onUart n fun u => { u with rxPend := true, txPend := true }).showUart n

/-- The receive FIFO holds as many entries as its threshold. -/
def Core.rxThr (c : Core) (n : Nat) : Nat := max 1 (c.fld (F.UART_FIFOCTL.RXTHR n))

/-- TXTHR is raised when the transmit count falls to its value. -/
def Core.txFell (c : Core) (n before : Nat) : Core :=
  let thr := c.fld (F.UART_FIFOCTL.TXTHR n)
  if (c.uart n).tx.length ≤ thr ∧ thr < before then c.raise (F.UART_IRQ.TXTHR n) else c

/-- A character written to UARTn_DATA (R424). -/
def Core.uartPut (c : Core) (n : Nat) (b : Byte) : Core :=
  if 64 ≤ (c.uart n).tx.length then (c.raise (F.UART_STAT.TXOVF n)).raise (F.UART_IRQ.TXOVF n)
  else (c.onUart n fun u => { u with tx := u.tx ++ [b] }).showUart n

def Core.txFlush (c : Core) (n : Nat) : Core :=
  let before := (c.uart n).tx.length
  ((c.onUart n fun u => { u with tx := [] }).txFell n before).showUart n

def Core.rxFlush (c : Core) (n : Nat) : Core := (c.onUart n fun u => { u with rx := [] }).showUart n

/-- UARTn_FIFOCTL. -/
def Core.uartFifoCtl (c : Core) (n : Nat) (w : Word) : Core :=
  let c1 := (c.setFld (F.UART_FIFOCTL.TXTHR n) (bits w 14 8)).setFld (F.UART_FIFOCTL.RXTHR n) (bits w 6 0)
  let c2 := if bits w 17 17 = 1 then c1.txFlush n else c1
  if bits w 16 16 = 1 then c2.rxFlush n else c2

/-! ### Links' queues (R447) -/

def linkZero : LinkSt :=
  { opened := false, major := 0, minor := 0, hostId := 0, seq := 0, memory := [], waiting := [], crcErr := 0, lost := 0, rx := [],
    skip := false, outq := [], cat := none, restored := false, nonce := none, notices := [] }

def Core.link (c : Core) (l : Nat) : LinkSt := vecAt linkZero c.links l
def Core.onLink (c : Core) (l : Nat) (f : LinkSt → LinkSt) : Core := { c with links := putAt c.links l (f (c.link l)) }

/-- Distaff keeps a UART's transmit FIFO filled from its queue. -/
def Core.refill (c : Core) (n : Nat) : Core :=
  let l := 2 * n
  let room := 64 - (c.uart n).tx.length
  let q := (c.link l).outq
  ((c.onUart n fun u => { u with tx := u.tx ++ q.take room }).onLink l fun l => { l with outq := q.drop room }).showUart n

/-! ### The receiver (R419 to R423) -/

/-- An entry of the receive FIFO from a sampled character: bits [7:0] the character, 8 PE, 9 FE, 10 BRK. -/
def rxEntry (cfg : Nat) (s : LineSample) : Nat :=
  let seven := bitOf cfg 1
  let par := cfg / 4 % 4
  let ch := if seven then s.data.toNat % 128 else s.data.toNat
  let ones := popCount 8 ch + ofBool s.parity
  let pe := decide (par = 1 ∧ ones % 2 = 1) || decide (par = 2 ∧ ones % 2 = 0)
  let brk := !s.stop && decide (ch = 0) && (decide (par = 0) || !s.parity)
  ch + ofBool pe * 2 ^ 8 + ofBool (!s.stop) * 2 ^ 9 + ofBool brk * 2 ^ 10

/-- An entry stored; at a full FIFO it overwrites the newest one (R422). -/
def Core.rxStore (c : Core) (n e : Nat) : Core :=
  let u := c.uart n
  let full := decide (64 ≤ u.rx.length)
  let c1 := c.onUart n fun u => { u with rx := if full then u.rx.dropLast ++ [e] else u.rx ++ [e] }
  let c2 := if full then (c1.raise (F.UART_STAT.OVR n)).raise (F.UART_IRQ.OVR n) else c1
  let c3 := if (c2.uart n).rx.length = c2.rxThr n ∧ full = false then c2.raise (F.UART_IRQ.RXTHR n) else c2
  let flag := fun (b : Bool) (f g : Fld) (c : Core) => if b then (c.raise f).raise g else c
  let c4 := flag (bitOf e 8) (F.UART_STAT.PE n) (F.UART_IRQ.PE n) c3
  let c5 := flag (bitOf e 9) (F.UART_STAT.FE n) (F.UART_IRQ.FE n) c4
  (flag (bitOf e 10) (F.UART_STAT.BRK n) (F.UART_IRQ.BRK n) c5).showUart n

/-- A start edge is detected: the receiver loads a new rate and framing (R417, R418). -/
def Core.rxStart (c : Core) (n : Nat) : Core :=
  ((c.setFld (F.UART_RATEACT.RATE n) (c.fld (F.UART_RATE.RATE n))).onUart n fun u =>
    { u with rxPend := false, rxCfg := (c.reg (R.UART_CFG n)).toNat }).showUart n

/-- The receiver looks for start edges on its ball. In loopback it ignores it (R425). -/
def Core.rxLooks (c : Core) (n : Nat) : Bool := c.flag (F.UART_CFG.EN n) && !c.flag (F.UART_CFG.LOOP n) && !c.rateHeld n

/-- A character on the line. -/
def Core.uartReceive (c : Core) (n : Nat) (s : LineSample) : Core :=
  if ¬ c.rxLooks n then c
  else
    let c1 := c.rxStart n
    if s.start then (c1.countSat (F.UART_GLITCH.COUNT n) 1).raise (F.UART_IRQ.GLITCH n)
    else c1.rxStore n (rxEntry (c1.uart n).rxCfg s)

/-- A read of UARTn_DATA (R422). -/
def Core.uartGet (c : Core) (n : Nat) : Core × Word :=
  match (c.uart n).rx with
  | [] => (c, 0)
  | e :: r => ((c.onUart n fun u => { u with rx := r }).showUart n, BitVec.ofNat 32 (2 ^ 31 + e))

/-- No new start bit for UARTn_TOUT character times while characters wait (R423). -/
def Core.rxTimeout (c : Core) (n : Nat) : Core :=
  if c.fld (F.UART_TOUT.CHARS n) ≠ 0 ∧ (c.uart n).rx ≠ [] then c.raise (F.UART_IRQ.TOUT n) else c

/-! ### The transmitter (R417, R424, R425) -/

/-- The frame in the shifter ends and the next character starts, loading the rate in force. In loopback it is received. -/
def Core.uartSend (c : Core) (n : Nat) : Core :=
  if ¬ c.flag (F.UART_CFG.EN n) ∨ c.rateHeld n = true then c
  else
    let u := c.uart n
    let back := fun (c : Core) =>
      match u.shift with
      | some b => if c.flag (F.UART_CFG.LOOP n) then
          let cfg := (c.reg (R.UART_CFG n)).toNat
          let ch := if bitOf cfg 1 then b.toNat % 128 else b.toNat
          let par := decide ((popCount 8 ch + cfg / 8 % 2) % 2 = 1)
          (c.rxStart n).rxStore n (rxEntry cfg { start := false, data := b, parity := par, stop := true })
        else c
      | none => c
    let c0 := back c
    match u.tx with
    | [] =>
      if u.shift.isSome then ((c0.onUart n fun u => { u with shift := none }).raise (F.UART_IRQ.TXDONE n)).showUart n else c0
    | b :: r =>
      let c1 := c0.onUart n fun u => { u with shift := some b, tx := r, txPend := false }
      let c2 := (c1.setFld (F.UART_RATEACT.RATE n) (c1.fld (F.UART_RATE.RATE n))).txFell n u.tx.length
      c2.refill n

/-! ### The wake receiver (R426) -/

/-- The UART's wake source is enabled. -/
def Core.wakeRx (c : Core) (n : Nat) : Bool := bitOf (c.fld F.PWR_WAKEEN.SRC) n

/-- A character received while the core UART is off, into a buffer of 32 (R422 applies to it); a glitch waits to be counted. -/
def Core.wakeReceive (c : Core) (n : Nat) (s : LineSample) : Core :=
  if ¬ (c.wakeRx n = true ∧ c.flag (F.UART_CFG.EN n) = true ∧ c.fld (F.UART_RATE.RATE n) ≤ 230400) then c
  else if s.start then c.onUart n fun u => { u with glitches := u.glitches + 1 }
  else
    let e := rxEntry (c.reg (R.UART_CFG n)).toNat s + 2 ^ 11
    if 32 ≤ (c.uart n).wake.length then
      ((c.onUart n fun u => { u with wake := u.wake.dropLast ++ [e] }).raise (F.UART_STAT.OVR n)).raise (F.UART_IRQ.OVR n)
    else c.onUart n fun u => { u with wake := u.wake ++ [e] }

/-- The core UART restored, on the fast oscillator: glitches are counted, and the wake buffer moves into the receive FIFO. -/
def Core.wakeMove (c : Core) (n : Nat) : Core :=
  let u := c.uart n
  let c1 := (c.showClkWait n).onUart n fun u => { u with wake := [], glitches := 0 }
  let c2 := if u.glitches = 0 then c1 else (c1.countSat (F.UART_GLITCH.COUNT n) u.glitches).raise (F.UART_IRQ.GLITCH n)
  if u.wake = [] then c2 else u.wake.foldl (fun (c : Core) e => c.rxStore n e) (c2.raise (F.UART_IRQ.WAKECH n))

/-! ### The QSPI slave (R428 to R435) -/

def Core.onQsp (c : Core) (f : QspSt → QspSt) : Core := { c with qsp := f c.qsp }

def outTop : Nat := 32768
def inTop : Nat := 8192

def Core.outAvail (c : Core) : Nat := c.qsp.out.length
def Core.inFree (c : Core) : Nat := inTop - (c.link 1).rx.length

/-- QSP_STAT. -/
def Core.qspStat (c : Core) : Word := BitVec.ofNat 32 (c.outAvail * 2 ^ 16 + c.inFree)

/-- QSP_FLAGS with QPI, WBUSY as they stand. -/
def Core.qspReady (c : Core) : Bool := c.flag F.QSP_FLAGS.READY

/-- The level of QSPI_INT_N asserted (R435). -/
def Core.qspInt (c : Core) : Bool :=
  c.qspReady &&
    ((c.flag F.QSP_INTEN.OUT && (decide (max 1 (c.fld F.QSP_OUTTHR.THR) ≤ c.outAvail) || c.qsp.waited)) ||
     (c.flag F.QSP_INTEN.WIN && c.flag F.QSP_FLAGS.WDONE) || (c.flag F.QSP_INTEN.IMG && c.flag F.QSP_FLAGS.IMGDONE) ||
     (c.flag F.QSP_INTEN.ERR && (c.flag F.QSP_FLAGS.OUTLOSS || c.flag F.QSP_FLAGS.INOVF)))

/-- The bytes a read function drives: 0xFF in every byte while the interface is not ready, nothing while it is disabled. -/
def Core.drive (c : Core) (n : Nat) (bs : List Byte) : Core :=
  c.onQsp fun q => { q with resp :=
    if c.qspReady then (bs ++ List.replicate n 0).take n else List.replicate n 0xFF }

/-- A command ignored and counted (R430). -/
def Core.badCmd (c : Core) : Core := (c.countSat F.QSP_CNT.BADCMD 1).raise F.QSP_IRQ.BADCMD

/-- The lane bits of a command byte are those that the mode allows (R429). -/
def Core.lanesOk (c : Core) (lanes : Nat) : Bool := !(lanes == 3 || (c.flag F.QSP_FLAGS.QPI && lanes != 2))

/-- A function of the slave: taken when the interface is enabled, with lane bits that the mode allows (R429, R430). -/
def Core.qspCmd (c : Core) (lanes : Nat) (f : Core → Core) : Core :=
  if ¬ c.flag F.QSP_CFG.EN then c else if ¬ c.lanesOk lanes then c.badCmd else f c

/-- The status response (R431). -/
def Core.statusBytes (c : Core) : List Byte :=
  let fl := c.reg R.QSP_FLAGS
  let b1 := bits fl 7 7 + bits fl 1 1 * 2 + bits fl 2 2 * 4 + bits fl 3 3 * 8 + bits fl 4 4 * 16 + bits fl 5 5 * 32 + bits fl 6 6 * 64
  leBytes 1 0x5A ++ leBytes 1 b1 ++ leBytes 2 c.outAvail ++ leBytes 2 c.inFree ++ leBytes 1 (bits fl 15 8) ++ leBytes 1 (bits fl 23 16)

/-- QPI mode entered or left by a ready interface. -/
def Core.qpiMode (c : Core) (b : Nat) : Core := if c.qspReady then c.setFld F.QSP_FLAGS.QPI b else c

/-- The sticky flags cleared. -/
def Core.clearSticky (c : Core) : Core :=
  (((c.setFld F.QSP_FLAGS.OUTLOSS 0).setFld F.QSP_FLAGS.INOVF 0).setFld F.QSP_FLAGS.WDONE 0).setFld F.QSP_FLAGS.WERR 0

/-- IFRST: SPI mode, and no sticky flag set. -/
def Core.ifrst (c : Core) : Core := if c.qspReady then c.clearSticky.qpiMode 0 else c

def Core.rdsr (c : Core) : Core :=
  let c1 := c.drive 8 c.statusBytes
  if c.qspReady then c1.clearSticky else c1

/-- RDSTM with `n` bytes clocked after the count (R432). -/
def Core.rdstm (c : Core) (n : Nat) : Core :=
  let avail := min 65535 c.outAvail
  let c1 := c.drive (2 + n) (leBytes 2 avail ++ c.qsp.out.take (min n avail))
  if c.qspReady then c1.onQsp fun q => { q with out := q.out.drop (min n avail), waited := false } else c1

/-- The length of the frame that a byte list begins with, where it holds one whole (R437). -/
def frameLen (l : List Byte) : Option Nat :=
  let n := 12 + leAt l 4 2
  if leAt l 0 2 = 0x3AC5 ∧ leAt l 4 2 ≤ 4096 ∧ n ≤ l.length then some n else none

/-- The whole frames at the head of a byte list, without what follows them. -/
def wholeFrames : Nat → List Byte → List Byte
  | 0, _ => []
  | k + 1, l =>
    match frameLen l with
    | some n => l.take n ++ wholeFrames k (l.drop n)
    | none => []

/-- WRSTM (R432): bytes up to INFREE; a truncation discards the frame in progress and skips to the next transaction (R439). -/
def Core.wrstm (c : Core) (bs : List Byte) : Core :=
  if ¬ c.qspReady then c
  else
    let free := c.inFree
    let c1 := c.onLink 1 fun l => { l with rx := l.rx ++ bs.take free, skip := false }
    let c2 := if bs.take free = [] then c1 else c1.raise F.QSP_IRQ.INDATA
    if free < bs.length then
      let whole := wholeFrames 1024 (c2.link 1).rx
      ((c2.raise F.QSP_FLAGS.INOVF).raise F.QSP_IRQ.INOVF).onLink 1 fun l =>
        { l with rx := whole, crcErr := l.crcErr + ofBool (decide (whole.length < l.rx.length)), skip := true }
    else c2

/-- A frame or message published to the QSPI output stream whole; one that does not fit is dropped (R432). -/
def Core.publish (c : Core) (bs : List Byte) : Core × Bool :=
  if outTop < c.outAvail + bs.length then ((c.raise F.QSP_FLAGS.OUTLOSS).raise F.QSP_IRQ.OUTLOSS, false)
  else (c.onQsp fun q => { q with out := q.out ++ bs }, true)

def Core.rdwin (c : Core) (ofs n : Nat) : Core :=
  c.drive n ((List.range n).map fun i => if ofs + i < 4096 then c.qsp.win.read (ofs + i) else 0)

/-- A window request refused or ended with a code. -/
def Core.wcode (c : Core) (code : Nat) : Core :=
  let c1 := c.setFld F.QSP_FLAGS.WCODE code
  if code = 0 then c1 else c1.raise F.QSP_FLAGS.WERR

def Core.wrwin (c : Core) (ofs : Nat) (bs : List Byte) : Core :=
  if ¬ c.qspReady then c
  else if c.flag F.QSP_FLAGS.WBUSY then c.wcode 2
  else c.onQsp fun q => { q with win := q.win.writes ofs (bs.take (4096 - ofs)) }

def Core.rdid (c : Core) : Core := c.drive 4 [0xB0, 0x00, 0x72, 0x94]

/-- A window operation's end comes: WDONE with its code (R433). -/
def Core.windowDone (c : Core) : Core :=
  match c.qsp.op with
  | none => c
  | some code =>
    let c1 := (c.onQsp fun q => { q with op := none }).setFld F.QSP_FLAGS.WBUSY 0
    ((c1.wcode code).raise F.QSP_FLAGS.WDONE).raise F.QSP_IRQ.WOP

/-- A window operation begun, its accesses made, to end with a code. -/
def Core.windowBusy (c : Core) (code : Nat) : Core :=
  (c.onQsp fun q => { q with op := some code }).setFld F.QSP_FLAGS.WBUSY 1

/-- A window request that does nothing ends at once with its code. -/
def Core.windowRefuse (c : Core) (code : Nat) : Core := ((c.wcode code).raise F.QSP_FLAGS.WDONE).raise F.QSP_IRQ.WOP

/-- The output stream's first byte has waited 1 ms (R435). -/
def Core.byteWait (c : Core) : Core := if c.qsp.out = [] then c else c.onQsp fun q => { q with waited := true }

end Sys2Proof.Machine
end

