-- ==== Sys2Proof/Machine/Service.lean ====
section
/-! DEFINITION. Service mode, meter mode, MON, the test signal generator and the console's line input (R458 to R467). -/
namespace Sys2Proof.Machine

def Core.onSvc (c : Core) (f : SvcSt → SvcSt) : Core := { c with svc := f c.svc }

/-! ### Balls (R344, R462, R463, R495) -/

/-- The bit of PWR_SUPSTAT.OK that feeds a signal ball; none for a number that names no ball. -/
def pinBank (n : Nat) : Option Nat :=
  if n ≤ 41 then some 3
  else if 64 ≤ n ∧ n ≤ 79 then some 5
  else if 80 ≤ n ∧ n ≤ 88 then some 4
  else if n = 96 ∨ n = 97 ∨ (99 ≤ n ∧ n ≤ 109) then some 0
  else none

/-- A ball whose bank has its supply. -/
def Core.pinPowered (c : Core) (n : Nat) : Bool :=
  match pinBank n with
  | some b => bitOf (c.fld F.PWR_SUPSTAT.OK) b
  | none => false

/-- An override of the ball is not permitted in a mode (R463): UART1, RST_N, the straps, the LVDS inputs; SCLK_OUT and EPOCH_SYNC
take a static level only. -/
def pinDenied (n mode : Nat) : Bool :=
  (pinBank n).isNone || decide (n < 40 ∨ n = 96 ∨ n = 97 ∨ n = 99 ∨ 102 ≤ n) || (decide (n = 40 ∨ n = 41) && decide (mode = 3))

/-- The override of a ball: 1 low, 2 high, 3 high impedance. -/
def Core.overMode (c : Core) (n : Nat) : Option Nat := (c.pinOver.find? fun o => o.1 == n).map (·.2)

def Core.showOver (c : Core) : Core := c.setFld F.SVC_STAT.OVRCNT c.pinOver.length

/-- A ball's override released. -/
def Core.relPin (c : Core) (n : Nat) : Core := ({ c with pinOver := c.pinOver.filter fun o => o.1 != n } : Core).showOver

/-- Every override released in one Ts. -/
def Core.relAll (c : Core) : Core := ({ c with pinOver := [] } : Core).showOver

/-- A bank lost its supply: overrides of its balls are dropped. -/
def Core.dropBank (c : Core) (bank : Nat) : Core :=
  ({ c with pinOver := c.pinOver.filter fun o => pinBank o.1 != some bank } : Core).showOver

/-- An override set: 0, or the console's code (R459). SVC_STAT shows a refusal. -/
def Core.setOverride (c : Core) (n mode : Nat) : Core × Nat :=
  if mode = 0 then (if (pinBank n).isNone then (c.raise F.SVC_STAT.DENIED, 7) else (c.relPin n, 0))
  else if pinDenied n mode then (c.raise F.SVC_STAT.DENIED, 7)
  else if ¬ c.pinPowered n then (c.raise F.SVC_STAT.NOBANK, 5)
  else if (c.overMode n).isNone ∧ 8 ≤ c.pinOver.length then (c.raise F.SVC_STAT.DENIED, 4)
  else (({ c with pinOver := (c.pinOver.filter fun o => o.1 != n) ++ [(n, mode)] } : Core).showOver, 0)

/-- The level that the ball's owner drives; none for an input, a clock or a serial line in motion. -/
def Core.ownerLevel (c : Core) (n : Nat) : Option Bool :=
  if 64 ≤ n ∧ n ≤ 67 then some (c.tpLevel (n - 64))
  else if 68 ≤ n ∧ n ≤ 75 then (if c.flag (F.REEL_CFG.OE (n - 68)) then some (c.rc (n - 68)).out else none)
  else if 76 ≤ n ∧ n ≤ 79 then some (c.bob.fePwr.getD (n - 76) false)
  else if n = 88 then some (!c.qspInt)
  else if n = 101 then some c.pwr.coreEn
  else if n = 102 ∨ n = 103 then some (bitOf (c.fld F.SET_STRAP.BOOT_SRC) (n - 102))
  else if 104 ≤ n ∧ n ≤ 106 then some (bitOf (c.fld F.SET_STRAP.REFSEL) (n - 104))
  else if n = 107 then some (c.flag F.SET_STRAP.OSCCLS)
  else if n = 108 ∨ n = 109 then some (bitOf (c.fld F.SET_STRAP.SET_ID) (n - 108))
  else none

/-- The level at the ball's input receiver (R462). -/
def Core.pinLevel (c : Core) (n : Nat) : Bool :=
  if ¬ c.pinPowered n then false
  else
    match c.overMode n with
    | some 1 => false
    | some 2 => true
    | some _ => c.svc.pins.contains n
    | none => (c.ownerLevel n).getD (c.svc.pins.contains n)

/-- The level that the board gives a ball from now on. -/
def Core.boardPin (c : Core) (n : Nat) (level : Bool) : Core :=
  c.onSvc fun s => { s with pins := if level then insertNat n s.pins else s.pins.filter (· != n) }

/-- A write of SVC_PINCTL (R464). -/
def Core.pinctl (c : Core) (w : Word) : Core :=
  if ¬ c.serviceMode then c.raise F.SVC_STAT.NOSVC
  else ((c.setReg R.SVC_PINCTL (BitVec.ofNat 32 (bits w 1 0))).setOverride (c.fld F.SVC_PINSEL.PIN) (bits w 1 0)).1

/-! ### MON (R461) -/

/-- The MON source selected, with its level in mV after the scale; the device shows a level beyond its limits. -/
def Core.monSelect (c : Core) (src : Nat) (mv : Int) : Core :=
  let clip := decide (src ≠ 0 ∧ src < 0x0C ∧ (mv < 0 ∨ 1200 < mv))
  (c.setFld F.SVC_MONSEL.SRC src).setFld F.SVC_STAT.MONCLIP (ofBool clip)

/-- A write of SVC_MONSEL: the analogue level is a free value (log entry 5). -/
def Core.monWrite (c : Core) (w : Word) : Core :=
  ({ c with free := c.free + 1 } : Core).monSelect (bits w 4 0) (signedOf 16 (Config.freeValue c.free).toNat)

/-! ### The test signal generator (R466, R467) -/

/-- A staged signal entry is enabled. -/
def Core.tsgEn (c : Core) (i : Nat) : Bool := c.flag (F.TSG_SIG_W0.EN i)

/-- A staged entry breaks a rule of R467: 1 RSV, 3 CODE, 4 STREAM, 5 RANGE. -/
def Core.tsgEntryBad (c : Core) (code i : Nat) : Bool :=
  let fam := c.fld (F.TSG_SIG_W0.FAM i)
  let idx := c.fld (F.TSG_SIG_W0.IDX i)
  let sid := c.fld (F.TSG_SIG_W0.SID i)
  let cn0 := c.fld (F.TSG_SIG_W1.CN0 i)
  let scn := c.fld (F.TSG_SIG_W1.SCN i)
  match code with
  | 1 => bits (c.reg (R.TSG_SIG_W1 i)) 6 0 != 0 || (c.reg (R.TSG_SIG_W7 i)).toNat != 0
  | 3 => c.tsgEn i && (!codeIdxOk fam idx || (c.codeLen fam idx).isNone ||
           (c.flag (F.TSG_SIG_W0.SEN i) && (!secIdOk sid || (c.codeLen 0 sid).isNone)))
  | 4 => c.tsgEn i && !bitOf (c.fld F.TSG_SUB.MASK) (c.fld (F.TSG_SIG_W0.STREAM i))
  | 5 => c.tsgEn i && (decide (cn0 < 2000 ∨ 6000 < cn0 ∨ scn % 2 = 1 ∨ 12 < scn) ||
           decide (50000 * 16 < (signedOf 32 (c.reg (R.TSG_SIG_W2 i)).toNat).natAbs))
  | _ => false

/-- The refusal of a group 13 commit: its code and the lowest entry at fault; code 0 when it applies. -/
def Core.tsgRefusal (c : Core) : Nat × Nat :=
  let first := fun code => (List.range 16).find? (c.tsgEntryBad code)
  let mask := c.fld F.TSG_SUB.MASK
  if bits (c.reg R.TSG_SUB) 31 8 ≠ 0 then (1, 0)
  else
    match first 1 with
    | some i => (1, i)
    | none =>
      if mask ≠ 0 ∧ ¬ c.serviceMode then (2, 0)
      else
        match first 3 with
        | some i => (3, i)
        | none =>
          match first 4 with
          | some i => (4, i)
          | none =>
            if (belowSuch 8 (bitOf mask)).any (fun n => !c.streamEn n) then (4, 0)
            else match first 5 with
              | some i => (5, i)
              | none => (0, 0)

/-- Group 13 applies at the boundary of an epoch (R466, R467). -/
def Core.applyGroup13 (c : Core) (epoch : Nat) : Core :=
  let r := c.tsgRefusal
  if r.1 ≠ 0 then (c.setFld F.TSG_ERR.CODE r.1).setFld F.TSG_ERR.ENTRY r.2
  else
    let c1 := (c.putInForce group13Regs).onSvc fun s => { s with tsgFrom := tsPerEpoch * epoch }
    (c1.setFld F.TSG_STAT.ACTIVE (c1.inForce F.TSG_SUB.MASK)).refreshStreams

/-! ### Service mode (R460) -/

/-- 10 s and 30 min in fc. -/
def confirmFc : Nat := 10000 * fcPerEpoch
def serviceFc : Nat := 1800000 * fcPerEpoch

def Core.serviceOn (c : Core) (t : Clock) : Core := c.onSvc fun s => { s with armed := some t.abs }

/-- "service confirm" within 10 s of "service on". -/
def Core.serviceConfirm (c : Core) (t : Clock) : Core × Bool :=
  match c.svc.armed with
  | some a =>
    let c1 := c.onSvc fun s => { s with armed := none }
    if t.abs ≤ a + confirmFc then ((c1.setFld F.SVC_STAT.SVCMODE 1).dozeEvent t, true) else (c1, false)
  | none => (c, false)

/-- Group 13 in force. -/
def Core.tsgForce (c : Core) : List (Nat × Word) := group13Regs.map fun a => (a, c.force.reg a)

/-- Group 13 committed by the device itself with the contents given: they apply at the next boundary even where the group is sealed. -/
def Core.commitTsg (c : Core) (t : Clock) (l : List (Nat × Word)) : Core :=
  let c1 := (l.foldl (fun (c : Core) x => c.setReg x.1 x.2) c).touch 13
  if c1.pend 13 then c1
  else ((c1.setBit F.PLAN_CMTSTAT.PEND 13 true).setBit F.PLAN_CMTSTAT.SEAL 13 true).onPlan fun p =>
    { p with commitAt := p.commitAt ++ [(13, t.nextBoundary64)] }

/-- Service mode ends: overrides released, group 13 committed with an empty mask and, so that R467 accepts it, no entry enabled (log
entry 201). -/
def Core.serviceEnd (c : Core) (t : Clock) : Core :=
  if ¬ c.serviceMode then c
  else
    let off := fun (c : Core) i => c.setFld (F.TSG_SIG_W0.EN i) 0
    let c1 := forBelow 16 off ((c.relAll.setFld F.SVC_STAT.SVCMODE 0).commitTsg t c.tsgForce)
    c1.setFld F.TSG_SUB.MASK 0

/-- 30 minutes without console input. -/
def Core.serviceTimeout (c : Core) (t : Clock) : Core := if c.svc.lastInput + serviceFc ≤ t.abs then c.serviceEnd t else c

/-! ### The console (R458, R459) -/

/-- Whether the console serves: from step 3 of the start-up (R474), and with the core powered. -/
def Core.conLive (c : Core) : Bool := c.coreOn && decide (3 ≤ c.fld F.SYS_BOOT.STAGE)

/-- A reply's last line. -/
def Core.conSay (c : Core) (cmd err : Nat) (vals : List Nat) : Core :=
  c.onSvc fun s => { s with out := s.out ++ [{ cmd := cmd, err := err, vals := vals }] }

/-- Console input: the service timer and the idle timer restart (R356, R460). -/
def Core.conInput (c : Core) (t : Clock) : Core := (c.onSvc fun s => { s with lastInput := t.abs }).activity t

/-- A line longer than 80 characters, discarded whole. -/
def Core.longLine (c : Core) (t : Clock) : Core :=
  if c.conLive then ((c.conInput t).onSvc fun s => { s with line := [], tooLong := false }).conSay 0 1 [] else c

/-- A character reaches the console: echoed; a line end is counted once; a backspace takes the last character; a line over 80
characters is answered with ERR 1 at its end. A complete line's command is one of the console's own operations. -/
def Core.conChar (c : Core) (t : Clock) (b : Byte) : Core :=
  if ¬ c.conLive then c
  else
    let ch := b.toNat
    let c1 := (c.uartPut 1 b).conInput t
    let line := c1.svc.line
    if ch = 0x0D ∨ (ch = 0x0A ∧ ¬ c1.svc.afterCr) then
      let c2 := if c1.svc.tooLong then c1.conSay 0 1 [] else c1
      c2.onSvc fun s => { s with line := [], tooLong := false, afterCr := decide (ch = 0x0D) }
    else if ch = 0x0A then c1.onSvc fun s => { s with afterCr := false }
    else if ch = 0x08 ∨ ch = 0x7F then c1.onSvc fun s => { s with line := line.dropLast, afterCr := false }
    else if 80 ≤ line.length then c1.onSvc fun s => { s with tooLong := true, afterCr := false }
    else c1.onSvc fun s => { s with line := line ++ [b], afterCr := false }

end Sys2Proof.Machine
end

