-- ==== Sys2Proof/Machine/Bus.lean ====
section
/-! DEFINITION. The 32-bit bus (R7, R9, R313, R338 to R341, R498 to R503): reads and writes of registers and windows with their side
effects. -/
namespace Sys2Proof.Machine

/-! ### Accesses that are refused (R313, R338, R499) -/

/-- The block code of an address (SYS_ACCERR.BLOCK). -/
def accBlock (a : Nat) : Nat :=
  if inRange 0x40000000 0x10000 a then (a - 0x40000000) / 4096
  else if inRange 0x40010000 0x5000 a then 0x10 + (a - 0x40010000) / 4096
  else if inRange 0x30000000 0x90000 a then 0x20
  else if inRange 0x31400000 0x480000 a then 0x25
  else if inRange 0x31000000 0x100000 a then 0x21
  else if inRange 0x32000000 0x200000 a then 0x22
  else if inRange 0x34000000 0x224000 a then 0x23
  else 0x24

/-- An access recorded in SYS_ACCERR; its details are those of the first since VALID was cleared. -/
def Core.accErr (c : Core) (a isl cause : Nat) (wr : Bool) : Core :=
  let c1 := c.countSat F.SYS_ACCERR.COUNT 1
  if c.flag F.SYS_ACCERR.VALID then c1
  else
    let c2 := ((c1.setFld F.SYS_ACCERR.VALID 1).setFld F.SYS_ACCERR.ISL isl).setFld F.SYS_ACCERR.CAUSE cause
    ((c2.setFld F.SYS_ACCERR.WR (ofBool wr)).setFld F.SYS_ACCERR.BLOCK (accBlock a)).setReg R.SYS_ACCADDR (BitVec.ofNat 32 a)

/-- An access to an address in no range. -/
def Core.unmapped (c : Core) (a : Nat) (wr : Bool) : Core :=
  let c1 := c.countSat F.SYS_UNMAP.COUNT 1
  if c.flag F.SYS_UNMAP.VALID then c1
  else ((c1.setFld F.SYS_UNMAP.VALID 1).setFld F.SYS_UNMAP.WR (ofBool wr)).setReg R.SYS_UNMAPADDR (BitVec.ofNat 32 a)

/-- The island of a window address that is off or retained (R338, R339). -/
def Core.deadIsland (c : Core) (a : Nat) : Option Nat :=
  if inRange 0x34000000 0x200000 a then (if c.prismOn && !c.offPhase && c.coreOn && decide (c.pwrState ≠ pwSnap) then none else some 8)
  else
    match islandOfAddr a with
    | some k => if k < 8 ∧ ¬ c.islandOn k then some k else none
    | none => none

/-- The address lies in a range of R498. -/
def mapped (a : Nat) : Bool :=
  [(0, 0x60000), (0x10000000, 0x80000), (0x20000000, 0x400000), (0x30000000, 0x80000), (0x30080000, 0x2000), (0x31000000, 0x20000),
   (0x31020000, 0x1800), (0x31028000, 0x6080), (0x3102F000, 0x800), (0x31030000, 0x1200), (0x31040000, 0x10000),
   (0x31080000, 0x10000), (0x31090000, 0x4000), (0x310A0000, 0x400), (0x310C0000, 0x4000), (0x310D0000, 0x28000),
   (0x31400000, 0x480000), (0x32000000, 0x120800), (0x34000000, 0x224000), (0x38000000, 0x600000),
   (0x40000000, 0x15000)].any fun r => inRange r.1 r.2 a

/-- The address shows state that a pair holds (R313). -/
def pairAddr (a : Nat) : Bool :=
  inRange 0x30020000 0x60000 a || inRange 0x30080000 0x2000 a || inRange 0x31040000 0x10000 a || inRange 0x31090000 0x4000 a ||
    inRange 0x310A0000 0x400 a || inRange 0x310C0000 0x4000 a || inRange 0x31400000 0x480000 a

/-- The pair that holds it: skein pair k, the Focus pair otherwise. -/
def pairOfAddr (a : Nat) : Nat := (islandOfAddr a).getD 8

/-- The pair whose state a register shows (R313): Focus's for FOC_STAT, FOC_CNT and FOC_UPD, a skein's for a word of FOC_MODEACT; of
LPE_PLYCNT, to which every skein adds, the first (log entry 176). -/
def pairReg (a : Nat) : Option Nat :=
  if a = R.FOC_STAT ∨ a = R.FOC_CNT ∨ a = R.FOC_UPD then some 8
  else if a = R.LPE_PLYCNT then some 0
  else if inRange (R.FOC_MODEACT 0) 0x200 a then some ((a - R.FOC_MODEACT 0) / 64)
  else none

/-- The pair whose state a bus address shows, in a window or a register. -/
def pairSeen (a : Nat) : Option Nat := if inRange 0x40000000 0x15000 a then pairReg a else if pairAddr a then some (pairOfAddr a) else none

/-- A read of pair state in a lost half-epoch is suppressed and not compared (R316): what it returns is open (log entry 176). -/
def Core.hiddenRead (c : Core) : Core × Word :=
  ({ c with free := c.free + 1, mir := { c.mir with cut := true } }, (Config.freeValue c.free).setWidth 32)

/-! ### The register table -/

/-- The row of a register address, where a register is listed. -/
def regRow (a : Nat) : Option RegRow :=
  regRows.find? fun r => if r.count ≤ 1 then r.base == a
    else decide (r.base ≤ a ∧ a < r.base + r.stride * r.count) && (a - r.base) % r.stride == 0

/-- The bits of a word that a row's fields of the given kinds cover. -/
def fieldMask (fs : List FieldRow) (p : FieldKind → Bool) : Nat :=
  fs.foldl (fun m f => if p f.kind then m ||| ((2 ^ (f.hi - f.lo + 1) - 1) * 2 ^ f.lo) else m) 0

/-- What a read shows of a register: reserved and write-only bits read zero (R7, R9). -/
def rowShown (r : RegRow) (w : Word) : Word := w &&& BitVec.ofNat 32 (fieldMask r.fields (· != .wo))

/-- What a read leaves of a register: RC fields are cleared. -/
def rowAfterRead (r : RegRow) (w : Word) : Word := w &&& ~~~(BitVec.ofNat 32 (fieldMask r.fields (· == .rc)))

/-- What a write leaves of a register: RW fields take the value, W1C fields written with 1 clear. -/
def rowAfterWrite (r : RegRow) (old w : Word) : Word :=
  let rw := BitVec.ofNat 32 (fieldMask r.fields (· == .rw))
  let w1c := BitVec.ofNat 32 (fieldMask r.fields (· == .w1c))
  ((old &&& ~~~rw) ||| (w &&& rw)) &&& ~~~(w &&& w1c)

/-- The number of a register in its family. -/
def rowIndex (r : RegRow) (a : Nat) : Nat := if r.stride = 0 then 0 else (a - r.base) / r.stride

/-- FACET's engine and the routing words, which Distaff alone uses (R502). -/
def distaffOnly (a : Nat) : Bool := inRange 0x40014000 0x40 a || inRange 0x40013080 0x3C a

/-! ### Register reads -/

/-- A 64-bit value read as a low word that latches its partner. -/
def Core.latch64 (c : Core) (hi v : Nat) : Core × Word := (c.setReg hi (BitVec.ofNat 32 (v / 2 ^ 32)), BitVec.ofNat 32 v)

/-- PLAN_PHASE. -/
def Clock.phaseWord (t : Clock) : Word :=
  BitVec.ofNat 32 (t.fc * 2 ^ 12 + ofBool (decide (fcPerHalf ≤ t.fc)) * 2 ^ 10 + planPhase t.epoch)

/-- The registers whose read is more than their contents under R7. -/
def Core.specialRead (c : Core) (t : Clock) (r : RegRow) (a : Nat) : Option (Core × Word) :=
  let n := rowIndex r a
  if a = R.PLAN_EPOCH_LO then some (c.latch64 R.PLAN_EPOCH_HI t.epoch)
  else if a = R.PLAN_PHASE then some (c, t.phaseWord)
  else if a = R.PLAN_JQ_DONE then some c.readJqDone
  else if a = R.PLAN_OSTAT then
    some ((c.setFld F.PLAN_OSTAT.ODROP 0).setFld F.PLAN_OSTAT.TRUNC 0,
      putBits (c.reg a) 12 0 c.outFill)
  else if a = R.BOB_SIDX_LO then some (c.latch64 R.BOB_SIDX_HI t.sidx)
  else if a = R.BOB_CURSTAT then some (c, c.curStat)
  else if a = R.BOB_CURPOS_LO then some (c.latch64 R.BOB_CURPOS_HI c.curPos)
  else if a = R.LPE_EVQ_LO then some c.readEvq
  else if a = R.LPE_SYMQ_LO then some c.readSymq
  else if a = R.LPE_PLYCNT then some (c, c.plyCnt)
  else if a = R.FOC_STAT then some (c, c.focStat t.epoch)
  else if a = R.FOC_CNT then some (c, c.focCnt)
  else if a = R.FOC_UPD then some (c, c.focUpd)
  else if r.base = R.FOC_MODEACT 0 then some (c, c.modeAct n)
  else if a = R.FLY_EVQ3 then some c.readEventQ
  else if a = R.REEL_MKAMT_LO then some c.readMkAmount
  else if r.base = R.REEL_CNT_LO 0 then some (c.readReelCnt t n)
  else if r.base = R.REEL_CMP_LO 0 then some (c.readReelCmp n)
  else if r.base = R.REEL_CAP_LO 0 then some (c.readReelCap t.abs n)
  else if a = R.PWR_IDLECNT then some (c, BitVec.ofNat 32 (c.idleCnt t))
  else if a = R.WHL_CNT_LO then some c.readCnt
  else if r.base = R.UART_DATA 0 then some (c.uartGet n)
  else if a = R.QSP_STAT then some (c, c.qspStat)
  else if a = R.SVC_STAT then some (c, putBits (c.reg a) 6 6 (ofBool (c.pinLevel (c.fld F.SVC_PINSEL.PIN))))
  else if a = R.FACET_KEYSTAT then some (c, c.otp.word)
  else none

/-- A read of a control block (R7, R499, R502). -/
def Core.regRead (c : Core) (t : Clock) (a : Nat) : Core × Word :=
  if inRange backupRam 0x100 a then c.ramRead ((a - backupRam) / 4) false
  else if distaffOnly a then (c, 0)
  else
    match regRow a with
    | none => (c, 0)
    | some r =>
      if (pairReg a).isSome && c.suppressed then c.hiddenRead
      else match c.specialRead t r a with
      | some x => x
      | none => (c.setReg a (rowAfterRead r (c.reg a)), rowShown r (c.reg a))

/-! ### Window reads -/

/-- A word of the IMEM windows (R221). -/
def Core.imemWord (c : Core) (a : Nat) : Word :=
  let k := (a - 0x31400000) / 0x80000
  let o := (a - 0x31400000) % 0x80000
  let bank := o / 0x20000
  let img := if bank = c.fld (F.LPE_SLSTAT.BANK k) then c.plan.img else c.plan.other
  let b := img.sec (if k = 8 then .focusProg else .loupeProg)
  BitVec.ofNat 32 (leNat ((List.range 4).map fun i => Config.imemByte b k (o % 0x20000 + i)))

/-- A word of a window, its island being on. -/
def Core.windowWord (c : Core) (a : Nat) : Word :=
  if a < 0x60000 then BitVec.ofNat 32 (leNat ((List.range 4).map fun i => Config.romByte (a + i)))
  else if inRange 0x31400000 0x480000 a then
    let k := (a - 0x31400000) / 0x80000
    let o := (a - 0x31400000) % 0x80000
    if o < 0x40000 then c.imemWord a
    else if o - 0x40000 < dmemSize k then c.dmemWord k (o - 0x40000)
    else 0
  else if inRange 0x32000000 0x30000 a then
    BitVec.ofNat 32 (leNat ((List.range 4).map fun i => (hankRomByte (a - 0x32000000 + i)).toNat |> BitVec.ofNat 8))
  else if inRange 0x32040000 0x2000 a then hankRomDirWord (a - 0x32040000)
  else if inRange 0x30000000 0x1100000 a then c.tableWord a
  else c.mem.word a

/-- A word of Prism's working RAM: what it holds between steps is not stated (log entry 5). -/
def Core.workWord (c : Core) (a : Nat) : Core × Word := (c, Config.workRam c.prm.era (a % 0x200000))

/-- A bus read on which the two copies of a pair disagree (R313). -/
def Core.readBad (c : Core) (t : Clock) (a pair : Nat) : Core × Word :=
  ((c.accErr a (if pair < 8 then pair else 9) 1 false).lockstep t srcRdcmp pair 0 false, accessWord)

/-- A bus read of a word (R338, R313, R316, R498, R499). `bad` says that the two copies of a pair disagree on it. -/
def Core.busRead (c : Core) (t : Clock) (a : Nat) (bad : Bool) : Core × Word :=
  if a % 4 ≠ 0 ∨ mapped a = false then (c.unmapped a false, 0)
  else
    match (if inRange 0x40000000 0x15000 a then none else c.deadIsland a), pairSeen a with
    | some k, _ => (c.accErr a k 0 false, accessWord)
    | none, some pair =>
      if c.suppressed then c.hiddenRead
      else if bad then c.readBad t a pair
      else if inRange 0x40000000 0x15000 a then c.regRead t a
      else (c, c.windowWord a)
    | none, none =>
      if inRange 0x40000000 0x15000 a then c.regRead t a
      else if inRange 0x34000000 0x200000 a then c.workWord a
      else (c, c.windowWord a)

/-- An access that R338 or R313 answers (window code ACC). -/
def Core.accFails (c : Core) (a : Nat) (bad : Bool) : Bool :=
  decide (a % 4 = 0) && mapped a && ((!inRange 0x40000000 0x15000 a && (c.deadIsland a).isSome) ||
    (bad && (pairSeen a).isSome && !c.suppressed))

/-- `n` words read one after another, and whether one met ACC; `badAt` is the place of a word on which the copies of a pair
disagree. -/
def Core.busReads (c : Core) (t : Clock) (a badAt : Nat) : Nat → Core × List Word × Bool
  | 0 => (c, [], false)
  | n + 1 =>
    let bad := badAt == 0
    let r := c.busRead t a bad
    let q := r.1.busReads t (a + 4) (if badAt = 0 then n + 1 else badAt - 1) n
    (q.1, r.2 :: q.2.1, c.accFails a bad || q.2.2)

/-! ### Register writes -/

/-- A write of a staged register (R42); a write of the stream map that places a reserved value is discarded whole (R93). -/
def Core.stageReg (c : Core) (g a : Nat) (w : Word) : Core :=
  if c.sealed g then c.sealedWrite g
  else if g = 8 ∧ mapWriteBad a w = true then c.raise F.BOB_CFGERR.BADW
  else
    let c1 := (c.setReg a w).touch g
    if g = 6 then c1.onPlan fun p => { p with modeChg := insertNat ((a - R.FOC_MODE 0) / 4) p.modeChg } else c1

/-- PLAN_CTRL (R53); a LOAD ends DOZE (R354). -/
def Core.planCtrl (c : Core) (t : Clock) (w : Word) : Core :=
  let c1 := if bits w 0 0 = 1 then c.loadCandidate.dozeEvent t else c
  let c2 := if bits w 1 1 = 1 then c1.planArm t else c1
  if bits w 2 2 = 1 then c2.planDisarm t else c2

/-- PRM_SUBMIT (R207, R354). -/
def Core.prmSubmit (c : Core) (t : Clock) (w : Word) : Core := if bits w 0 0 = 1 then (c.prmGo t).submitted c t else c

/-- PWR_CTRL (R354, R358): a write is activity (R356), which ends DOZE as RUN does. -/
def Core.pwrCtrl (c : Core) (t : Clock) (w : Word) : Core :=
  let c1 := c.activity t
  let c2 := if bits w 1 1 = 1 then c1.tryDoze t else c1
  if bits w 0 0 = 1 then c2.tryHib t else c2

/-- PWR_WAKETICK (R363): a write of LO arms the compare with both words. -/
def Core.wakeTick (c : Core) (a : Nat) (w : Word) : Core :=
  let c1 := c.setReg a (if a = R.PWR_WAKETICK_HI then BitVec.ofNat 32 (bits w 15 0) else w)
  let v := (c1.reg R.PWR_WAKETICK_LO).toNat + 2 ^ 32 * (c1.reg R.PWR_WAKETICK_HI).toNat
  if a = R.PWR_WAKETICK_HI then c1
  else if v ≤ c.whl.count then (c1.onPwr fun p => { p with tick := none }).raise F.PWR_IRQ.TPAST
  else c1.onPwr fun p => { p with tick := some v }

/-- BOB_SNAP_CTRL (R105, R109). -/
def Core.snapCtrl (c : Core) (t : Clock) (w : Word) : Core :=
  let c1 := if bits w 0 0 = 1 then c.snapArm t else c
  let c2 := if bits w 1 1 = 1 then c1.snapDisarm t else c1
  if bits w 2 2 = 1 then c2.snapRelease else c2

/-- The registers whose write is more than their contents under R7. -/
def Core.specialWrite (c : Core) (t : Clock) (r : RegRow) (a : Nat) (w : Word) : Option Core :=
  let n := rowIndex r a
  if a = R.PLAN_CTRL then some (c.planCtrl t w)
  else if a = R.PLAN_COMMIT then some (c.planCommit t (bits w 14 0))
  else if a = R.PLAN_JQ_CANCEL then some (c.cancelJob t (bits w 7 0))
  else if a = R.NVM_IMG_CTRL then some (c.imgCtrl w)
  else if a = R.BOB_LVDS_CTRL then some (c.train (bits w 7 0))
  else if a = R.BOB_SNAP_CTRL then some (c.snapCtrl t w)
  else if a = R.LPE_PLYCMD then some (c.plyCommand (bits w 9 0) (bits w 15 12))
  else if r.base = R.LPE_DBELL 0 then some ((c.setReg a (rowAfterWrite r (c.reg a) (w &&& 0x200#32))).dbell n (bits w 7 0))
  else if r.base = R.FOC_AIDIN 0 then some (c.aidIn n w)
  else if a = R.PRM_SUBMIT then some (c.prmSubmit t w)
  else if a = R.FLY_EVCFG then some ((c.evWrite t.sidx).setReg a (rowAfterWrite r (c.reg a) w))
  else if a = R.REEL_START then some (c.reelStart t (bits w 7 0) (bits w 8 8 = 1) (bits w 9 9 = 1))
  else if a = R.REEL_STOP then some (c.reelStop t (bits w 7 0))
  else if r.base = R.REEL_CNT_LO 0 then some (c.reelLoWrite t .cnt n w)
  else if r.base = R.REEL_CMP_LO 0 then some (c.reelLoWrite t .cmp n w)
  else if r.base = R.REEL_INC_LO 0 then some (c.reelLoWrite t .inc n w)
  else if r.base = R.REEL_CFG 0 then some (c.reelCfg t n w)
  else if a = R.MIR_INJ then some (c.mirInject t w c.serviceMode)
  else if a = R.PWR_CTRL then some (c.pwrCtrl t w)
  else if a = R.PWR_WAKETICK_LO ∨ a = R.PWR_WAKETICK_HI then some (c.wakeTick a w)
  else if a = R.WHL_TRUST then some (c.trustClear w)
  else if a = R.WHL_DAYPHASE ∨ a = R.WHL_CFG ∨ a = R.WHL_OFFSET then some (c.whlWrite a w)
  else if a = R.WHL_WDAY then some (c.wdaySet w)
  else if a = R.WHL_CHG then some (c.chgWrite w)
  else if a = R.WHL_CTRL then some (c.whlCtrl w)
  else if r.base = R.UART_DATA 0 then some (c.uartPut n (BitVec.ofNat 8 (bits w 7 0)))
  else if r.base = R.UART_RATE 0 then some (c.uartRate n w)
  else if r.base = R.UART_CFG 0 then some (c.uartCfg n w)
  else if r.base = R.UART_FIFOCTL 0 then some (c.uartFifoCtl n w)
  else if a = R.SVC_CTRL then some (if bits w 0 0 = 1 then c.relAll else c)
  else if a = R.SVC_MONSEL then some (c.monWrite w)
  else if a = R.SVC_PINCTL then some (c.pinctl w)
  else none

/-- A write of a control block. -/
def Core.regWrite (c : Core) (t : Clock) (a : Nat) (w : Word) : Core :=
  if inRange backupRam 0x100 a then c.ramWrite ((a - backupRam) / 4) w
  else if distaffOnly a then c
  else
    match regRow a with
    | none => c
    | some r =>
      match c.specialWrite t r a w with
      | some x => x
      | none =>
        match r.group with
        | some g => c.stageReg g a w
        | none => c.setReg a (rowAfterWrite r (c.reg a) w)

/-! ### Writes -/

/-- A write into a window (R498). Distaff alone writes its SRAM and the tables that it publishes; those writes have operations of
their own. -/
def Core.windowWrite (c : Core) (a : Nat) (w : Word) : Core :=
  if inRange 0x32100000 0x20000 a then c.hankRamWrite (a - 0x32100000) (leBytes 4 w.toNat)
  else if inRange 0x34204000 0x20000 a then { c with mem := c.mem.putWord a w }
  else c.stagedWrite a w

/-- A bus write of a word. -/
def Core.busWrite (c : Core) (t : Clock) (a : Nat) (w : Word) : Core :=
  if a % 4 ≠ 0 ∨ mapped a = false then c.unmapped a true
  else if inRange 0x40000000 0x15000 a then c.regWrite t a w
  else
    match c.deadIsland a with
    | some k => c.accErr a k 0 true
    | none => c.windowWrite a w

/-- Words written one after another, and whether one met ACC. -/
def Core.busWrites (c : Core) (t : Clock) (a : Nat) : List Word → Core × Bool
  | [] => (c, false)
  | w :: r =>
    let q := (c.busWrite t a w).busWrites t (a + 4) r
    (q.1, c.accFails a false || q.2)

end Sys2Proof.Machine
end

