-- ==== Sys2Proof/Machine/Commit.lean ====
section
/-! DEFINITION. Group 14 (R476, R479) and the order in which committed groups apply at a boundary (R24, R41, R44). -/
namespace Sys2Proof.Machine

def group14Regs : List Nat := [R.SET_CFG, R.SET_TRDLY]

/-- A group 14 commit that breaks a rule. -/
def Core.setCfgBad (c : Core) : Bool :=
  decide (c.fld F.SET_CFG.LOSSLIM = 0 ∨ 20000 < c.fld F.SET_TRDLY.TRDLY ∨ bits (c.reg R.SET_CFG) 31 16 ≠ 0 ∨
    bits (c.reg R.SET_CFG) 7 1 ≠ 0 ∨ bits (c.reg R.SET_TRDLY) 31 15 ≠ 0)

/-- Group 14 applies or is refused whole. -/
def Core.applyGroup14 (c : Core) : Core :=
  if c.setCfgBad then (c.raise F.SET_STAT.CFGERR).raise F.SET_IRQ.CFGERR else c.putInForce group14Regs

/-- One group applied at the boundary of an epoch, among those that apply with it; loop write-backs come before group 0 (R116). -/
def Core.applyGroup (c : Core) (epoch : Nat) (gs : List Nat) (g : Nat) : Core :=
  let t : Clock := { epoch := epoch, fc := 0 }
  match g with
  | 0 => (c.applyWriteBacks true).applyGroup0
  | 1 => c.applyGroup1
  | 2 => c.applyGroup2
  | 3 => c.applyGroup3 (gs.contains 2)
  | 4 => c.applyGroup4
  | 5 => c.applyGroup5 c.focusBoundsOk
  | 6 => c.applyGroup6
  | 7 => c.applyGroup7 epoch
  | 8 => c.applyGroup8
  | 9 => let r := c.applyGroup9 epoch; (r.1.shiftClock r.2).shiftModel ((r.2 : Rat) * 1000000)
  | 10 => c.applyGroup10 t
  | 11 => c.applyGroup11 t (gs.contains 10)
  | 12 => c.applyGroup12 epoch
  | 13 => c.applyGroup13 epoch
  | 14 => c.applyGroup14
  | _ => c

/-- The order in which groups apply: a group whose check reads another's fields comes after it. -/
def groupOrder : List Nat := [1, 3, 2, 4, 8, 7, 0, 5, 6, 9, 12, 11, 10, 13, 14]

/-- The groups due at a boundary applied. -/
def Core.applyGroups (c : Core) (epoch : Nat) (gs : List Nat) : Core :=
  (groupOrder.filter gs.contains).foldl (fun c g => c.applyGroup epoch gs g) c

end Sys2Proof.Machine
end

