-- ==== Sys2Proof/Machine/Twine.lean ====
section
/-! DEFINITION. Twine (chapter 18): frames, the message catalogue, sessions, requests with their responses and retries, and the
device's own messages. What each request does is in TwineOps. -/
namespace Sys2Proof.Machine

/-! ### Frames (R437, R438) -/

/-- The bytes of a frame after its SYNC and before its CRC. -/
def frameBody (cls id seq : Nat) (payload : List Byte) : List Byte :=
  leBytes 1 cls ++ leBytes 1 id ++ leBytes 2 payload.length ++ leBytes 2 seq ++ payload

def frameCrc (cls id seq : Nat) (payload : List Byte) : Word := crc32 (frameBody cls id seq payload)

/-- A whole frame. -/
def frameOf (cls id seq : Nat) (payload : List Byte) : List Byte :=
  [0xC5, 0x3A] ++ frameBody cls id seq payload ++ leBytes 4 (frameCrc cls id seq payload).toNat

/-- The bytes received begin with the frame of a class, ID, SEQ and CRC. -/
def frameAt (cls id seq : Nat) (crc : Word) (l : List Byte) : Option Nat :=
  match frameLen l with
  | some n => if leAt l 2 1 = cls ∧ leAt l 3 1 = id ∧ leAt l 6 2 = seq ∧ leAt l (n - 4) 4 = crc.toNat then some n else none
  | none => none

/-- The bytes left once a frame is taken; the hunt passes over what stands before it (R439). -/
def huntFrame (cls id seq : Nat) (crc : Word) : List Byte → Option (List Byte)
  | [] => none
  | b :: r =>
    match frameAt cls id seq crc (b :: r) with
    | some n => some ((b :: r).drop n)
    | none => huntFrame cls id seq crc r

/-- The bytes left once the first SYNC's 0xC5 is passed; all are passed where there is none. -/
def huntPast : List Byte → List Byte
  | [] => []
  | b :: r => if leAt (b :: r) 0 2 = 0x3AC5 then r else huntPast r

/-- A frame discarded by the receiver (R439). -/
def Core.dropFrame (c : Core) (l : Nat) : Core := c.onLink l fun k => { k with rx := huntPast k.rx, crcErr := k.crcErr + 1 }

/-! ### The catalogue (R442, R443, R444) -/

/-- A field: its bytes, the version that added it (256 × major + minor), the major it is absent from, the successor field. -/
structure CatFld where
  size : Nat
  add : Nat
  del : Nat
  src : Nat
deriving DecidableEq, Repr

/-- A message: class, ID, FLAGS, RFIRST, the version that introduced it, RETMAJ, the successor, and its fields. -/
structure CatMsg where
  cls : Nat
  id : Nat
  flags : Nat
  rfirst : Nat
  intro : Nat
  ret : Nat
  next : Nat × Nat
  fields : List CatFld
deriving DecidableEq, Repr

structure Cat where
  major : Nat
  minor : Nat
  m1 : Nat
  m2 : Nat
  msgs : List CatMsg
deriving DecidableEq, Repr

def CatMsg.mand (m : CatMsg) : Bool := bitOf m.flags 0
def CatMsg.fromHost (m : CatMsg) : Bool := bitOf m.flags 1
def CatMsg.toHost (m : CatMsg) : Bool := bitOf m.flags 2
def CatMsg.rep (m : CatMsg) : Bool := bitOf m.flags 3
def CatMsg.emu (m : CatMsg) : Bool := bitOf m.flags 4

/-- Field entry `i` of a body with `nmsg` messages. -/
def catFldAt (b : List Byte) (nmsg i : Nat) : CatFld :=
  let o := 16 + 16 * nmsg + 8 * i
  { size := leAt b o 2, add := leAt b (o + 2) 1 * 256 + leAt b (o + 3) 1, del := leAt b (o + 4) 1, src := leAt b (o + 6) 2 }

def catMsgAt (b : List Byte) (nmsg i : Nat) : CatMsg :=
  let o := 16 + 16 * i
  { cls := leAt b o 1, id := leAt b (o + 1) 1, flags := leAt b (o + 2) 1, rfirst := leAt b (o + 3) 1,
    intro := leAt b (o + 4) 1 * 256 + leAt b (o + 5) 1, ret := leAt b (o + 6) 1, next := (leAt b (o + 12) 1, leAt b (o + 13) 1),
    fields := (List.range (leAt b (o + 10) 2)).map fun k => catFldAt b nmsg (leAt b (o + 8) 2 + k) }

def catOf (b : List Byte) : Cat :=
  { major := leAt b 0 1, minor := leAt b 1 1, m1 := leAt b 2 1, m2 := leAt b 3 1,
    msgs := (List.range (leAt b 4 2)).map (catMsgAt b (leAt b 4 2)) }

/-- A body that R442 accepts: no reserved value, no field list past NFLD. -/
def catOk (b : List Byte) : Bool :=
  let n := leAt b 4 2
  let k := leAt b 6 2
  decide (1 ≤ n ∧ n ≤ 1024 ∧ 1 ≤ k ∧ k ≤ 16384 ∧ b.length = 16 + 16 * n + 8 * k) && zeroAt b 8 8 &&
  (List.range n).all (fun i => let o := 16 + 16 * i
    decide (leAt b (o + 2) 1 < 32) && zeroAt b (o + 7) 1 && zeroAt b (o + 14) 2 && decide (leAt b (o + 8) 2 + leAt b (o + 10) 2 ≤ k)) &&
  (List.range k).all (fun i => let o := 16 + 16 * n + 8 * i
    decide (1 ≤ leAt b o 2 ∧ leAt b o 2 ≤ 4096) && zeroAt b (o + 5) 1)

/-- The messages of the standard catalogue (R448, R76): class, ID, FLAGS, the fields before a repeated unit, and the unit's. A part whose
length R448 leaves to the sender has no entry of one size: `msgTail` gives what it is made of. -/
def stdRows : List (Nat × Nat × Nat × List Nat × List Nat) :=
  [(0, 1, 2, [1, 1, 1, 1, 4, 8], []), (0, 2, 5, [1, 1, 1, 1, 4, 4, 4, 4, 1, 1, 1, 1, 2, 2], []), (0, 3, 2, [], []),
   (0, 4, 5, [1, 1, 1, 1, 4, 4], []), (0, 5, 5, [1, 1, 1, 1, 4, 4], []), (0, 6, 2, [], []),
   (1, 1, 2, [4, 2, 2], []), (1, 2, 5, [1, 3, 4], []), (1, 3, 2, [4, 2, 2], []),
   (2, 1, 13, [1, 1, 2], [40]), (2, 2, 12, [], [8]), (2, 3, 12, [], [32]), (2, 4, 12, [], [8])] ++
  [(3, 1, 5, [4, 1, 1, 1, 1, 2, 2, 8, 4, 4, 4, 4, 4, 4, 4, 4, 4, 4, 2, 2], []), (3, 2, 5, [4, 16, 16, 16, 16, 16, 16, 1, 1, 4, 4, 4], []),
   (3, 3, 5, [1, 1, 1, 1, 4, 8, 4, 4, 8], []), (3, 4, 5, [1, 1, 2, 4, 8, 8, 2, 2], []),
   (4, 1, 13, [4, 1, 1, 2, 1, 1, 1, 1, 4, 4, 4, 1, 3], [1, 1]), (4, 2, 5, [1, 3, 4, 8], []),
   (5, 1, 10, [1, 3], [32]), (6, 1, 2, [64], []), (6, 2, 2, [4], []), (6, 3, 5, [32], [])] ++
  [(7, 1, 2, [2, 2], []), (7, 2, 2, [2, 2], []), (7, 3, 5, [2, 2], []), (7, 4, 2, [], []), (7, 5, 2, [], []),
   (7, 6, 2, [], []), (7, 7, 2, [], []), (7, 8, 5, [], []),
   (8, 1, 2, [4], []), (8, 2, 2, [2, 2], []), (8, 3, 2, [2, 2], []), (8, 4, 5, [2, 2], []), (8, 5, 2, [], []), (8, 6, 2, [], []),
   (8, 7, 2, [], []), (9, 1, 2, [1, 1, 1, 1, 8, 4], []), (9, 2, 5, [1, 3, 4], []), (9, 3, 5, [1, 1], [])]

/-- The Twine 1.0 catalogue of the ROM default image. -/
def stdCat : Cat :=
  { major := 1, minor := 0, m1 := 0xFF, m2 := 0xFF,
    msgs := stdRows.map fun r =>
      { cls := r.1, id := r.2.1, flags := r.2.2.1, rfirst := r.2.2.2.1.length, intro := 256, ret := 0, next := (0, 0),
        fields := (r.2.2.2.1 ++ r.2.2.2.2).map fun n => { size := n, add := 256, del := 0, src := 0xFFFF } } }

/-- The unit of the part of a message that no field entry describes: words of REG_DATA and REG_WR, values, data bytes. -/
def msgTail (cls id : Nat) : Nat :=
  match cls, id with
  | 1, 2 | 1, 3 | 8, 1 => 4
  | 6, 3 => 32
  | 7, 1 | 7, 3 | 7, 6 | 7, 7 | 7, 8 | 8, 2 | 8, 4 | 8, 5 | 8, 6 | 8, 7 | 9, 2 => 1
  | _, _ => 0

/-- A field is present in a session of version `v` (R443). -/
def CatFld.present (f : CatFld) (v : Nat) : Bool := decide (f.add ≤ v) && (f.del == 0 || decide (v / 256 < f.del))

/-- A message is served in a session of version `v` (R444). -/
def CatMsg.served (m : CatMsg) (v : Nat) : Bool := decide (m.intro ≤ v) && (m.ret == 0 || decide (v / 256 < m.ret))

/-- The lengths at which a list of fields may end: after any field at or beyond the last one of minor 0. -/
def fieldEnds (v : Nat) (fs : List CatFld) : List Nat :=
  let ps := fs.filter (·.present v)
  let need := (ps.zipIdx.foldl (fun n q => if q.1.add ≤ v / 256 * 256 then q.2 + 1 else n) 0)
  (List.range (ps.length + 1)).filterMap fun k => if need ≤ k then some ((ps.take k).map (·.size)).sum else none

def presentSize (v : Nat) (fs : List CatFld) : Nat := ((fs.filter (·.present v)).map (·.size)).sum

/-- A payload's length ends on a field boundary that R443 allows. -/
def CatMsg.lengthOk (m : CatMsg) (v len : Nat) : Bool :=
  if m.rep then
    let head := presentSize v (m.fields.take m.rfirst)
    let unit := m.fields.drop m.rfirst
    let one := presentSize v unit
    decide (head ≤ len) && (decide ((len - head) % max 1 one = 0) || (fieldEnds v unit).contains ((len - head) % max 1 one))
  else
    let whole := presentSize v m.fields
    let tail := msgTail m.cls m.id
    (fieldEnds v m.fields).contains len || (decide (0 < tail ∧ whole ≤ len) && decide ((len - whole) % tail = 0))

/-- The fields of a payload at the catalogue's own version: absent and omitted ones are zero; with what the payload has left. -/
def expandFields (v : Nat) : List CatFld → List Byte → List (List Byte) × List Byte
  | [], p => ([], p)
  | f :: fs, p =>
    if f.present v then
      let r := expandFields v fs (p.drop f.size)
      ((p.take f.size ++ List.replicate (f.size - min f.size p.length) 0) :: r.1, r.2)
    else
      let r := expandFields v fs p
      (List.replicate f.size 0 :: r.1, r.2)

/-- Repeated units, until the payload is used up. -/
def expandUnits (v : Nat) (unit : List CatFld) : Nat → List Byte → List Byte
  | 0, _ => []
  | k + 1, p => if p = [] then [] else let r := expandFields v unit p; r.1.flatten ++ expandUnits v unit k r.2

/-- A payload brought to the layout of the catalogue. -/
def CatMsg.expand (m : CatMsg) (v : Nat) (p : List Byte) : List Byte :=
  if m.rep then
    let r := expandFields v (m.fields.take m.rfirst) p
    r.1.flatten ++ expandUnits v (m.fields.drop m.rfirst) 4096 r.2
  else let r := expandFields v m.fields p; r.1.flatten ++ r.2

/-- A value fitted to another field's size. -/
def fitTo (n : Nat) (b : List Byte) : List Byte := (b ++ List.replicate n 0).take n

/-- An emulated request translated into its successor field by field. -/
def CatMsg.translate (m s : CatMsg) (v : Nat) (p : List Byte) : List Byte :=
  let vals := (m.fields.zip (expandFields v m.fields p).1)
  s.fields.zipIdx.flatMap fun q =>
    match vals.find? fun x => x.1.src == q.2 with
    | some x => fitTo q.1.size x.2
    | none => List.replicate q.1.size 0

/-- The fields of a message in the catalogue's layout that a session sees; with what is left of it. -/
def shrinkFields (v : Nat) : List CatFld → List Byte → List Byte × List Byte
  | [], p => ([], p)
  | f :: fs, p =>
    let r := shrinkFields v fs (p.drop f.size)
    (if f.present v then fitTo f.size p ++ r.1 else r.1, r.2)

def shrinkUnits (v : Nat) (unit : List CatFld) : Nat → List Byte → List Byte
  | 0, _ => []
  | k + 1, p => if p = [] then [] else let r := shrinkFields v unit p; r.1 ++ shrinkUnits v unit k r.2

def CatMsg.shrink (m : CatMsg) (v : Nat) (p : List Byte) : List Byte :=
  if m.rep then
    let r := shrinkFields v (m.fields.take m.rfirst) p
    r.1 ++ shrinkUnits v (m.fields.drop m.rfirst) 4096 r.2
  else let r := shrinkFields v m.fields p; r.1 ++ r.2

/-- An emulated message built from its successor's payload. -/
def CatMsg.emulate (m s : CatMsg) (v : Nat) (p : List Byte) : List Byte :=
  let vals := (expandFields (256 * 256) s.fields p).1
  (m.fields.filter (·.present v)).flatMap fun f =>
    if f.src = 0xFFFF then List.replicate f.size 0 else fitTo f.size (vals.getD f.src [])

def Cat.find (k : Cat) (cls id : Nat) : Option CatMsg := k.msgs.find? fun m => m.cls == cls && m.id == id

/-! ### Sessions (R440, R441, R74) -/

/-- The catalogue a session works with. -/
def LinkSt.catalogue (l : LinkSt) : Cat :=
  match l.cat with
  | some b => catOf b
  | none => stdCat

def LinkSt.version (l : LinkSt) : Nat := l.major * 256 + l.minor

/-- The running image: the one chosen at start-up until the first epoch puts it in force. -/
def Core.running (c : Core) : Image × ImageSrc := c.boot.cand.getD (c.plan.img, c.plan.src)

/-- The catalogue in force for the next HELLO: its body, none for the standard one, and CATDEF (R73, R442). -/
def Core.helloCat (c : Core) : Option (List Byte) × Bool :=
  let b := c.plan.nextCat.getD (c.running.1.sec .catalogue)
  if b = [] then (none, false) else if catOk b then (some b, false) else (none, true)

/-- The version of a session for a host's range of majors (R74). -/
def Cat.negotiate (k : Cat) (lo hi : Nat) : Option (Nat × Nat) :=
  let older := fun (maj min : Nat) => if min = 0xFF then none else some (maj, min)
  if k.major < lo then none
  else if k.major ≤ hi then some (k.major, k.minor)
  else if hi + 1 = k.major then older hi k.m1
  else if hi + 2 = k.major then older hi k.m2
  else none

/-! ### Output queues (R447) -/

def uartOutTop : Nat := 16384

/-- A frame, sentence or message put whole into a link's output queue, where it fits. -/
def Core.enqueue (c : Core) (l : Nat) (bs : List Byte) : Core × Bool :=
  if l = 1 then c.publish bs
  else if uartOutTop < (c.link l).outq.length + bs.length then (c, false)
  else ((c.onLink l fun k => { k with outq := k.outq ++ bs }).refill (l / 2), true)

/-- A frame sent, or dropped and counted. -/
def Core.sendFrame (c : Core) (l : Nat) (bs : List Byte) : Core :=
  let r := c.enqueue l bs
  if r.2 then r.1 else r.1.onLink l fun k => { k with lost := k.lost + 1 }

/-! ### Responses and retries (R445, R446) -/

def nakNoSession : Nat := 1
def nakVersion : Nat := 2
def nakUnkMsg : Nat := 3
def nakLength : Nat := 4
def nakField : Nat := 5
def nakBusy : Nat := 6
def nakDenied : Nat := 7

/-- The payload of an ACK or NAK. -/
def ackBytes (cls id code detail : Nat) : List Byte :=
  leBytes 1 cls ++ leBytes 1 id ++ leBytes 1 code ++ leBytes 1 0 ++ leBytes 4 detail ++ leBytes 4 0

/-- What a request is answered with: its response message, an ACK, a NAK, a response on completion, or nothing. -/
inductive Answer where
  | reply (cls id : Nat) (payload : List Byte)
  | ack (code detail : Nat)
  | nak (code : Nat)
  | later
  | silent
deriving DecidableEq, Repr

/-- The frame of a NAK. -/
def nakFrame (seq cls id code : Nat) : List Byte := frameOf 0 5 seq (ackBytes cls id code 0)

/-- An executed request's response kept among the link's last four. -/
def LinkSt.remember (l : LinkSt) (seq : Nat) (crc : Word) (resp : List Byte) : LinkSt :=
  let m := l.memory ++ [(seq, crc, resp)]
  { l with memory := m.drop (m.length - 4) }

/-- An executed request's response sent and kept (R446). -/
def Core.respond (c : Core) (l seq : Nat) (crc : Word) (resp : List Byte) : Core :=
  (c.onLink l fun k => k.remember seq crc resp).sendFrame l resp

/-- What a session is sent for a message: the message's own ID and payload, or the older message that emulates it (R444); none where
the session has neither. MAND comes with it. The frozen messages keep their layouts (R440). -/
def LinkSt.outgoing (l : LinkSt) (cls id : Nat) (full : List Byte) : Option (Nat × Nat × List Byte × Bool) :=
  let v := l.version
  if cls = 0 ∧ (id = 2 ∨ id = 4 ∨ id = 5) then some (cls, id, full, true)
  else
  match (l.catalogue.msgs.find? fun m => m.cls == cls && m.id == id && m.toHost && m.served v) with
  | some m => some (cls, id, m.shrink v full, m.mand)
  | none =>
    match (l.catalogue.msgs.find? fun m => m.emu && m.toHost && m.served v && m.next == (cls, id)), l.catalogue.find cls id with
    | some m, some s => some (m.cls, m.id, m.emulate s v full, m.mand)
    | _, _ => none

/-- The answer to a request sent. A request answered on completion waits (R445); a refused one is not an executed one. -/
def Core.answer (c : Core) (l seq : Nat) (crc : Word) (cls id : Nat) (a : Answer) : Core :=
  match a with
  | .reply rc ri p =>
    match (c.link l).outgoing rc ri p with
    | some o => c.respond l seq crc (frameOf o.1 o.2.1 seq o.2.2.1)
    | none => c.respond l seq crc (frameOf rc ri seq p)
  | .ack code detail => c.respond l seq crc (frameOf 0 4 seq (ackBytes cls id code detail))
  | .nak code => c.sendFrame l (nakFrame seq cls id code)
  | .later => c.onLink l fun k => { k with waiting := k.waiting ++ [{ link := l, seq := seq, crc := crc, cls := cls, id := id }] }
  | .silent => c

/-- A request that was waiting is answered with an ACK; one whose session has closed is not (R441, R445). -/
def Core.ackLater (c : Core) (a : AckTo) (code detail : Nat) : Core :=
  if (c.link a.link).waiting.contains a then
    (c.onLink a.link fun k => { k with waiting := k.waiting.filter (· != a) }).respond a.link a.seq a.crc
      (frameOf 0 4 a.seq (ackBytes a.cls a.id code detail))
  else c

/-- Distaff takes frames: the core is powered, start-up has reached step 3, and no restart is under way (R333, R474). -/
def Core.distaffServes (c : Core) : Bool := c.conLive && c.mir.dstUntil.isNone

/-- The class and ID that a request's frame carries. -/
def TwineHead.frameId (h : TwineHead) (cls id : Nat) : Nat × Nat :=
  match h.old with
  | some (c, i) => (c.toNat, i.toNat)
  | none => (cls, id)

/-- The catalogue's entry by which a session serves a request: the message itself, or a retired one that it succeeds (R444). -/
def LinkSt.entry (l : LinkSt) (h : TwineHead) (cls id : Nat) : Option CatMsg :=
  let fi := h.frameId cls id
  (l.catalogue.find fi.1 fi.2).filter fun m => m.served l.version && m.fromHost && (h.old.isNone || (m.emu && m.next == (cls, id)))

/-- A request that Distaff takes: its frame leaves the receive bytes, and the rules of R440, R445, R446 and R474 come before `f`. -/
def Core.requestWith (c : Core) (t : Clock) (h : TwineHead) (crc : Word) (cls id : Nat) (f : Core → Core × Answer) : Core :=
  if ¬ c.distaffServes then c
  else
    let l := h.link.val
    let seq := h.seq.toNat
    let fi := h.frameId cls id
    let c0 := (c.onLink l fun k => { k with rx := (huntFrame fi.1 fi.2 seq crc k.rx).getD k.rx }).activity t
    let k := c0.link l
    let hello := decide (cls = 0 ∧ id = 1)
    let refuse := fun (c : Core) code => if cls = 5 then c else c.sendFrame l (nakFrame seq fi.1 fi.2 code)
    if c0.fld F.SYS_BOOT.STAGE < 8 then refuse c0 (if hello then nakBusy else nakNoSession)
    else
      match k.memory.find? fun m => m.1 == seq && m.2.1 == crc with
      | some m => c0.sendFrame l m.2.2
      | none =>
        if ¬ k.opened ∧ ¬ hello then refuse c0 nakNoSession
        else if k.waiting.any (fun w => w.seq == seq && w.crc == crc) then c0
        else if 4 ≤ k.waiting.length then refuse c0 nakBusy
        else if ¬ hello ∧ (k.entry h cls id).isNone then refuse c0 nakUnkMsg
        else
          let r := f c0
          match r.2 with
          | .nak code => refuse r.1 code
          | a => r.1.answer l seq crc fi.1 fi.2 a

/-- A request from its payload, brought to the catalogue's layout, a retired message's to its successor's (R443, R444). -/
def Core.request (c : Core) (t : Clock) (h : TwineHead) (cls id : Nat) (payload : List Byte) (f : Core → List Byte → Core × Answer) :
    Core :=
  let fi := h.frameId cls id
  if 4096 < payload.length then c.dropFrame h.link.val
  else c.requestWith t h (frameCrc fi.1 fi.2 h.seq.toNat payload) cls id fun c =>
    let k := c.link h.link.val
    match k.entry h cls id with
    | some m =>
      if ¬ m.lengthOk k.version payload.length then (c, .nak nakLength)
      else if h.old.isSome then
        match k.catalogue.find cls id with
        | some s => f c (m.translate s k.version payload)
        | none => (c, .nak nakUnkMsg)
      else f c (m.expand k.version payload)
    | none => f c payload

/-! ### The device's messages (R393, R447) -/

/-- A message in a link's queue with the next SEQ, which counts a dropped frame too. -/
def Core.post (c : Core) (l cls id : Nat) (p : List Byte) : Core :=
  (c.sendFrame l (frameOf cls id (c.link l).seq p)).onLink l fun k => { k with seq := (k.seq + 1) % 65536 }

/-- A message of the device on one link: nothing without a session; at shed level 2 only MAND messages and those that are never shed. -/
def Core.tell (c : Core) (l cls id : Nat) (full : List Byte) (always : Bool := false) : Core :=
  if ¬ (c.link l).opened then c
  else
    match (c.link l).outgoing cls id full with
    | none => c
    | some (cc, ci, p, mand) =>
      if 2 ≤ c.fld F.SYS_DSTLOAD.LEVEL ∧ ¬ mand ∧ ¬ always then c.countSat F.SYS_DSTSHED.OPT 1 else c.post l cc ci p

/-- What is sent on one link at every shed level: the answers to a host's READOUT (R393, R457), and notices (R455). -/
def Core.tellHost (c : Core) (l cls id : Nat) (full : List Byte) : Core := c.tell l cls id full true

/-- A message of the device on every session. -/
def Core.broadcast (c : Core) (cls id : Nat) (full : Nat → List Byte) (always : Bool := false) : Core :=
  (c.tell 0 cls id (full 0) always).tell 1 cls id (full 1) always

/-- Whether any session is open. -/
def Core.anySession (c : Core) : Bool := (c.link 0).opened || (c.link 1).opened

/-- XDONE for every read-out that has ended (R457). -/
def Core.sendDones (c : Core) : Core :=
  c.plan.xdone.foldl (fun c d => c.tellHost d.1 9 3 (leBytes 1 d.2.1 ++ leBytes 1 d.2.2)) (c.onPlan fun p => { p with xdone := [] })

end Sys2Proof.Machine
end

