-- ==== Sys2Proof/Machine/TwineOps.lean ====
section
/-! DEFINITION. What each Twine request does (R440, R441, R448, R449, R456, R457). -/
namespace Sys2Proof.Machine

/-! ### Sessions -/

/-- HELLO_ACK's payload. -/
def Core.helloAck (c : Core) (l : Nat) (v : Nat × Nat) (k : Cat) (catdef restored : Bool) : List Byte :=
  let rom := decide (c.running.2 = .romDefault)
  leBytes 1 v.1 ++ leBytes 1 v.2 ++ leBytes 1 k.major ++ leBytes 1 k.minor ++ leBytes 4 (c.reg R.SYS_ID).toNat ++
    leBytes 4 (c.reg R.SYS_FWVER).toNat ++ leBytes 4 c.running.1.product ++ leBytes 4 (c.reg R.PLAN_IDACT).toNat ++ leBytes 1 l ++
    leBytes 1 (ofBool catdef + 2 * ofBool restored + 4 * ofBool rom) ++ leBytes 1 (c.fld F.PWR_RSTCAUSE.CAUSE) ++ leBytes 1 0 ++
    leBytes 2 4096 ++ leBytes 2 0

/-- An open session closes (R441). -/
def Core.shut (c : Core) (l : Nat) : Core := if (c.link l).opened then c.onLink l LinkSt.close else c

/-- HELLO: an open session closes, and a version is negotiated against the catalogue in force; a refusal leaves none open (log
entry 209). -/
def Core.hello (c : Core) (l : Nat) (p : List Byte) : Core × Answer :=
  let lo := leAt p 0 1 * 256 + leAt p 1 1
  let hi := leAt p 2 1 * 256 + leAt p 3 1
  if p.length ≠ 16 then (c, .nak nakLength)
  else if zeroAt p 8 8 = false ∨ hi < lo then (c.shut l, .nak nakField)
  else
    let hc := c.helloCat
    let k := match hc.1 with | some b => catOf b | none => stdCat
    match k.negotiate (leAt p 0 1) (leAt p 2 1) with
    | none => (c.shut l, .nak nakVersion)
    | some v =>
      let old := c.link l
      let c1 := c.onLink l fun x =>
        { x.close with opened := true, major := v.1, minor := v.2, hostId := leAt p 4 4, crcErr := 0, cat := hc.1 }
      (c1, .reply 0 2 (c1.helloAck l v k hc.2 old.restored))

/-! ### Registers and aiding -/

/-- The address and count of REG_RD and REG_WR are in range. -/
def regFieldsOk (p : List Byte) : Bool :=
  decide (leAt p 0 4 % 4 = 0 ∧ 1 ≤ leAt p 4 2 ∧ leAt p 4 2 ≤ 1022) && zeroAt p 6 2

/-- The words of a byte list. -/
def wordsOf (b : List Byte) : List Word := (List.range (b.length / 4)).map fun i => BitVec.ofNat 32 (leAt b (4 * i) 4)

def wordBytes (ws : List Word) : List Byte := ws.flatMap fun w => leBytes 4 w.toNat

def Core.regRd (c : Core) (t : Clock) (p : List Byte) (badAt : Nat) : Core × Answer :=
  if ¬ regFieldsOk p then (c, .nak nakField)
  else
    let r := c.busReads t (leAt p 0 4) badAt (leAt p 4 2)
    (r.1, .reply 1 2 (leBytes 1 (if r.2.2 then 6 else 0) ++ leBytes 3 0 ++ p.take 4 ++ wordBytes r.2.1))

def Core.regWr (c : Core) (t : Clock) (p : List Byte) : Core × Answer :=
  if ¬ regFieldsOk p then (c, .nak nakField)
  else if (p.drop 8).length ≠ 4 * leAt p 4 2 then (c, .nak nakLength)
  else
    let r := c.busWrites t (leAt p 0 4) (wordsOf (p.drop 8))
    (r.1, .ack (if r.2 then 6 else 0) 0)

/-- AID_IMU: its samples pushed into FOC_AIDIN in order; discarded while AIDEN = 0 or where the message is malformed. -/
def Core.aidImu (c : Core) (p : List Byte) : Core × Answer :=
  let n := leAt p 0 1
  if ¬ c.inForceFlag F.FOC_CFG.AIDEN ∨ n = 0 ∨ 16 < n ∨ zeroAt p 1 3 = false ∨ p.length ≠ 4 + 32 * n then (c, .silent)
  else ((wordsOf (p.drop 4)).zipIdx.foldl (fun (c : Core) q => c.aidIn (q.2 % 8) q.1) c, .silent)

/-! ### Jobs -/

def Core.acqSubmit (c : Core) (t : Clock) (p : List Byte) : Core × Answer :=
  let c1 := (wordsOf p).zipIdx.foldl (fun (c : Core) q => c.setReg (R.PRM_JD q.2) q.1) c
  let c2 := c1.prmGo t
  (c2, .ack (c2.fld F.PRM_SUBRES.CODE) (c2.fld F.PRM_SUBRES.TAG))

def Core.acqCancel (c : Core) (t : Clock) (p : List Byte) : Core × Answer :=
  if 255 < leAt p 0 4 then (c, .nak nakField) else (c.cancelJob t (leAt p 0 4), .ack 0 0)

/-- READOUT: a ring read-out (class 1) or a snapshot export (class 2) is submitted. -/
def Core.readout (c : Core) (t : Clock) (l : Nat) (p : List Byte) : Core × Answer :=
  let src := leAt p 0 1
  let n := leAt p 1 1
  let hdr := leAt p 2 1
  let first := leAt p 4 8
  let count := leAt p 12 4
  if 1 < src ∨ 7 < n ∨ 1 < hdr ∨ zeroAt p 3 1 = false then (c, .nak nakField)
  else
    match c.submitRefusal (1 + src), c.freeTag with
    | none, some tag =>
      let snap := decide (src = 1)
      let next := if snap then tsPerEpoch * (c.bob.snapStart + first) else first
      let cur := c.openCursor t n next snap
      let head := if snap then 128 * hdr else 0
      let total := head + (if snap then tsPerEpoch * count else count)
      let desc := [BitVec.ofNat 32 l, BitVec.ofNat 32 n, BitVec.ofNat 32 head]
      let c1 := c.submitJob fun tag seq =>
        { tag := tag, cls := 1 + src, seq := seq, prio := 0, phase := .queued, desc := desc, cursor := some cur.1, prism := none,
          total := total, moved := 0 }
      (match cur.2 with
       | some st => c1.endJob t.epoch tag st
       | none => c1, .ack 0 tag)
    | some .classLim, _ => (c, .ack 7 0)
    | _, _ => (c, .ack 6 0)

/-- The transfer whose turn it is: transfers run in submission order (R51). -/
def Core.transferTurn (c : Core) (tag : Nat) : Bool :=
  ((c.plan.jobs.filter fun j => decide (1 ≤ j.cls) && j.live).head?.map (·.tag)) == some tag

/-- A captured sample of the snapshot. -/
def Core.snapHas (c : Core) (n i : Nat) : Bool :=
  bitOf c.bob.snapMask n && decide (tsPerEpoch * c.bob.snapStart ≤ i ∧ i < tsPerEpoch * (c.bob.snapStart + c.bob.snapNep))

/-- The samples a cursor can deliver from its next one on, at most `most`. -/
def Core.deliverable (c : Core) (t : Clock) (u : Cursor) (most : Nat) : Nat :=
  if u.snap then ((List.range most).takeWhile fun i => c.snapHas u.stream (u.next + i)).length
  else
    let ok := fun i =>
      let s := c.stream u.stream
      c.cursorRule t { u with next := u.next + i, offset := (s.offsetOf (u.next + i)).map (·.1) } == .deliver
    ((List.range most).takeWhile ok).length

/-- A transfer's next XDATA frame (R457): up to 4,088 bytes once the queue has space for it, never dropped. A cancelled transfer ends
at this boundary; one that meets an uncorrectable Bobbin error ends with FAULT (R334). -/
def Core.xdata (c : Core) (t : Clock) (tag : Nat) (bad : Bool) : Core :=
  match c.job tag with
  | none => c
  | some j =>
    match j.cursor with
    | none => c
    | some u =>
      if ¬ (j.cls = 1 ∨ j.cls = 2) ∨ ¬ j.live ∨ ¬ c.transferTurn tag then c
      else if j.phase = .cancelling then c.endJob t.epoch tag .aborted
      else
        let l := (wordOf j.desc 0).toNat
        let head := (wordOf j.desc 2).toNat
        let hb := if j.moved = 0 then c.mem.reads snapHeader head else []
        let want := min (4088 - hb.length) (j.total - max j.moved head)
        let n := c.deliverable t u want
        let data := hb ++ (List.range n).map fun i => c.sampleAt u.snap u.stream (u.next + i)
        if data = [] then (if j.moved < j.total then c.advanceCursor t tag u.next else c)
        else
          let k := c.link l
          let frame := leBytes 1 tag ++ leBytes 3 0 ++ leBytes 4 j.moved ++ data
          let room := if l = 1 then outTop - c.outAvail else uartOutTop - k.outq.length
          if ¬ k.opened ∨ room < 12 + frame.length then c
          else if bad then (c.uncorrectable 4).endJob t.epoch tag .fault
          else
            let moved := j.moved + data.length
            let c1 := (c.tellHost l 9 2 frame).setJob { j with
              moved := moved, phase := .running, cursor := some { u with next := u.next + n, waiting := false } }
            if j.total ≤ moved then c1 else c1.advanceCursor t tag (u.next + n)

/-- A transfer that has moved everything ends with OK (R51). -/
def Core.transferComplete (c : Core) (t : Clock) (tag : Nat) : Core :=
  match c.job tag with
  | some j => if 1 ≤ j.cls ∧ j.live ∧ j.total ≤ j.moved ∧ c.transferTurn tag then c.endJob t.epoch tag .ok else c
  | none => c

/-! ### Settings and storage -/

/-- A persistent item set by its key (R269, R448): false where the key or the value is refused. -/
def Core.setKey (c : Core) (t : Clock) (key : Nat) (v : List Byte) : Core × Bool :=
  let i := key - 0x100
  if key < 0x100 then (c, false)
  else if i < settingCount then c.setSetting i v
  else
    match persistRegs[i - settingCount]? with
    | some a =>
      let w := BitVec.ofNat 32 (leAt v 0 4)
      if v.length ≠ 4 then (c, false)
      else (c.regWrite t a (if a = R.WHL_CHG then putBits w 31 24 0xC4 else w), true)
    | none => (c, false)

def Core.cfgSet (c : Core) (t : Clock) (p : List Byte) : Core × Answer :=
  if zeroAt p 2 2 = false then (c, .nak nakField)
  else let r := c.setKey t (leAt p 0 2) (p.drop 4)
       if r.2 then (r.1, .ack 0 0) else (c, .nak nakField)

def Core.cfgGet (c : Core) (p : List Byte) : Core × Answer :=
  match c.persistItems.find? fun x => x.1 == leAt p 0 2 with
  | some x => if zeroAt p 2 2 then (c, .reply 7 3 (leBytes 2 x.1 ++ leBytes 2 0 ++ x.2)) else (c, .nak nakField)
  | none => (c, .nak nakField)

/-- A batch's result as an answer. -/
def batchAnswer (r : Core × Nat × Bool) : Core × Answer := (r.1, if r.2.2 then .ack r.2.1 0 else .later)

/-- IMG_WR. -/
def Core.imgWr (c : Core) (p : List Byte) : Core × Answer :=
  let ofs := leAt p 0 4
  let data := p.drop 4
  if ofs % 4 ≠ 0 ∨ data = [] ∨ 4088 < data.length ∨ 0x200000 < ofs + data.length ∨
      ofs / 0x100000 ≠ (ofs + data.length - 1) / 0x100000 then (c, .nak nakField)
  else let r := c.imgWrite ofs data; (r.1, .ack r.2 0)

def Core.spoolWr (c : Core) (p : List Byte) (a : AckTo) : Core × Answer :=
  let key := leAt p 0 2
  if key < 0x8000 ∨ zeroAt p 2 2 = false ∨ 256 < (p.drop 4).length then (c, .nak nakField)
  else batchAnswer (c.userRecord key (p.drop 4) a)

/-- SPOOL_RD: the record in force of a value key, or the log entry of an index, 0 the newest. -/
def Core.spoolRd (c : Core) (p : List Byte) : Core × Answer :=
  let key := leAt p 0 2
  let idx := leAt p 2 2
  let recs := (c.spoolLive.filter fun r => r.key == key).reverse
  let body := match (if (logKeep key).isSome then recs[idx]? else recs.head?) with | some r => r.payload | none => []
  (c, .reply 8 4 (leBytes 2 key ++ leBytes 2 idx ++ body))

/-! ### Fuses and the calendar -/

/-- The key slot that a fuse operation names exists, and a key is 64 bytes long. -/
def fuseOk (op : FuseOp) (withKey : Bool) : Bool :=
  match op with
  | .program s k => decide (s ≤ 1) && (!withKey || decide (k.length = 64))
  | .revoke s => decide (s ≤ 1)
  | .kldoff => true

/-- FUSE_ARM: a nonce, a free value (log entry 5). -/
def Core.fuseArm (c : Core) (t : Clock) (l : Nat) (op : FuseOp) : Core × Answer :=
  let nonce := (Config.freeValue c.free).toNat % 65536
  if ¬ fuseOk op false then (c, .nak nakField)
  else (({ c with free := c.free + 1 } : Core).onLink l fun k => { k with nonce := some (nonce, t.abs) }, .ack 0 nonce)

/-- FUSE_PROG within 1 s of a FUSE_ARM of the session, with its nonce. -/
def Core.fuseProg (c : Core) (t : Clock) (l nonce : Nat) (op : FuseOp) : Core × Answer :=
  if ¬ fuseOk op true then (c, .nak nakField)
  else
    match (c.link l).nonce with
    | some (n, s) =>
      if n = nonce ∧ t.abs ≤ s + 1000 * fcPerEpoch then
        let r := (c.onLink l fun k => { k with nonce := none }).fuse op
        (r.1, .ack r.2 0)
      else (c, .ack 2 0)
    | none => (c, .ack 2 0)

def Core.calSetReq (c : Core) (d : CalDate) (scale unc : Nat) : Core × Answer := let r := c.calSet d scale unc; (r.1, .ack r.2 0)

def Core.calGetReq (c : Core) (tick scale : Nat) : Core × Answer :=
  match c.calGet (c.settingNat 17) tick scale with
  | .ok (d, wd, u) => (c, .reply 7 8 (Config.calVal d wd scale u))
  | .error code => (c, .ack code 0)

/-! ### The requests whole -/

/-- A request's place for its response on completion. -/
def TwineHead.ackTo (h : TwineHead) (crc : Word) (cls id : Nat) : AckTo :=
  let fi := h.frameId cls id
  { link := h.link.val, seq := h.seq.toNat, crc := crc, cls := fi.1, id := fi.2 }

/-- The same, from the request's payload. -/
def TwineHead.ackFor (h : TwineHead) (cls id : Nat) (p : List Byte) : AckTo :=
  let fi := h.frameId cls id
  h.ackTo (frameCrc fi.1 fi.2 h.seq.toNat p) cls id

/-- HELLO, whose layout no catalogue changes. -/
def Core.helloReq (c : Core) (t : Clock) (h : TwineHead) (p : List Byte) : Core :=
  c.requestWith t { h with old := none } (frameCrc 0 1 h.seq.toNat p) 0 1 fun c => c.hello h.link.val p

/-- BYE: acknowledged, then the session closes. -/
def Core.byeReq (c : Core) (t : Clock) (h : TwineHead) (p : List Byte) : Core :=
  let c1 := c.request t h 0 3 p fun c _ => (c.onLink h.link.val LinkSt.close, .ack 0 0)
  if (c1.link h.link.val).opened then c1 else c1.onLink h.link.val fun k => { k with memory := [] }

/-- A request that waits for a Spool record, or a console's STORE, is answered with a code of R411 (R409). -/
def Core.ackCommit (c : Core) (a : AckTo) (code : Nat) : Core :=
  if a.link = 2 then c.conSay a.id 0 [code] else c.ackLater a code 0

/-- Once Spool is read-only every write that waits is refused with NVMERR (R403). -/
def Core.refuseQueued (c : Core) : Core :=
  if ¬ c.flag F.NVM_STAT.RDONLY then c
  else
    let acks := c.nvm.queue.flatMap fun r => r.olds ++ r.ack.toList
    acks.foldl (fun (c : Core) a => c.ackCommit a 3) (c.onNvm fun n => { n with queue := [] })

end Sys2Proof.Machine
end

