-- ==== Sys2Proof/Machine/Outputs.lean ====
section
/-! DEFINITION. What Distaff sends of its own (R450 to R455), RXBASE's rule (R253) and the tables that it computes (R254, R261, R264). -/
namespace Sys2Proof.Machine

/-! ### Queues forwarded (R448) -/

/-- At most `n` entries taken from a queue by its register reads, as the pairs of words that the reads return. -/
def Core.drain (rd : Core → Core × Word) (hi : Nat) : Nat → Core → Core × List Byte
  | 0, c => (c, [])
  | n + 1, c =>
    let r := rd c
    if bits r.2 31 31 = 0 then (c, [])
    else
      let q := Core.drain rd hi n r.1
      (q.1, leBytes 4 r.2.toNat ++ leBytes 4 (r.1.reg hi).toNat ++ q.2)

/-- Entries of a queue sent as one message of repeated units; nothing is taken without a session. -/
def Core.forward (c : Core) (cls id : Nat) (rd : Core → Core × Word) (hi : Nat) : Core :=
  if ¬ c.distaffServes ∨ ¬ c.anySession then c
  else let r := Core.drain rd hi 512 c
       if r.2 = [] then c else r.1.broadcast cls id fun _ => r.2

/-! ### MEAS (R450, R451) -/

/-- An entry of the output buffer. -/
def Core.outWords (c : Core) (i : Nat) : List Word := c.mem.words (outEntry i) 10

/-- The signal code and satellite number that Distaff holds for a ply. -/
def Core.sigOf (c : Core) (p : Nat) : Nat × Nat := mapGet (fun _ => (0xFF, 0xFF)) c.dst.sigs p

/-- An entry as Twine carries it: a record gets the signal code and satellite number that Distaff holds. -/
def Core.signed (c : Core) (e : List Word) : List Word :=
  let w := wordOf e 0
  if bits w 15 14 = 1 then e
  else
    let s := c.sigOf (bits w 9 0)
    e.set 0 (putBits (putBits w 31 24 s.1) 23 16 s.2)

/-- The entries of an occurrence cut into the payloads of its frames, 102 entries each. -/
def measFrames (occ npart : Nat) : Nat → Nat → List (List Word) → List (List Byte)
  | 0, _, _ => []
  | k + 1, part, es =>
    (leBytes 1 part ++ leBytes 1 npart ++ leBytes 2 occ ++ (es.take 102).flatMap wordBytes) :: measFrames occ npart k (part + 1) (es.drop 102)

/-- The oldest occurrence in the output buffer forwarded; Distaff, its reader, goes past it. -/
def Core.meas (c : Core) : Core :=
  let ord := c.fld F.PLAN_ORD.ORD
  if ¬ c.distaffServes ∨ ¬ c.anySession ∨ c.outFill = 0 then c
  else
    let n := bits (wordOf (c.outWords ord) 0) 31 16 + 1
    let es := (List.range n).map fun i => c.signed (c.outWords (ord + i))
    let npart := ceilDiv n 102
    let fs := measFrames (wordOf (c.outWords ord) 2).toNat npart npart 0 es
    (fs.foldl (fun (c : Core) f => c.broadcast 2 1 fun _ => f) c).setFld F.PLAN_ORD.ORD ((ord + n) % 4096)

/-! ### PVT and TIME (R452) -/

/-- A signed field of the solution record. -/
def solInt (r : List Byte) (o n : Nat) : Int := signedOf (8 * n) (leAt r o n)

/-- Degrees × 10^7 and mm, rounded. -/
def e7 (q : Rat) : Nat := unsignedOf 32 (satSigned 32 (roundRat (q * 10000000)))
def milli (q : Rat) : Nat := unsignedOf 32 (satSigned 32 (roundRat (q * 1000)))

/-- The position, velocity and geodetic position of a solution record. -/
def solPos (r : List Byte) : List Rat := (List.range 3).map fun i => scaled (solInt r (8 + 8 * i) 8) 16
def solVel (r : List Byte) : List Rat := (List.range 3).map fun i => scaled (solInt r (32 + 4 * i) 4) 16

/-- GPST at a solution's t_u in ns since the GPS time origin: receiver time less the clock bias (R253). -/
def Core.solGpst (c : Core) (now : Nat) (r : List Byte) : Int :=
  (c.rxt (fullEpoch now (leAt r 0 4)) * 1000000 : Nat) - roundRat (scaled (solInt r 44 8) 16 / lightSpeed * 1000000000)

/-- True heading of R265 in rad × 2^29: Focus slot 20 in TRACK with the attitude states selected, else baseline 0's product less the
direction of its body vector. -/
def Core.trueHeading (c : Core) (r : List Byte) : Nat :=
  let p := c.mem.words (headProduct 0) 8
  let body := c.bodyVector 0
  if 0x700000 &&& c.stsel = 0x700000 ∧ leAt r 4 1 = 3 then leAt r 68 4
  else if bits (wordOf p 0) 31 31 = 1 then
    let off := Config.atan2Turns (body.getD 1 0) (body.getD 0 0) * (2 * Config.pi)
    unsignedOf 32 (roundRat (wrapAngle (scaled (signedOf 32 (wordOf p 2).toNat) 29 - off) * 536870912))
  else 0x80000000

/-- The PVT payload of a solution record; the dilutions of precision are not stated and are free (log entry 5). -/
def Core.pvtBytes (c : Core) (now : Nat) (r : List Byte) : List Byte :=
  let sc := c.outScale
  let ns := c.solGpst now r + ((c.scaleOfs sc.1).getD 0).fdiv 65536
  let week := ns / 604800000000000
  let g := Config.geodetic (solPos r)
  let v := Config.northEastDown (solPos r) (solVel r)
  let nsv := (belowSuch 1024 (c.givesRows (fullEpoch now (leAt r 0 4)))).length
  r.take 5 ++ leBytes 1 (leAt r 5 1 % 8 + 8 * ofBool (!sc.2)) ++ leBytes 1 sc.1 ++ leBytes 1 nsv ++
    leBytes 2 (unsignedOf 16 week) ++ leBytes 2 0 ++ leBytes 8 (unsignedOf 64 (ns % 604800000000000)) ++
    leBytes 4 (e7 (g.getD 0 0)) ++ leBytes 4 (e7 (g.getD 1 0)) ++ leBytes 4 (milli (g.getD 2 0)) ++ leBytes 4 (milli (g.getD 3 0)) ++
    (List.range 3).flatMap (fun i => leBytes 4 (milli (v.getD i 0))) ++ (r.drop 56).take 8 ++ leBytes 4 (c.trueHeading r) ++
    leBytes 4 (Config.freeValue c.free).toNat

/-- PVT for the oldest solution record not yet sent. Sentences show the newest one. -/
def Core.pvt (c : Core) (t : Clock) : Core :=
  match c.out.sols with
  | [] => c
  | s :: rest =>
    if ¬ c.distaffServes then c
    else
      let p := c.pvtBytes t.epoch s.1
      let c1 : Core := { c with free := c.free + 1 }
      (c1.onOut fun o => { o with sols := rest, lastSol := some s.1 }).broadcast 3 1 fun _ => p

/-- The GPST second at a boundary. -/
def Core.gpsSecond (c : Core) (epoch : Nat) : Int := (c.modelAt ((epoch * 1000000 : Nat) : Rat) / 1000000000).floor

/-- TIME at the first boundary of a GPST second. -/
def Core.timeMsg (c : Core) (t : Clock) : Core :=
  if ¬ c.distaffServes ∨ ¬ c.epochsRun ∨ (0 < t.epoch ∧ c.gpsSecond t.epoch = c.gpsSecond (t.epoch - 1)) then c
  else
    let table := (List.range 6).flatMap fun k => c.mem.reads (timeScale k) 16
    let p := leBytes 4 t.epoch ++ table ++ leBytes 1 (c.inForce F.PLAN_OUTCFG.LS) ++ leBytes 1 c.flyState ++
      leBytes 4 (c.reg R.FLY_UNC).toNat ++ leBytes 4 (c.reg R.FLY_HOLDT).toNat ++ leBytes 4 (c.reg R.FLY_FREQ).toNat
    c.broadcast 3 2 fun _ => p

/-! ### TP and EVENT (R453, R454) -/

/-- The announcement of the next active edge of output `n`: one with MSG = 1 and a period of 100 ms or more. -/
def Core.tpMsg (c : Core) (n : Nat) : Core :=
  let x := c.tp n
  if ¬ c.distaffServes ∨ ¬ c.tpRuns n ∨ c.inForce (F.FLY_TP_CFG.MSG n) = 0 ∨ tpPeriod x.act.period < 100000000 then c
  else
    let label := x.tgt + ((tpDelayOf c.force n : Int) : Rat) / 1000 + (c.tpOff n).getD 0
    let pulseK : Bool := match x.step with | some s => !s.armed && decide (s.since + 50000000 ≤ c.edgeAt n) | none => false
    let limit := decide (c.flyState = flyLimit)
    let mark := limit && decide (c.inForce F.FLY_CFG.HOLDACT = 1)
    let delta := match x.step with | some s => roundRat s.delta | none => 0
    let flags := ofBool pulseK + 2 * ofBool x.stepNext + 4 * ofBool limit + 8 * ofBool mark + 16 * ofBool c.tpSuppressed
    let p := leBytes 1 n ++ leBytes 1 flags ++ leBytes 1 c.flyState ++ leBytes 1 x.act.scale ++ leBytes 4 0 ++
      leBytes 8 (unsignedOf 64 (roundRat label)) ++ leBytes 4 (c.reg R.FLY_UNC).toNat ++
      leBytes 4 (unsignedOf 32 (if pulseK ∨ x.stepNext then delta else 0)) ++ leBytes 8 0
    c.broadcast 3 3 (fun _ => p) (pulseK || x.stepNext)

/-- One event tag taken from the FIFO and sent. -/
def Core.eventMsg (c : Core) : Core :=
  match c.fly.evq with
  | [] => c
  | e :: _ =>
    if ¬ c.distaffServes ∨ ¬ c.anySession then c
    else
      let w := wordOf e.words
      let w3 := w 3
      let sidx := (w 0).toNat + 2 ^ 32 * (w 1).toNat
      let known := decide (c.flyState ≠ flyNotime) && e.time.isSome
      let m := e.time.getD 0
      let ps := ((m - (m.floor : Rat)) * 1000).floor
      let p := leBytes 1 (bits w3 6 4) ++ leBytes 1 (bits w3 8 8 + 2 * ofBool known) ++ leBytes 2 0 ++ leBytes 4 (w 2).toNat ++
        leBytes 8 sidx ++ leBytes 8 (if known then unsignedOf 64 m.floor else 0) ++ leBytes 2 (if known then ps.toNat else 0) ++
        leBytes 2 0
      c.readEventQ.1.broadcast 3 4 fun _ => p

/-! ### STATUS and NOTICE (R455) -/

/-- Receiver time is known within `bound` ns (R266). -/
def Core.timeKnown (c : Core) (bound : Nat) : Bool :=
  decide ((c.flyState ≠ flyNotime ∧ (c.reg R.FLY_UNC).toNat ≤ bound) ∨ c.fld F.WHL_TRUST.SUM = 0)

/-- The OSNMA status of a satellite (R266): OFF, NODATA, UNSUP, TIMEUNK, else what its data give. -/
def Core.osnStatus (c : Core) (s : OsnmaSat) : Byte :=
  if c.settingNat 15 = 0 then 0
  else if s.status = 1 then 1
  else if s.p521 then 6
  else if ¬ c.timeKnown s.bound then 5
  else s.status

/-- VALID cleared in the entries of a Galileo satellite (R266). -/
def Core.dropSat (c : Core) (sv : Nat) : Core :=
  let hit := belowSuch 1024 fun p => decide ((c.sigOf p).1 / 16 = 2 ∧ (c.sigOf p).2 = sv)
  hit.foldl (fun c p => c.writeSat p 0 (putBits (c.foc.shadow.word (satEntry p)) 31 31 0)) c

/-- A status taken note of: FAIL with OSN_POL = 1 takes the satellite from Focus until AUTH (R266). -/
def Core.judgeOsnma (c : Core) (s : OsnmaSat) : Core :=
  let st := c.osnStatus s
  let sv := s.sv.toNat
  if st = 3 then c.onDst fun d => { d with osnFail := d.osnFail.filter (· != sv) }
  else if st = 4 then
    applyIf (decide (c.settingNat 16 = 1)) (·.dropSat sv) (c.onDst fun d => { d with osnFail := insertNat sv d.osnFail })
  else c

/-- An entry of Distaff's table written, word 0 last (R183); under OSN_POL = 1 a satellite in FAIL stays without VALID (R266). -/
def Core.publishSat (c : Core) (p : Nat) (ws : List Word) : Core :=
  let barred := decide (c.settingNat 15 = 1 ∧ c.settingNat 16 = 1 ∧ (c.sigOf p).1 / 16 = 2) && c.dst.osnFail.contains (c.sigOf p).2
  let word := fun (k : Nat) (w : Word) => if k = 0 ∧ barred then putBits w 31 31 0 else w
  ws.zipIdx.reverse.foldl (fun c q => if q.2 < 16 then c.writeSat p q.2 (word q.2 q.1) else c) c

/-- STATUS with the OSNMA status of each Galileo satellite (R266, R455). -/
def Core.status (c0 : Core) (t : Clock) (osnma : List OsnmaSat) : Core :=
  if ¬ c0.distaffServes ∨ ¬ c0.epochsRun then c0
  else
    let c := osnma.foldl Core.judgeOsnma c0
    let f := c.hot.foc
    let flags := ofBool c.rxValid + 2 * ofBool (decide (c.flyState = flyLimit)) + 4 * c.fld F.FLY_STAT.STEPPEND + 8 * ofBool f.aidLost
    c.broadcast 4 1 fun l =>
      leBytes 4 t.epoch ++ leBytes 1 c.pwrState ++ leBytes 1 (c.fld F.SYS_DSTLOAD.LEVEL) ++ leBytes 2 (c.fld F.SYS_DSTLOAD.BACKLOG) ++
        leBytes 1 c.flyState ++ leBytes 1 f.state ++ leBytes 1 (c.fld F.WHL_TRUST.SUM) ++ leBytes 1 flags ++
        leBytes 4 (c.reg R.FLY_UNC).toNat ++ leBytes 4 (c.link l).hostId ++ leBytes 4 (c.link l).crcErr ++
        leBytes 1 osnma.length ++ leBytes 3 0 ++ osnma.flatMap fun s => [s.sv, c.osnStatus s]

/-- A notice's payload. -/
def noticeBytes (epoch code : Nat) (detail : List Byte) : List Byte := leBytes 1 code ++ leBytes 3 0 ++ leBytes 4 epoch ++ fitTo 8 detail

/-- The next notice of a link: DROPPED as soon as space allows, then the oldest one waiting. -/
def Core.notice (c : Core) (t : Clock) (l : Nat) : Core :=
  let k := c.link l
  if ¬ c.distaffServes ∨ ¬ k.opened then c
  else if 0 < k.lost then
    let room := if l = 1 then outTop - c.outAvail else uartOutTop - k.outq.length
    if room < 28 then c else (c.onLink l fun x => { x with lost := 0 }).tellHost l 4 2 (noticeBytes t.epoch 7 (leBytes 8 k.lost))
  else
    match k.notices with
    | [] => c
    | n :: rest => (c.onLink l fun x => { x with notices := rest }).tellHost l 4 2 (noticeBytes t.epoch n.1 n.2)

/-! ### Results and products -/

/-- The result record of a completed Prism job. -/
def Core.acqResult (c : Core) (tag : Nat) : Core :=
  match c.job tag with
  | some j =>
    let d := PrmDesc.of j.desc
    if ¬ c.distaffServes ∨ j.cls ≠ 0 ∨ j.live then c
    else c.broadcast 6 3 fun _ => c.mem.reads (resultBuf d.rbuf) (32 + 32 * d.k)
  | none => c

/-- The heading product of a baseline. -/
def Core.headMsg (c : Core) (b : Nat) : Core :=
  if ¬ c.distaffServes then c else c.broadcast 2 3 fun _ => c.mem.reads (headProduct b) 32

/-! ### Tables that Distaff writes (R254, R261, R264) -/

/-- The newest occurrence of a group in the output buffer, looked for backwards from entry `i`. -/
def Core.lastOcc (c : Core) (g : Nat) : Nat → Nat → Option (List (List Word))
  | 0, _ => none
  | k + 1, i =>
    let w := wordOf (c.outWords i) 0
    if bits w 15 14 = 1 ∧ bits w 3 0 = g then some ((List.range (bits w 31 16 + 1)).map fun j => c.outWords (i + j))
    else c.lastOcc g k ((i + 4095) % 4096)

def Core.occurrence (c : Core) (g : Nat) : List (List Word) := (c.lastOcc g 4095 ((c.fld F.PLAN_OWR.OWR + 4095) % 4096)).getD []

/-- A range anchor. -/
def Core.writeAnchorOf (c : Core) (p sys : Nat) (ea : Word) (txa : Nat) : Core :=
  let ws := [BitVec.ofNat 32 (2 ^ 31 + sys % 8 * 2 ^ 28), ea, BitVec.ofNat 32 txa, BitVec.ofNat 32 (txa / 2 ^ 32)]
  { c with mem := c.mem.putWords (rangeAnchor p) ws }

/-- A Focus slot's estimate, where the slot is selected and the filter is in TRACK (log entry 132). -/
def Core.slotEstimate (c : Core) (i : Nat) : Option Rat :=
  if bitOf c.stsel i && c.hot.foc.state == 3 then some (c.hot.foc.num.slot i) else none

/-- A leap second announced with the UTC parameters in use; one already known stays as it was first announced (R286). -/
def takeLeap (old : Option LeapSecond) (ls : Int) (leap : Nat × Bool) : Option LeapSecond :=
  match old with
  | some l => if l.day = leap.1 then some l else some { day := leap.1, before := ls, inserted := leap.2 }
  | none => some { day := leap.1, before := ls, inserted := leap.2 }

/-- A time-scale entry written; the pulse grid follows it (R282, R283). -/
def Core.scaleWrite (c : Core) (t : Clock) (k : Nat) (utc : Vector (Option (Int × Int)) 3) (bcast : Option Int)
    (leap : Option (Nat × Bool)) : Core :=
  let known := fun (old : Option LeapSecond) =>
    match utcInUse utc, leap with
    | some u, some l => takeLeap old u.1 l
    | _, _ => old
  ((c.writeTimeScale t.epoch k utc bcast c.slotEstimate).onDst fun d => { d with leap := known d.leap }).flyScale t.ns k

/-! ### RXBASE (R253) -/

/-- RXBASE given a value through a group 9 commit, as soon as group 9 takes one. -/
def Core.commitRx (c : Core) (t : Clock) (v : Int) : Core :=
  if c.sealed 9 then c
  else
    let w := unsignedOf 48 v
    ((c.stageReg 9 R.PLAN_RXBASE_LO (BitVec.ofNat 32 w)).stageReg 9 R.PLAN_RXBASE_HI (BitVec.ofNat 32 (2 ^ 31 + w / 2 ^ 32))).planCommit t
      (2 ^ 9)

/-- Distaff's rule for RXBASE: GPST rounded to the ms at the first fix, then 1 ms at a time against a clock bias above half of that, in the
direction that reduces it (log entry 177). -/
def Core.steerRx (c : Core) (t : Clock) : Core :=
  let b := c.hot.foc.num.slot 9
  if ¬ (c.hot.foc.state = 3 ∨ c.hot.foc.state = 4) then c
  else if ¬ c.rxValid then c.commitRx t ((c.rxBase : Int) - roundRat (b / lightSpeed * 1000))
  else if lightSpeed / 2000 < magRat b then c.commitRx t ((c.rxBase : Int) + if 0 < b then 1 else -1)
  else c

/-- A contributing ply of a baseline (R263): the ply, SD in 1/1,024 cycle, the band, the wavelength, and whether a record carries SLIP or
RESET. -/
structure SingleDiff where
  ply : Nat
  phase : Int
  band : Nat
  lambda : Rat
  broken : Bool
deriving DecidableEq, Repr

/-- The single differences of a baseline in the newest occurrence of its group (R263). -/
def Core.singleDiffs (c : Core) (b : Nat) : List SingleDiff :=
  let s := c.setting (9 + b)
  let es := c.occurrence (leAt s 12 4)
  let band := fun (p m : Nat) =>
    bits (c.force.reg (R.BOB_STRCFG (c.live (((c.bind p).members.find? fun x => x.idx == m).map (·.strand) |>.getD 0)).stream)) 7 6
  let phase := fun (e : List Word) => signedOf 64 ((wordOf e 4).toNat + 2 ^ 32 * (wordOf e 5).toNat)
  let ok := fun (e : List Word) => bits (wordOf e 7) 1 1 == 1 && bits (wordOf e 7) 4 4 == 0
  let broken := fun (e : List Word) => bits (wordOf e 7) 7 6 != 0
  es.tail.filterMap fun e =>
    let w := wordOf e 0
    let p := bits w 9 0
    let bd := c.bind p
    if bits w 13 12 = bd.main.idx ∧ bits w 11 10 = leAt s 4 4 ∧ ok e then
      (es.tail.find? fun f => let v := wordOf f 0
        bits v 9 0 == p && bits v 11 10 == leAt s 8 4 && ok f && bits v 13 12 != bd.main.idx &&
          (bd.members.any fun m => m.idx == bits v 13 12 && m.role == 2 && m.crat == 2 ^ 30) &&
          band p (bits v 13 12) == band p bd.main.idx).map fun f =>
        { ply := p, phase := phase f - phase e, band := band p bd.main.idx, lambda := bd.lambda, broken := broken e || broken f }
    else none

/-- The receiver's position, and a satellite as seen from it at an epoch, in m. -/
def Core.position (c : Core) : List Rat := (List.range 3).map c.hot.foc.num.slot
def Core.sightOf (c : Core) (epoch p : Nat) : List Rat :=
  let x := (satMotion epoch (c.sat p)).1
  let r := c.position
  [x.1 - r.getD 0 0, x.2.1 - r.getD 1 0, x.2.2 - r.getD 2 0]

/-- The square of the sine of an elevation, with the elevation's sign: what elevations are ordered by. -/
def Core.elevationOrder (c : Core) (los : List Rat) : Rat :=
  let up := -((Config.northEastDown c.position los).getD 2 0)
  up * magRat up / ((los.map fun v => v * v).sum)

/-- The entry of a list with the largest key, the first of several. -/
def largest {α : Type} (key : α → Rat) : List α → Option α
  | [] => none
  | a :: r => match largest key r with
    | some b => if key a < key b then some b else some a
    | none => some a

/-- The double differences of a baseline (R264): within each band group against the contributing ply of the highest elevation. -/
def Core.doubleDiffs (c : Core) (epoch : Nat) (ds : List SingleDiff) : List DoubleDiff :=
  (List.range 4).flatMap fun band =>
    let g := ds.filter fun d => d.band == band
    match largest (fun d => c.elevationOrder (c.sightOf epoch d.ply)) g with
    | none => []
    | some r => (g.filter fun d => d.ply != r.ply).map fun d =>
        { ply := d.ply, ref := r.ply, band := band, phase := d.phase - r.phase, lambda := d.lambda, sight := c.sightOf epoch d.ply,
          refSight := c.sightOf epoch r.ply }

/-- The ambiguity search of a baseline and its product, published only when fixed (R264): the integers kept stand, against the reference
ply of the moment, and a ply with SLIP or RESET is searched again. -/
def Core.headingSearch (c : Core) (t : Clock) (b : Nat) : Core :=
  let en := leAt (c.setting (9 + b)) 0 4
  let geo := c.setting (12 + b)
  let sd := c.singleDiffs b
  let len := (leAt geo 0 4 : Nat)
  if en = 0 ∨ sd = [] then c
  else
    let low := (wordOf ((c.occurrence (leAt (c.setting (9 + b)) 12 4)).headD []) 1)
    let ds := c.doubleDiffs (fullEpoch t.epoch low.toNat) sd
    let stands := c.dst.amb.filter fun a => !(sd.any fun d => decide (1024 * b + d.ply = a.1) && d.broken)
    let held := fun (p : Nat) => (stands.find? fun a => a.1 == 1024 * b + p).map (·.2)
    let kept := ds.filterMap fun d =>
      match held d.ply, held d.ref with | some n, some r => some (d.ply, n - r) | _, _ => none
    let r := Config.headingSearch ((len : Int) :: c.bodyVector b) c.position kept ds
    let found := ds.map fun d =>
      (d.ply, (((kept.find? fun a => a.1 == d.ply) <|> (r.1.find? fun a => a.1 == d.ply)).map (·.2)).getD 0)
    let good := decide (5 ≤ sd.length) && decide (magRat (r.2.2.2.1 - (len : Rat)) ≤ ((leAt geo 4 4 : Nat) : Rat)) &&
      decide (3 * r.2.1 ≤ r.2.2.1)
    if ¬ good then c.onDst fun d => { d with amb := stands }
    else
      let h := fun i => BitVec.ofNat 32 (unsignedOf 32 (r.2.2.2.2.getD i 0))
      let refs := (sd.filter fun d => !(found.any fun a => a.1 == d.ply)).map fun d => (d.ply, (0 : Int))
      let mine := (found ++ refs).map fun a => (1024 * b + a.1, a.2)
      (c.onDst fun d => { d with amb := (stands.filter fun a => a.1 / 1024 != b) ++ mine }).publishHeading b
        [BitVec.ofNat 32 (2 ^ 31 + min 127 sd.length * 2 ^ 24), low, h 0, h 1, h 2, h 3,
         BitVec.ofNat 32 (unsignedOf 32 (roundRat r.2.2.2.1)), 0]

end Sys2Proof.Machine
end

