-- ==== Sys2Proof/Machine/Eddeug.lean ====
section
/-! DEFINITION. The Eddeug console's commands and self-tests (R458 to R465). A reply's readings are numbers; its text is left out. -/
namespace Sys2Proof.Machine

/-! ### Lines (R458, R459) -/

/-- A command runs that has not ended: a self-test, or a STORE whose last record is not yet committed. -/
def Core.conBusy (c : Core) : Bool :=
  c.svc.test.isSome || c.nvm.queue.any fun r => r.ack.any fun a => a.link == 2

/-- A command line: input restarts the timers; a command that needs service mode answers ERR 3 outside it. -/
def Core.conLine (c : Core) (t : Clock) (cmd : Nat) (svc : Bool) (f : Core → Core) : Core :=
  if ¬ c.conLive then c
  else
    let c1 := c.conInput t
    if svc && !c1.serviceMode then c1.conSay cmd 3 [] else f c1

/-- Registers as the console reports them. -/
def Core.conRegs (c : Core) (t : Clock) (l : List Nat) : List Nat := l.map fun a => (c.regRead t a).2.toNat

def Core.conHelp (c : Core) (t : Clock) : Core := c.conLine t 1 false fun c => c.conSay 1 0 (List.range 15)

/-- Identity, firmware, boot, plan, the states of power, Flywheel, Focus and Whorl, the reset cause, and the die temperature (R461). -/
def Core.conSys (c : Core) (t : Clock) : Core :=
  c.conLine t 2 false fun c => c.conSay 2 0 (c.conRegs t [R.SYS_ID, R.SYS_FWVER, R.NVM_BOOTINFO, R.PLAN_IDACT, R.PWR_STAT,
    R.FLY_STAT, R.FOC_STAT, R.WHL_TRUST, R.PWR_RSTCAUSE] ++ [unsignedOf 32 c.fly.temp])

def Core.conStream (c : Core) (t : Clock) : Core :=
  c.conLine t 3 false fun c => c.conSay 3 0 (c.conRegs t ((List.range 8).flatMap fun n => [R.BOB_LVDS_STAT n, R.BOB_STRSTAT n]))

/-- The ply counts; then for each system the plies in PLL and their mean C/N0. -/
def Core.conTrack (c : Core) (t : Clock) : Core :=
  c.conLine t 4 false fun c =>
    let pll := (belowSuch 1024 fun p => (c.bind p).en && decide ((c.ply p).mode = mPll)).map fun p => (c.plySys p, (c.ply p).cn0Enc)
    let sys := (List.range 8).flatMap fun s =>
      let l := (pll.filter fun x => x.1 == s).map (·.2)
      [l.length, l.sum / max 1 l.length]
    c.conSay 4 0 (c.conRegs t [R.LPE_PLYCNT] ++ sys)

/-- The newest `n` FAULT records, byte by byte. -/
def Core.conFaults (c : Core) (t : Clock) (n : Nat) : Core :=
  c.conLine t 5 false fun c =>
    if n = 0 ∨ 64 < n then c.conSay 5 4 []
    else c.conSay 5 0 ((((c.spoolLive.filter fun r => r.key == 0x300).reverse.take n).flatMap (·.payload)).map (·.toNat))

/-- MON's source, with the level that the source has then, in mV after its scale (R461). -/
def Core.conMon (c : Core) (t : Clock) (src : Nat) (mv : Int) : Core :=
  c.conLine t 6 false fun c => if 31 < src then c.conSay 6 2 [] else (c.monSelect src mv).conSay 6 0 []

/-! ### Meter mode (R462 to R464) -/

/-- A ball read; `board` is the level that the board gives it. -/
def Core.conPin (c : Core) (t : Clock) (n : Nat) (board : Bool) : Core :=
  c.conLine t 7 false fun c =>
    if (pinBank n).isNone then c.conSay 7 2 []
    else let c1 := c.boardPin n board; c1.conSay 7 0 [ofBool (c1.pinLevel n)]

/-- A ball's override: 1 low, 2 high, 3 high impedance, 0 release. -/
def Core.conPinSet (c : Core) (t : Clock) (n mode : Nat) : Core :=
  c.conLine t 8 true fun c =>
    if (pinBank n).isNone then c.conSay 8 2 [] else let r := c.setOverride n mode; r.1.conSay 8 r.2 []

/-! ### Memory, STORE, service mode -/

/-- `n` words read; `badAt` is the place of a word on which the copies of a pair disagree (R313). -/
def Core.conRd (c : Core) (t : Clock) (a n badAt : Nat) : Core :=
  c.conLine t 9 false fun c =>
    if n = 0 ∨ 64 < n then c.conSay 9 4 []
    else let r := c.busReads t a badAt n; ({ r.1 with readData := r.2.1 } : Core).conSay 9 0 (r.2.1.map (·.toNat))

def Core.conWr (c : Core) (t : Clock) (a : Nat) (w : Word) : Core :=
  c.conLine t 10 true fun c => (c.busWrite t a w).conSay 10 0 []

/-- STORE from the console: its result code comes at once or once the batch is committed (R411). -/
def Core.conStore (c : Core) (t : Clock) : Core :=
  c.conLine t 13 false fun c =>
    let r := c.store (some { link := 2, seq := 0, crc := 0, cls := 0, id := 13 })
    if r.2.2 then r.1.conSay 13 0 [r.2.1] else r.1

def Core.conServiceOn (c : Core) (t : Clock) : Core := c.conLine t 14 false fun c => (c.serviceOn t).conSay 14 0 []

def Core.conConfirm (c : Core) (t : Clock) : Core :=
  c.conLine t 14 false fun c => let r := c.serviceConfirm t; r.1.conSay 14 (if r.2 then 0 else 7) []

def Core.conServiceOff (c : Core) (t : Clock) : Core := c.conLine t 14 false fun c => (c.serviceEnd t).conSay 14 0 []

/-- "tsg" sets one entry of the generator and the streams substituted, and commits group 13 (R466). -/
def Core.conTsg (c : Core) (t : Clock) (mask i : Nat) (ws : List Word) : Core :=
  c.conLine t 12 true fun c =>
    if 15 < i ∨ 255 < mask ∨ ws.length ≠ 8 then c.conSay 12 4 []
    else if c.sealed 13 then c.conSay 12 7 []
    else
      let c1 := (List.range 8).foldl (fun (c : Core) k => c.setReg ((tsgWords.getD k R.TSG_SIG_W0) i) (wordOf ws k)) c
      (((c1.setReg R.TSG_SUB (BitVec.ofNat 32 mask)).touch 13).planCommit t (2 ^ 13)).conSay 12 0 []

/-! ### Self-tests (R465) -/

/-- A test that takes no time: PASS or FAIL with its readings. -/
def Core.quickTest (c : Core) (t : Clock) (kind : Nat) (svc : Bool) (f : Core → Bool × List Nat) : Core :=
  c.conLine t kind svc fun c => let r := f c; c.conSay kind 0 (ofBool r.1 :: r.2)

/-- A test that runs begins. -/
def Core.beginTest (c : Core) (t : Clock) (kind arg base : Nat) (tag : Option Nat) : Core :=
  c.onSvc fun s => { s with test := some { kind := kind, arg := arg, start := t.abs, base := base, tag := tag, kept := c.tsgForce } }

/-- What a test had taken is given back at its end: a skein's plies start again from IDLE, Focus from INIT, the tag is freed, the
streams carry their pins again. -/
def Core.endTest (c : Core) (t : Clock) (r : RunTest) : Core :=
  let c1 := c.onSvc fun s => { s with test := none }
  if r.kind = 35 then c1.idlePlies t.epoch (128 * r.arg) 128
  else if r.kind = 36 then c1.onFoc fun f => { f with restart := true }
  else if r.kind = 37 then
    match r.tag with
    | some g => (c1.onPlan fun p => { p with jobs := p.jobs.filter fun j => j.tag != g }).recountJobs
    | none => c1
  else if r.kind = 45 then c1.commitTsg t r.kept
  else c1

/-- The running test of a kind and argument ends, with what `f` finds: not yet, or PASS or FAIL with readings. -/
def Core.testEnds (c : Core) (t : Clock) (kind arg : Nat) (f : Core → RunTest → Option (Core × Bool × List Nat)) : Core :=
  match c.svc.test with
  | some r =>
    if r.kind = kind ∧ r.arg = arg then
      match f c r with
      | some q => (q.1.endTest t r).conSay kind 0 (ofBool q.2.1 :: (q.2.2 ++ [t.abs - r.start]))
      | none => c
    else c
  | none => c

/-- Ctrl-C: the running self-test ends with ERR 6. -/
def Core.ctrlC (c : Core) (t : Clock) : Core :=
  if ¬ c.conLive then c
  else
    let c1 := c.conInput t
    match c1.svc.test with
    | some r => (c1.endTest t r).conSay r.kind 6 []
    | none => c1

/-- The limits of R342 in mV for MON sources 1 to 7: VCORE, VMAIN, VBAT, VSAMP, VPLL, VIO_A, VIO_B. -/
def railLimits : List (Nat × Nat) :=
  [(760, 880), (1700, 3600), (1100, 3600), (1710, 1890), (1710, 1890), (1700, 3600), (1700, 3600)]

/-- The rails as converted, in mV. -/
def Core.testSupply (c : Core) (t : Clock) (mv : List Nat) : Core :=
  c.quickTest t 32 false fun _ =>
    (decide (mv.length = 7) && (mv.zip railLimits).all fun x => decide (x.2.1 ≤ x.1 ∧ x.1 ≤ x.2.2), mv)

/-- Lock and control voltages of both PLLs in mV, and REFCLK's error in ppm of the frequency selected. -/
def Core.testPll (c : Core) (t : Clock) (lockA lockB : Bool) (mvA mvB : Nat) (ppm : Int) : Core :=
  let within := fun (v : Nat) => decide (300 ≤ v ∧ v ≤ 900)
  c.quickTest t 33 false fun _ =>
    (lockA && lockB && within mvA && within mvB && decide (ppm.natAbs ≤ 15000), [mvA, mvB, unsignedOf 32 ppm])

/-- Stream `n` trains again (R88). -/
def Core.testLvds (c : Core) (t : Clock) (n : Nat) : Core :=
  c.conLine t 34 true fun c => (c.train (2 ^ n)).beginTest t 34 n 0 none

def Core.testLvdsEnd (c : Core) (t : Clock) (n : Nat) : Core :=
  c.testEnds t 34 n fun c _ =>
    let s := c.fld (F.BOB_LVDS_STAT.STATE n)
    let eye := c.fld (F.BOB_LVDS_STAT.EYEMIN n)
    if s = lvdsTraining then none else some (c, decide (s = lvdsLocked ∧ 32 ≤ eye), [eye])

/-- The lanes and the slice of skein `k`, or slice 8, are driven with a fixed pattern. -/
def Core.testSkein (c : Core) (t : Clock) (k : Nat) : Core := c.conLine t 35 true fun c => c.beginTest t 35 k 0 none
def Core.testSkeinEnd (c : Core) (t : Clock) (k : Nat) (good : Bool) : Core := c.testEnds t 35 k fun c _ => some (c, good, [])
def Core.testLoupe (c : Core) (t : Clock) : Core := c.conLine t 36 true fun c => c.beginTest t 36 0 0 none
def Core.testLoupeEnd (c : Core) (t : Clock) (good : Bool) : Core := c.testEnds t 36 0 fun c _ => some (c, good, [])

/-- A job on a ROM vector; it needs a PRISM slot in the running plan and a free tag. -/
def Core.testPrism (c : Core) (t : Clock) : Core :=
  c.conLine t 37 false fun c =>
    if c.longestPrism = 0 ∨ (c.submitRefusal 0).isSome then c.conSay 37 7 []
    else
      let tag := c.freeTag
      let c1 := c.submitJob fun tag seq =>
        { tag := tag, cls := 0, seq := seq, prio := 0, phase := .queued, desc := [], cursor := none, prism := none, total := 0, moved := 0 }
      c1.beginTest t 37 0 0 tag

/-- The peak's cell and delay, and PEAK and SECOND. -/
def Core.testPrismEnd (c : Core) (t : Clock) (pidx : Nat) (pk : Int) (peak second : Nat) : Core :=
  c.testEnds t 37 0 fun c _ =>
    some (c, decide (pidx = 1234 ∧ pk = 0 ∧ 20 * second ≤ peak), [pidx, unsignedOf 32 pk, peak, second])

def Core.testHank (c : Core) (t : Clock) (same : Bool) : Core := c.quickTest t 38 false fun _ => (same, [])

/-- Every sector read: corrected and uncorrectable words. -/
def Core.testNvm (c : Core) (t : Clock) (corr unc : Nat) : Core :=
  c.quickTest t 39 false fun c =>
    (decide (unc = 0) && c.flag F.NVM_SPOOL.MOUNTED, [corr, unc] ++ c.conRegs t [R.NVM_WEAR0, R.NVM_WEAR1, R.NVM_SPOOL])

def Core.testFacet (c : Core) (t : Clock) (sha ecdsa : Bool) : Core := c.quickTest t 40 false fun _ => (sha && ecdsa, [])

/-- Whorl's ticks counted over 10 s against the sample index. -/
def Core.testWhorl (c : Core) (t : Clock) : Core := c.conLine t 41 false fun c => c.beginTest t 41 0 c.whl.count none
def Core.testWhorlEnd (c : Core) (t : Clock) (rateOk : Bool) : Core :=
  c.testEnds t 41 0 fun c r =>
    if t.abs < r.start + 10000 * fcPerEpoch then none
    else some (c, rateOk && decide (c.fld F.WHL_TRUST.SUM = 0 ∧ 1100 ≤ c.whl.vbat),
      [(c.whl.count + two48 - r.base) % two48, c.fld F.WHL_TRUST.SUM, c.whl.vbat])

/-- EVTn toggled by Reel every 40,960 Ts for 1 s, its edges tagged (R291). -/
def Core.testReel (c : Core) (t : Clock) (n : Nat) : Core :=
  c.conLine t 42 true fun c => c.beginTest t 42 n (vecAt 0 c.fly.evCount n) none
def Core.testReelEnd (c : Core) (t : Clock) (n : Nat) : Core :=
  c.testEnds t 42 n fun c r =>
    if t.abs < r.start + 1000 * fcPerEpoch then none
    else
      let cfg := c.reg R.FLY_EVCFG
      let c1 := c.setReg R.FLY_EVCFG (putBits cfg (2 * n + 1) (2 * n) 3)
      let c2 := (List.range 2000).foldl (fun (c : Core) i => c.eventTag (r.start + 327680 * (i + 1)) n (i % 2 == 1)) c1
      let tags := (vecAt 0 c2.fly.evCount n + 2 ^ 32 - r.base) % 2 ^ 32
      some (c2.setReg R.FLY_EVCFG cfg, tags == 2000, [tags])

/-- Characters received of the 256 sent in loopback, and whether FE, PE or OVR came. -/
def Core.testUart0 (c : Core) (t : Clock) (got : Nat) (errs : Bool) : Core :=
  c.quickTest t 43 true fun _ => (decide (got = 256) && !errs, [got])

/-- A state-bit fault on pair `k` (R337). -/
def Core.testMirror (c : Core) (t : Clock) (k : Nat) : Core :=
  c.conLine t 44 true fun c =>
    if 9 < k then c.conSay 44 4 []
    else (c.mirInject t (putBits 0x4D490001#32 11 8 k) true).beginTest t 44 k (c.fld F.MIR_CNT.ROLLBACK) none
def Core.testMirrorEnd (c : Core) (t : Clock) (k : Nat) : Core :=
  c.testEnds t 44 k fun c r =>
    let n := c.fld F.MIR_CNT.ROLLBACK
    if c.mir.inj.isSome ∨ c.flag F.MIR_STAT.REC = true then none
    else some (c, decide (n = r.base + 1 ∧ (c.reg R.MIR_FAULT).toNat / 2 ^ 28 = srcDigest) && c.flag F.MIR_IRQ.RECOV, [n])

/-- Stream `n` substituted with four signals at 45.00 dB-Hz (R466). -/
def Core.testTsg (c : Core) (t : Clock) (n : Nat) : Core :=
  c.conLine t 45 true fun c =>
    if c.sealed 13 then c.conSay 45 7 []
    else
      let word := fun i k =>
        let w := Config.tsgTestWord n i k
        if k = 0 then putBits w 31 28 (8 + n) else if k = 1 then putBits w 31 16 4500 else w
      let c1 := (List.range 16).foldl (fun (c : Core) i =>
        if i < 4 then (List.range 8).foldl (fun (c : Core) k => c.setReg ((tsgWords.getD k R.TSG_SIG_W0) i) (word i k)) c
        else c.setFld (F.TSG_SIG_W0.EN i) 0) c
      (((c1.setReg R.TSG_SUB (BitVec.ofNat 32 (2 ^ n))).touch 13).planCommit t (2 ^ 13)).beginTest t 45 n 0 none
def Core.testTsgEnd (c : Core) (t : Clock) (n : Nat) (good : Bool) : Core := c.testEnds t 45 n fun c _ => some (c, good, [])

end Sys2Proof.Machine
end

