-- ==== Sys2Proof/Machine/RomImage.lean ====
section
/-! DEFINITION. The ROM default image (R76): its stream map, plan, strand templates, bindings, lifecycle table, coefficient sets and
program headers. What the spec does not print of it, the programs' bundles, is read through `Config.romImageByte`; its sections
PRISM_DUR and CATALOGUE are absent here, since the bounds of R205 and the catalogue of R448 stand for them. -/
namespace Sys2Proof.Machine

/-- Words as little-endian bytes. -/
def leWords (ws : List Nat) : List Byte := ws.flatMap (leBytes 4)

/-! ### Streams and plan -/

/-- A stream entry: EN with FMT 0 and INV 0, antenna 0, the band, 8 epochs, +4,000,000 Hz. -/
def romStream (band : Nat) : List Byte := leBytes 1 1 ++ leBytes 1 0 ++ leBytes 1 band ++ leBytes 1 8 ++ leBytes 4 4000000

/-- STREAM_MAP: S0 and S1; strands 0 to 255 on S0, 256 to 511 on S1. -/
def romStreamMap : List Byte :=
  romStream 0 ++ romStream 2 ++ List.replicate 48 0 ++
    List.replicate 128 0x00#8 ++ List.replicate 128 0x11#8 ++ List.replicate 768 0xFF#8

/-- A slot entry: RESOURCE, KIND, INDEX, START, LENGTH, period code, PARAM_A. -/
def romSlot (resource kind index start length period paramA : Nat) : List Byte :=
  leWords [start, period * 2 ^ 18 + length, index * 2 ^ 16 + kind * 2 ^ 12 + resource, paramA]

def romSlots : List (List Byte) :=
  [romSlot 0 kPort 0 2048 161792 0 0, romSlot 1 kPort 1 2048 161792 0 0,
   romSlot 0x10 kLoop 0 2048 161792 0 0, romSlot 0x11 kLoop 1 2048 161792 0 0,
   romSlot 0x18 kFocus 0 172032 40960 0xA 0, romSlot 0x31 kSolution 0 221184 512 0xA 0,
   romSlot 0x30 kRecord 0 409600 1344 0xF 256,
   romSlot 0x20 kPrism 0 0 245760 0 0, romSlot 0x20 kPrism 0 327680 245760 0 0]

/-- PLAN: ABI 1.0, PLAN_ID 1. -/
def romPlan : List Byte :=
  leBytes 1 1 ++ leBytes 1 0 ++ leBytes 2 romSlots.length ++ leBytes 4 1 ++ List.replicate 8 0 ++ romSlots.flatten

/-! ### Strand templates (R76, R140) -/

/-- A run of templates: the first strand, the first PRN and their number, the stream; main family with the Hank ID of PRN 1 where
the family is 0x00; the auxiliary family and ID alike; the chip rate, SCN, SID; ASID as its ID with whether it rises with the PRN;
CPMOD and SYMCP. -/
structure RomSignal where
  first : Nat
  prn : Nat
  count : Nat
  stream : Nat
  kfam : Nat
  aux : Option Nat
  abase : Nat
  rate : Nat
  scn : Nat
  sid : Option Nat
  asid : Option (Nat × Bool)
  cpmod : Nat
  symcp : Nat
deriving DecidableEq, Repr

def romSignals : List RomSignal :=
  [⟨0, 1, 32, 0, 0x01, none, 0, 1023000, 0, none, none, 20, 20⟩,
   ⟨32, 1, 63, 0, 0x02, some 0x03, 0, 1023000, 2, none, some (0x200, true), 1800, 1⟩,
   ⟨95, 1, 50, 0, 0x00, some 0x00, 0x040, 1023000, 2, none, some (0x303, false), 25, 1⟩,
   ⟨145, 1, 63, 0, 0x10, some 0x11, 0, 1023000, 2, none, some (0x260, true), 1800, 1⟩,
   ⟨208, 193, 10, 0, 0x01, none, 0, 1023000, 0, none, none, 20, 20⟩,
   ⟨218, 193, 10, 0, 0x02, some 0x03, 0, 1023000, 2, none, some (0x240, true), 1800, 1⟩,
   ⟨256, 1, 63, 1, 0x06, some 0x07, 0, 10230000, 0, some 0x300, some (0x301, false), 20, 10⟩,
   ⟨319, 1, 50, 1, 0x0B, some 0x0C, 0, 10230000, 0, some 0x304, some (0x140, true), 100, 20⟩,
   ⟨369, 1, 63, 1, 0x12, some 0x13, 0, 10230000, 0, some 0x307, some (0x2A0, true), 100, 5⟩,
   ⟨432, 193, 10, 1, 0x06, some 0x07, 0, 10230000, 0, some 0x300, some (0x301, false), 20, 10⟩]

/-- An index: the PRN of a generator family, a Hank ID from that of the run's first PRN for family 0x00. -/
def romIndex (fam base prn0 prn : Nat) : Nat := if fam = 0 then base + (prn - prn0) else prn

/-- The template of a run's `i`-th PRN (R119). CR = 25 × 2^39 brings 4,000,000 Hz; KR is the chip rate (R123). -/
def RomSignal.words (g : RomSignal) (i : Nat) : List Nat :=
  let prn := g.prn + i
  let kr := (2 * g.rate * 2 ^ 32 + 1250) / 2500
  let aux := g.aux.isSome
  let asid := match g.asid with | some (b, rises) => if rises then b + i else b | none => 0
  let afam := g.aux.getD 0
  let w10 := (if aux then romIndex afam g.abase g.prn prn else 0) * 2 ^ 21 + afam * 2 ^ 16 +
    romIndex g.kfam 0 g.prn prn * 2 ^ 5 + g.kfam
  let w11 := ofBool aux * 2 ^ 27 + g.scn * 2 ^ 22 + asid * 2 ^ 11 + g.sid.getD 0
  let w12 := 100 * 2 ^ 22 + 16 * 2 ^ 17 + 8 * 2 ^ 13 + 1
  let w13 := ofBool g.asid.isSome * 2 ^ 20 + ofBool g.sid.isSome * 2 ^ 19 + ofBool aux * 2 ^ 18 + g.symcp * 2 ^ 12 + g.cpmod
  [0, g.stream * 2 ^ 16 + 3200, 0, 0, kr % 2 ^ 32, kr / 2 ^ 32, 0, 0, 0, 0, w10, w11, w12, w13, 0, 0]

/-- The templates in strand order, and the number of the one of strand `s`. -/
def romTemplates : List (List Nat) := romSignals.flatMap fun g => (List.range g.count).map g.words
def romTemplateNo (s : Nat) : Nat := if s < 228 then s else if 256 ≤ s ∧ s < 442 then s - 28 else 0xFFFF

def romStrandTpl : List Byte :=
  leBytes 2 romTemplates.length ++ List.replicate 14 0 ++ (List.range 2048).flatMap (fun s => leBytes 2 (romTemplateNo s)) ++
    romTemplates.flatMap leWords

/-! ### Plies, lifecycle, coefficient sets -/

/-- Ply p: MAIN on strand p or p + 128, disabled; KNOM and KAID of GPS L1 C/A, or of GPS L5 with its carrier at 1,176.45 MHz. -/
def romPly (p : Nat) : List Byte :=
  let hi := decide (128 ≤ p)
  let knom := if hi then 10230000 else 1023000
  let kaid := if hi then (2 * 1023000 * 2 ^ 32 + 117645000) / (2 * 117645000) else 2788940
  leWords ([2 ^ 27 + 2 ^ 26 + 1 * 2 ^ 10 + 1, knom, kaid, 0, 2 ^ 13 + (if hi then p + 128 else p), 0x40000000, 0] ++ List.replicate 9 0)

def romPlyBind : List Byte := leBytes 2 256 ++ List.replicate 14 0 ++ (List.range 256).flatMap romPly

/-- A row of R177: state, condition with its parameter, next state, action with its set, notify code (0 none). -/
def romRow (state cond cpar next act set notify : Nat) : List Nat :=
  [2 ^ 31 + act * 2 ^ 16 + (if notify = 0 then 0 else 2 ^ 14) + cond * 2 ^ 8 + next * 2 ^ 4 + state,
   notify * 2 ^ 24 + set * 2 ^ 16 + cpar]

/-- The default lifecycle table (R177). -/
def romRows : List (List Nat) :=
  [romRow 0 0x0B 0 1 1 0 0, romRow 1 0x0C 0 0 7 0 0, romRow 1 0x0D 0 2 2 0 0, romRow 1 0x0E 0 0 7 0 0x01,
   romRow 1 0x01 200 0 7 0 0x02, romRow 2 0x0C 0 0 7 0 0, romRow 2 0x04 1000 3 3 0 0, romRow 2 0x01 2000 6 1 0 0x03,
   romRow 3 0x0C 0 0 7 0 0, romRow 3 0x02 0x6000 4 4 0x3E 0, romRow 3 0x01 5000 6 1 0 0x04, romRow 4 0x0C 0 0 7 0 0,
   romRow 4 0x0A 0 5 6 0 0, romRow 4 0x07 2200 5 6 0 0x05, romRow 4 0x09 4 3 3 0 0x06, romRow 4 0x03 0x2000 3 3 0 0x07,
   romRow 5 0x0C 0 0 7 0 0, romRow 5 0x06 2600 3 3 0 0, romRow 5 0x01 1000 6 1 0 0x08, romRow 6 0x0C 0 0 7 0 0,
   romRow 6 0x0B 0 1 1 0 0, romRow 6 0x01 10000 0 7 0 0x09]

def romLifecycle : List Byte := leBytes 2 romRows.length ++ List.replicate 14 0 ++ romRows.flatMap leWords

/-- A coefficient set of R160: CAID = 1 and DORD = 1 throughout. -/
def romSet (pord ford w0p w0f w0d : Nat) : List Nat :=
  [2 ^ 6 + 1 * 2 ^ 4 + ford * 2 ^ 2 + pord, w0p, w0f, w0d, 0x119A * 2 ^ 16 + 0x16A0, 0x16A0 * 2 ^ 16 + 0x2666, 0, 0]

def romLoopCoef : List Byte :=
  leBytes 2 4 ++ List.replicate 14 0 ++
    leWords (romSet 2 2 0x0021F657 0x0012DE30 0x00080000 ++ romSet 3 2 0x00131ED9 0x0003C60E 0x00040000 ++
      romSet 3 0 0x00065F9F 0 0x00020000 ++ romSet 2 0 0x0001E304 0 0x00020000)

/-! ### Programs (R202, R249) -/

/-- NBUN of the program of a section, 1 to 8,192, and its bundles: the spec prints neither. -/
def romNbun (sec : Nat) : Nat := 1 + ((Config.romImageByte sec 0).toNat + 256 * (Config.romImageByte sec 1).toNat) % 8192

/-- A program header with its bundles. -/
def romProgram (sec kmask bmode wcb wcbu : Nat) : List Byte :=
  leBytes 1 kmask ++ leBytes 1 bmode ++ leBytes 2 (romNbun sec) ++ List.replicate 4 0 ++ leWords [wcb, wcbu, 0] ++
    leBytes 2 0 ++ leBytes 2 0xFFFF ++ leBytes 2 0xFFFF ++ List.replicate 38 0 ++
    (List.range (16 * romNbun sec)).map fun i => Config.romImageByte sec (i + 2)

/-- LOUPE_PROG: the standard loop kernel (R249). -/
def romLoupeProg : List Byte := leBytes 2 1 ++ List.replicate 14 0 ++ romProgram 7 1 1 2048 1248

/-- FOC_PAR0 to FOC_PAR23 at their defaults, times 2^16 and rounded. -/
def romPars : List Nat :=
  [65536, 655, 655, 7, 655, 7, 7, 65536, 65536, 32768, 3277, 327680, 655360, 32768, 6554, 0, 0, 0, 0, 0, 0, 0, 0, 0]

/-- FOCUS_PROG: MMAX 128 and FVSET 3, slots 0 to 10, the default limits; every mode entry SCALAR with USE = 1; the standard Focus
program, whose bound is R179's (BMODE 2). -/
def romFocusProg : List Byte :=
  leBytes 2 1 ++ List.replicate 14 0 ++
    leWords [128 * 2 ^ 14 + 3 * 2 ^ 8, 0x7FF, 0, 4 * 2 ^ 16 + 10 * 2 ^ 8 + 20, 3000 * 2 ^ 16 + 3000, 1000 * 2 ^ 16 + 2000] ++
    leWords romPars ++ List.replicate 8 0 ++ List.replicate 512 0x44#8 ++ romProgram 8 4 2 0 0

/-- The ROM default image (R76). -/
def romDefault : Image :=
  { product := 0, patchLvl := 0,
    secs := [(1, romStreamMap), (2, romPlan), (3, romStrandTpl), (4, romPlyBind), (5, romLifecycle), (6, romLoopCoef),
      (7, romLoupeProg), (8, romFocusProg)] }

end Sys2Proof.Machine
end

