-- ==== Sys2Proof/Machine/Startup.lean ====
section
/-! DEFINITION. Resets, start-up (R468 to R474), the first epoch, and the save and wake of HIBERNATE (R358 to R365). A start-up answers
the epoch it has reached, where it reaches one. -/
namespace Sys2Proof.Machine

def Core.onBoot (c : Core) (f : BootSt → BootSt) : Core := { c with boot := f c.boot }

/-! ### Resets (R345, R368, R490) -/

/-- A reset of every domain but Whorl, with its cause: NVM, fuses, the Whorl domain, the supplies and the board stay. -/
def resetCore (c : Core) (cause : Nat) : Core :=
  let regs := RegMap.take resetRegs c.regs fun a => whorlBlock a || a == R.PWR_SUPSTAT
  let r : Core := { coreReset with
    regs := regs, mem := c.mem.filter fun x => inRange nvmBase 0x400000 x.1 || inRange backupRam 0x100 x.1,
    whl := c.whl, otp := c.otp, svc := { SvcSt.reset with pins := c.svc.pins }, free := c.free }
  (r.setFld F.PWR_RSTCAUSE.CAUSE cause).whorlCopies

/-- The registers of the always-on domain (R11): the power controller's and the strap latches. -/
def alwaysOnReg (a : Nat) : Bool := inRange 0x4000A000 0x100 a || a == R.SET_STRAP

/-- A reset of every domain but Whorl and always-on, with its cause (R345): the power controller keeps its registers and its wake
compare, and the state it leads is RUN again. -/
def railReset (c : Core) (cause : Nat) : Core :=
  let r := resetCore c cause
  let regs := RegMap.take r.regs c.regs alwaysOnReg
  let r1 : Core := { r with regs := regs, pwr := { PwrSt.reset with tick := c.pwr.tick } }
  ((r1.setFld F.PWR_STAT.OFFPH 0).setPwr pwRun).setFld F.PWR_RSTCAUSE.CAUSE cause

/-- The device is in BACKUP: Whorl alone is powered (R347). -/
def Core.enterBackup (c : Core) : Core :=
  ((resetCore c (c.fld F.PWR_RSTCAUSE.CAUSE)).setFld F.PWR_STAT.STATE pwBackup).onPwr (fun p => { p with coreEn := false })
    |>.onBob fun b => { b with fePwr := List.replicate 4 false }

/-! ### Step 2 and step 3: straps, Spool, anchors (R468 to R471) -/

def Core.stage (c : Core) (n code : Nat) : Core := (c.setFld F.SYS_BOOT.STAGE n).setFld F.SYS_BOOT.CODE code

def Core.latchStraps (c : Core) (w : Nat) : Core :=
  (c.setReg R.SET_STRAP (BitVec.ofNat 32 (w % 256))).onFly fun f => { f with ocxo := bitOf w 7 }

/-- The straps are read at the end of a power-on reset and at each release of RST_N; a start-up with another cause works with those
latched then (R468). -/
def Core.straps (c : Core) (env : BootEnv) : Nat :=
  if c.fld F.PWR_RSTCAUSE.CAUSE ≤ 2 then env.straps else (c.reg R.SET_STRAP).toNat

/-- ROM boot: Spool is mounted, a dirty half compacted, the anchors checked, W_R read, and the host interface becomes ready. -/
def Core.romBoot (c : Core) : Core :=
  let c1 := (c.stage 3 0).mountSpool
  let c2 := if c1.nvm.dirty then (c1.compactStart.compactEnd).onNvm fun n => { n with ops := [] } else c1
  let c3 := (c2.showOp.checkAnchor c2.boot.env.anchorBad).setFld F.QSP_FLAGS.READY 1
  match c3.spoolValue keyWroll with
  | some b => c3.onDst fun d => { d with wroll := leAt b 0 4 }
  | none => c3

/-! ### Step 4: the image (R70, R72, R76) -/

/-- The boot record changed at once, in Spool and in NVM_BOOTINFO. -/
def Core.bootWrite (c : Core) (active try_ : Nat) : Core := ((c.setBoot active try_).writeRec true).1

/-- The boot record as Spool holds it, in NVM_BOOTINFO (R71). -/
def Core.showBootRecord (c : Core) : Core :=
  (c.setFld F.NVM_BOOTINFO.ACTIVE c.bootRecord.1).setFld F.NVM_BOOTINFO.TRY c.bootRecord.2

/-- The boot record at a reset: TRY 2 turns to the other slot, TRY 1 becomes 2. -/
def Core.bootRecordStep (c : Core) : Core :=
  let r := c.bootRecord
  let c1 := c.showBootRecord
  if r.2 = 2 then (c1.bootWrite (1 - r.1) 0).setFld F.NVM_BOOTINFO.FALLBACK 1
  else if r.2 = 1 then c1.bootWrite r.1 2
  else c1

/-- The plan check at start-up (R34): its code, failing slots and half-epoch are reported. -/
def Core.startCheck (c : Core) (v : Verdict) : Core :=
  (c.setFld F.PLAN_STAT.CODE v.code).showVerdict v

/-- The ROM default image's plan passes its check (R505 shows PLAN_STAT 0 at its first epoch); its programs' bundles, which the check
would read, are not in the spec (log entry 210). -/
def romVerdict : Verdict := verdict 0 0 0

/-- One slot verified and its plan checked; a failure is recorded. -/
def Core.trySlot (c : Core) (k : Nat) : Core × Option Image :=
  let l := c.slotBytes k
  let code := verifyCode c.otp (bitOf c.boot.env.ecc k) l
  let c1 := c.slotVerdict k code l
  let img := imageOf l
  let plan := if code = 0 then (planCheck img).code else 0
  let c2 := applyIf (decide (code = 0)) (·.startCheck (planCheck img)) c1
  if code = 0 ∧ plan = 0 then (c2, some img)
  else ((c2.setFld F.NVM_BOOTINFO.FAILCODE (if code ≠ 0 then code else 0x80 + plan)).setFld F.NVM_BOOTINFO.FALLBACK 1, none)

/-- The slots in turn, then the ROM default image. -/
def Core.chooseSlot (c : Core) : Core × Image × ImageSrc :=
  let a := if c.fld F.NVM_BOOTINFO.ACTIVE = 1 then 1 else 0
  match c.trySlot a with
  | (c1, some img) => (c1, img, slotSrc a)
  | (c1, none) =>
    match c1.trySlot (1 - a) with
    | (c2, some img) => (c2, img, slotSrc (1 - a))
    | (c2, none) => (c2.startCheck romVerdict, romDefault, .romDefault)

/-! ### SYSCFG and stored values (R412, R469, R470) -/

/-- A rate that UARTn_RATE accepts (R418). -/
def syscfgRateOk (n r : Nat) : Bool := decide (1200 ≤ r ∧ r ≤ rateTop n)

/-- A SYSCFG body that keeps R470. -/
def syscfgOk (b : List Byte) : Bool :=
  let u := fun i => leAt b i 1
  decide (b.length = 32 ∧ (u 0 ≤ 4 ∨ u 0 = 0xFF) ∧ u 1 = 0 ∧ u 2 ≤ 3 ∧ u 3 < 64 ∧ u 20 < 32 ∧ u 21 < 32 ∧ u 20 / 4 % 4 ≠ 3 ∧
    u 21 / 4 % 4 ≠ 3) && syscfgRateOk 0 (leAt b 12 4) && syscfgRateOk 1 (leAt b 16 4) && zeroAt b 22 10

/-- The REFCLK frequency (R469): false where start-up holds with NOREF. -/
def Core.chooseRef (c : Core) (img : Image) : Core × Bool :=
  let s := c.fld F.SET_STRAP.REFSEL
  let b := img.sec .syscfg
  if s ≤ 4 then ((c.setFld F.SYS_BOOT.REFACT s).setFld F.SYS_BOOT.REFDET 0, true)
  else if img.has .syscfg ∧ syscfgOk b = true ∧ leAt b 0 1 ≤ 4 then
    ((c.setFld F.SYS_BOOT.REFACT (leAt b 0 1)).setFld F.SYS_BOOT.REFDET 0, true)
  else
    match c.boot.env.ref with
    | some f => ((c.setFld F.SYS_BOOT.REFACT f).setFld F.SYS_BOOT.REFDET 1, true)
    | none => (c, false)

/-- SYSCFG in the registers that it sets, or SYSDEF. -/
def Core.applySyscfg (c : Core) (img : Image) : Core :=
  let b := img.sec .syscfg
  if ¬ img.has .syscfg then c
  else if ¬ syscfgOk b then c.setFld F.SYS_BOOT.SYSDEF 1
  else
    let u := fun i => leAt b i 1
    let c1 := ((c.setFld F.PWR_CFG.DOZEEN (u 2 % 2)).setFld F.PWR_CFG.HIBEN (u 2 / 2)).setFld F.PWR_WAKEEN.SRC (u 3)
    let c2 := (c1.setReg R.PWR_DOZEIDLE (BitVec.ofNat 32 (leAt b 4 4))).setReg R.PWR_HIBIDLE (BitVec.ofNat 32 (leAt b 8 4))
    let c3 := (c2.uartRate 0 (BitVec.ofNat 32 (leAt b 12 4))).uartRate 1 (BitVec.ofNat 32 (leAt b 16 4))
    (c3.uartCfg 0 (BitVec.ofNat 32 (u 20))).uartCfg 1 (BitVec.ofNat 32 (u 21))

/-- The items of the persistent set that Spool holds, each with its number (R407). -/
def Core.storedItems (c : Core) : List (Nat × List Byte) :=
  (List.range (settingCount + persistRegs.length)).filterMap fun i => (c.spoolValue (persistKey i)).map fun b => (i, b)

/-- Stored values of settings and of registers that are not staged. -/
def Core.storedPlain (c : Core) (t : Clock) : Core :=
  c.storedItems.foldl (fun c x =>
    match persistRegs[x.1 - settingCount]? with
    | some a => if settingCount ≤ x.1 ∧ flyRegs.contains a = true then c else (c.setKey t (persistKey x.1) x.2).1
    | none => (c.setKey t (persistKey x.1) x.2).1) c

/-- Stored values of staged registers, staged. -/
def Core.storedStaged (c : Core) : Core :=
  c.storedItems.foldl (fun c x =>
    if x.1 < settingCount then c
    else
      match persistRegs[x.1 - settingCount]? with
      | some a => if flyRegs.contains a && x.2.length == 4 then c.setReg a (BitVec.ofNat 32 (leAt x.2 0 4)) else c
      | none => c) c

/-! ### The first epoch (step 10) -/

/-- What the ROM default image sets beyond its sections (R76): output group 0 at 1 Hz; TP0 one pulse per second on UTC. -/
def Core.romSettings (c : Core) (epoch : Nat) : Core :=
  let c1 := (c.setFld (F.PLAN_OGCFG.EN 0) 1).setFld (F.PLAN_OGCFG.PERIOD 0) 0xF
  let c2 := (c1.setFld (F.FLY_TP_CFG.MODE 0) 1).setFld F.FLY_TSCFG.TS0 4
  c2.applyGroups epoch [9, 10, 11]

/-- Training in step 6, by what the board brings to each stream (R82, R83). It ends before the first sample, so it leaves no ZFILL. -/
def Core.bootTraining (c : Core) : Core :=
  forBelow 8 (fun (c : Core) n =>
    let c1 := c.setFld (F.BOB_STRSTAT.ZFILL n) 0
    match c1.boot.env.sweeps.find? fun s => s.1 == n with
    | some s => c1.trainingComplete n s.2
    | none => c1.noStrobe n) c

/-- The scales with a fixed offset (R261). -/
def Core.fixedScales (c : Core) (epoch : Nat) : Core :=
  let utc := Vector.replicate 3 none
  (c.writeTimeScale epoch 0 utc none fun _ => none).writeTimeScale epoch 5 utc none fun _ => none

/-- The state of the set changes (R478, R482). -/
def Core.setState (c : Core) (s : Nat) : Core :=
  if c.fld F.SET_STAT.STATE = s then c
  else
    let c1 := (c.setFld F.SET_STAT.STATE s).raise F.SET_IRQ.STATE
    if s = 5 then (c1.countSat F.SET_STAT.LOSS 1).raise F.SET_IRQ.SYNCLOST
    else if s = 6 then c1.raise F.SET_IRQ.MISMATCH
    else c1

/-- CRC-8 over bits in the order sent, polynomial x⁸ + x² + x + 1, reflected as CRC-32 is (log entry 202). -/
def crc8 (bits : List Bool) : Nat :=
  bits.foldl (fun r b => let x := r ^^^ ofBool b; if x % 2 = 1 then (x / 2) ^^^ 0xE0 else x / 2) 0

/-- The 64 bits of the frame with an epoch's count (R476). -/
def syncBits (epoch : Nat) : List Bool :=
  let count := (List.range 48).map (bitOf epoch)
  true :: count ++ (List.range 8).map (bitOf (crc8 count)) ++ List.replicate 7 false

/-- The master drives a frame with the count of an epoch's boundary (R476, R477); otherwise the line is low. -/
def Core.driveSync (c : Core) (epoch : Nat) : Core :=
  let drives := decide (c.fld F.SET_STAT.STATE = 1 ∧ c.inForce F.SET_CFG.SYNCOUT = 1)
  c.onBoot fun b => { b with sent := if drives then syncBits epoch else [] }

/-- The saved values of staged fields, staged and committed after the image's own (R361). -/
def Core.restoreStaged (c : Core) (epoch : Nat) (s : List (Nat × Word)) : Core :=
  let c1 := s.foldl (fun (c : Core) x => c.setReg x.1 x.2) c
  (c1.onPlan fun p => { p with modeChg := List.range 128 }).applyGroups epoch [5, 6, 7, 8, 9, 10, 11, 12, 14]

/-- The straps select the ROM default image, for which stored values are not applied (R412). -/
def Core.romStrap (c : Core) : Bool := decide (2 ≤ c.fld F.SET_STRAP.BOOT_SRC)

/-- Step 8: what the chosen image sets outside its plan, SYSCFG and stored values of registers that are not staged. -/
def Core.bootLoad (c : Core) (img : Image) (src : ImageSrc) : Core :=
  let c1 := ((c.loadHankRam (if img.has .hankRam then some (img.sec .hankRam) else none)).loadPatch img).loadCurve img
  let c2 := if c.saved.isSome then c1
    else applyIf (!c.romStrap) (fun (c : Core) => c.storedPlain { epoch := c.boot.first, fc := 0 }) (c1.applySyscfg img)
  c2.showImage img src

/-- An image put in force at the boundary that begins `epoch`, with stored or saved values of staged fields, and everything that starts. -/
def Core.firstEpoch (c : Core) (img : Image) (src : ImageSrc) (epoch : Nat) : Core :=
  let t : Clock := { epoch := epoch, fc := 0 }
  let rom := c.romStrap
  let c3 := if c.saved.isSome then c else c.fixedScales epoch
  let c4 := c3.loadImage epoch img src (fun _ => false) fun _ => false
  let c5 := applyIf (decide (src = .romDefault)) (·.romSettings epoch) c4
  let c6 := match c.saved with
    | some s => c5.restoreStaged epoch s.staged
    | none => if rom then c5 else c5.storedStaged.applyGroups epoch [12, 11, 10]
  let c7 := c6.setFld F.FAB_SKSTAT.PWR (planUses img)
  let c8 := (c7.useIslands.takePrior).bootTraining.frontEnds true
  let c9 := if c.flyState = flyNotime then c8.onFly FlySt.init else c8.startTps t.ns (({ epoch := 0, fc := 8 * c.boot.woke } : Clock).ns)
  let c10 := (c9.setState (if c.fld F.SET_STRAP.SET_ID = 0 then 1 else 4)).stage 10 0
  let c11 := (forBelow 8 (fun (c : Core) n => c.openEpoch epoch n) (c10.nextHalf c10.boot.env.pins 0)).loadPhases
  let c12 := (c11.onBoot fun b => { b with cand := none }).onPwr fun p => { p with actAt := t.abs }
  ({ c12 with saved := none, mir := { c12.mir with lost := false } } : Core).driveSync epoch |>.commitCkpt

/-! ### The order of start-up (R471 to R473) -/

/-- A start-up's outcome: the device, and the epoch that begins where it gets that far. -/
abbrev Started := Core × Option Nat

/-- A failed self-test is shown and reported (R473). -/
def Core.selfTests (c : Core) : Core :=
  let f := c.boot.env.fails
  let c1 := ((c.setFld F.SYS_BOOT.SKFAIL (f % 256)).setFld F.SYS_BOOT.LPEFAIL (f / 256 % 2)).setFld F.SYS_BOOT.PRMFAIL (f / 512 % 2)
  if f % 1024 = 0 then c1
  else c1.queueRec { key := 0x300, batch := false, fin := false, payload := faultRecord [64, f % 1024, 0, 0], urgent := true, ack := none }

/-- Steps 7 to 10: a master starts its first epoch; a follower waits for the set. -/
def Core.bootRest (c : Core) : Started :=
  let c1 := if c.saved.isSome then c else (c.stage 7 0).selfTests
  match c1.boot.cand with
  | none => (c1, none)
  | some (img, src) =>
    let c2 := (c1.stage 8 0).bootLoad img src
    if c2.fld F.SET_STRAP.SET_ID = 0 then (c2.firstEpoch img src c.boot.first, some c.boot.first)
    else ((c2.stage 9 0).setState 2, none)

/-- The Whorl tick edge after PLL-A has locked in a wake (R307, R361, R294): the make-up, the index that resumes with it, Flywheel's
model over the time to the first epoch, and that epoch. -/
def Core.wakeResume (c : Core) : Core :=
  match c.saved with
  | none => c
  | some s =>
    let trusted := decide (c.fld F.WHL_TRUST.BOR = 0 ∧ c.fld F.WHL_TRUST.OSF = 0)
    let delta := (c.whl.count + two48 - s.tick) % two48
    let sidx := s.sidx + (c.makeUp 0 delta trusted).reel.amount
    let first := sidx / tsPerEpoch + c.boot.wait
    let c1 := c.makeUp sidx delta trusted
    let c2 := if c1.flyState = flyNotime then c1.enterNotime
      else
        let slept : Rat := ((tsPerEpoch * first - s.sidx : Nat) : Rat) / 81920000
        (c1.onFly (·.propagate slept c1.boot.env.temp)).enterHoldover
    (forBelow 8 Core.showReel c2).onBoot fun b => { b with first := first, woke := sidx }

/-- PLL-A locks: SCLK_OUT runs, the front ends are powered, and a wake resumes (R79, R307, R471). -/
def Core.lockA (c : Core) : Core :=
  if c.bob.sclk then c else (c.onBob fun b => { b with sclk := true, fePwr := List.replicate 4 true }).wakeResume

/-- Step 5: the PLLs lock, PLL-B after PLL-A (R20), or start-up holds with NOLOCK. -/
def Core.bootLock (c : Core) : Started :=
  let c1 := applyIf c.boot.env.lockA Core.lockA (c.stage 5 0)
  if c.boot.env.lockA && c.boot.env.lock then c1.pllLock.bootRest else (c1.stage 5 2, none)

/-- The end of step 4 for the chosen image. -/
def Core.bootRef (c : Core) : Started :=
  match c.boot.cand with
  | none => (c, none)
  | some (img, _) =>
    let r := c.chooseRef img
    if r.2 then r.1.bootLock else (r.1.stage 4 1, none)

/-- An image chosen. -/
def Core.bootImage (c : Core) (img : Image) (src : ImageSrc) : Started :=
  (c.onBoot fun b => { b with cand := some (img, src) }).bootRef

/-- Steps 2 to 4 and what follows. -/
def Core.bootRun (c : Core) (env : BootEnv) : Started :=
  let c1 := ((c.onBoot fun b => { b with env := env }).latchStraps (c.straps env)).romBoot.stage 4 0
  match c1.fld F.SET_STRAP.BOOT_SRC with
  | 0 =>
    let r := (if c.saved.isSome then c1.showBootRecord else c1.bootRecordStep).chooseSlot
    r.1.bootImage r.2.1 r.2.2
  | 1 => ((c1.showBootRecord.stage 4 3).onQsp fun q => { q with awaiting := true, image := [] }, none)
  | _ => (c1.showBootRecord.startCheck romVerdict).bootImage romDefault .romDefault

/-- START_UP: a device out of reset with its core supplies runs its start-up. -/
def Core.startUp (c : Core) (env : BootEnv) : Started :=
  if c.fld F.SYS_BOOT.STAGE = 2 ∧ c.coreOn = true ∧ c.fld F.PWR_SUPSTAT.OK % 8 = 7 then c.bootRun env else (c, none)

/-- REFCLK is counted again while start-up holds with NOREF (R469). -/
def Core.refRetry (c : Core) (f : Option Nat) : Started :=
  if c.fld F.SYS_BOOT.CODE = 1 then (c.onBoot fun b => { b with env := { b.env with ref := f } }).bootRef else (c, none)

/-- The PLLs are tried again while start-up holds with NOLOCK (R473). -/
def Core.lockRetry (c : Core) (ok : Bool) : Started :=
  if c.fld F.SYS_BOOT.CODE = 2 then
    (c.onBoot fun b => { b with env := { b.env with lockA := b.env.lockA || ok, lock := ok } }).bootLock
  else (c, none)

/-! ### Host download (R72, R434) -/

/-- Bytes of a host download at an offset: the window code, and the start-up going on once the image has passed. -/
def Core.imagePut (c : Core) (ofs : Nat) (bs : List Byte) : Started × Nat :=
  if ¬ c.qsp.awaiting then ((c, none), 5)
  else
    let old := if ofs = 0 then [] else c.qsp.image
    if ofs ≠ old.length then ((c, none), 4)
    else
      let l := old ++ bs
      let c1 := c.onQsp fun q => { q with image := l }
      if l.length < 12 ∨ l.length < leAt l 8 4 then ((c1, none), 0)
      else
        let code := verifyCode c.otp false l
        let img := imageOf l
        let all := if code ≠ 0 then code else if (planCheck img).code ≠ 0 then 0x80 + (planCheck img).code else 0
        let c2 := ((c1.setFld F.NVM_IMG_STAT.CODE all).setFld F.NVM_IMG_STAT.SKIP (skippedSecs code l)).setFld F.QSP_FLAGS.IMGDONE 1
        let c3 := ((applyIf (decide (code = 0)) (·.startCheck (planCheck img)) c2).setFld F.QSP_FLAGS.IMGCODE all).onQsp fun q =>
          { q with image := [], awaiting := decide (all ≠ 0) }
        if all ≠ 0 then ((c3, none), 0) else ((c3.stage 4 0).bootImage img .hostDownload, 0)

/-! ### HIBERNATE (R358 to R365) -/

/-- The registers of the save list that are not staged (R360). -/
def savedPlain : List Nat :=
  [R.SYS_ACCCFG, R.PLAN_IRQEN, R.PLAN_JQ_PRMMAX, R.BOB_SNAP_CFG, R.STR_IRQEN, R.PRM_IRQEN, R.LPE_IRQEN, R.LPE_LOOPIRQEN, R.FOC_IRQEN,
   R.FLY_EVCFG, R.FLY_IRQEN] ++ ((List.range 8).flatMap fun n => [R.REEL_INC_LO n, R.REEL_INC_HI n, R.REEL_CFG n]) ++
    [R.REEL_MKRATE, R.REEL_MKFRAC, R.REEL_IRQEN, R.MIR_CFG, R.MIR_IRQEN, R.PWR_CFG, R.PWR_DOZECFG, R.PWR_DOZEIDLE, R.PWR_HIBIDLE,
     R.PWR_WAKEEN, R.PWR_WAKETICK_LO, R.PWR_WAKETICK_HI, R.PWR_VCWAIT, R.PWR_FEWAIT, R.PWR_IRQEN] ++
    ([0, 1].flatMap fun n => [R.UART_CFG n, R.UART_RATE n, R.UART_FIFOCTL n, R.UART_TOUT n, R.UART_PINCFG n]) ++
    [R.QSP_CFG, R.QSP_INTEN, R.QSP_IRQEN, R.QSP_OUTTHR, R.SVC_MONSEL, R.SVC_PINSEL, R.SVC_PINCTL, R.SET_IRQEN, R.SET_LATEMS]

/-- The staged registers of the save list. -/
def savedStaged : List Nat := group9Regs ++ group8Regs ++ group7Regs ++ group5Regs ++ group6Regs ++ flyRegs ++ group14Regs

/-- A staged register as it is in force; the mode entries of Focus lie in its pair. -/
def Core.stagedForce (c : Core) (a : Nat) : Word :=
  if inRange (R.FOC_MODE 0) 0x200 a then c.modeForce ((a - R.FOC_MODE 0) / 4) else c.force.reg a

/-- The Whorl tick at which HIBERNATE is entered (R358): Reel and the index stop, the list is kept, the core is gated. -/
def Core.hibSave (c : Core) (t : Clock) : Core :=
  let c1 := c.reelSleep t.abs
  let r := railReset c1 (c1.fld F.PWR_RSTCAUSE.CAUSE)
  let regs := RegMap.take r.regs c1.regs savedPlain.contains
  let mem := c1.mem.filter fun x => inRange nvmBase 0x400000 x.1 || inRange backupRam 0x100 x.1 || inRange 0x3102C000 0x10 x.1 ||
    inRange 0x3102E000 0x80 x.1
  let fly := { c1.fly with evq := [], sol := [], tps := vecMap c1.fly.tps fun x => { x with on := false, active := false, offAt := none } }
  let link := fun (l : LinkSt) => { l with rx := [], skip := false, outq := [], waiting := [], nonce := none }
  let hib : Core := { r with
    regs := regs, mem := mem, fly := fly, reel := c1.reel
    dst := { DstSt.reset with sets := c1.dst.sets, wroll := c1.dst.wroll, week := c1.dst.week, osnFail := c1.dst.osnFail,
                               leap := c1.dst.leap }
    links := vecMap c1.links link, out := { OutSt.reset with rxSum := c1.out.rxSum }, bob := { r.bob with fePwr := List.replicate 4 false }
    pwr := { PwrSt.reset with tick := c1.pwr.tick, coreEn := decide (c1.fld F.PWR_CFG.COREOFF = 0) }
    saved := some { tick := c1.whl.count, sidx := t.sidx, staged := savedStaged.map fun a => (a, c1.stagedForce a) } }
  (hib.setFld F.FLY_STAT.STATE c1.flyState).setPwr pwHib

/-- Step 3 of the entry, once NVM has nothing left to write. -/
def Core.hibDue (c : Core) : Bool :=
  decide (c.pwr.hib = 3) && c.nvmIdle

/-- The restore of R361, before Distaff starts. -/
def Core.wakeRestore (c : Core) (src : Nat) : Core :=
  let c1 := ((c.setFld F.PWR_STAT.STATE pwRun).setFld F.PWR_RSTCAUSE.CAUSE 6).setFld F.PWR_WAKE.SRC src
  let c2 := (c1.raise F.PWR_IRQ.WAKE).raise F.PWR_IRQ.STATE
  let c3 := c2.onPwr fun p => { p with coreEn := true, tick := if bitOf src 5 then none else p.tick }
  let c4 : Core := { c3 with links := vecMap c3.links fun l => { l with restored := l.opened } }
  forBelow 8 Core.showReel ((c4.notify 2 (leBytes 8 src)).wakeMove 0 |>.wakeMove 1)

/-- A wake event from the sources in `mask` that are enabled, TICK only where the count has reached its compare: before the save it
cancels the entry; in HIBERNATE it restarts the device, `wait` epochs passing between the make-up and the first one with slots;
`retfail` says that the save cannot be restored (R362). -/
def Core.wake (c : Core) (mask : Nat) (env : BootEnv) (wait : Nat) (retfail : Bool) : Started :=
  let tick := if c.pwr.tick = some c.whl.count then 32 else 0
  let src := ((mask &&& 31) + (mask &&& tick)) &&& c.fld F.PWR_WAKEEN.SRC
  if src = 0 then (c, none)
  else if c.pwrState = pwHib then
    match c.saved with
    | none => (c, none)
    | some _ =>
      if retfail then (railReset c 5).bootRun env
      else (((c.wakeRestore src).countSat F.MIR_ECC.CORR env.corrected).onBoot fun b => { b with wait := max 1 wait }).bootRun env
  else if c.pwr.hib ≠ 0 then (c.cancelHib, none)
  else (c, none)

end Sys2Proof.Machine
end

