-- ==== Sys2Proof/Machine/Epoch.lean ====
section
/-! DEFINITION. The epoch (R24): the passing of time inside a half-epoch, slot starts and ends (R38, R39), the check point at
mid-epoch and the epoch boundary in the order of R24. -/
namespace Sys2Proof.Machine

/-- The slots still open at an fc: those whose last fc has not passed. -/
def Core.closeSlots (c : Core) (fc : Nat) : Core :=
  let open' := fun (o : OpenSlot) => match c.slots[o.slot]? with
    | some s => decide (fc ≤ s.last)
    | none => false
  c.onPlan fun p => { p with opened := p.opened.filter open' }

/-- The job whose LOAD reads samples now. -/
def Core.loading (c : Core) : Option Nat := if c.fld F.PRM_STAT.STEP = 2 then c.prm.busy.map (·.tag) else none

/-- The slots of the epoch whose last fc lies before an fc and that are still open. -/
def Core.endedSlots (c : Core) (epoch fc : Nat) : List SlotEntry :=
  (c.plan.opened.filter fun o => o.epoch == epoch).filterMap fun o => (c.slots[o.slot]?).filter fun s => decide (s.last < fc)

/-- Distaff serves again after a restart, with Spool mounted anew (R405, log entry 207). -/
def Core.dstResume (c : Core) (now : Nat) : Core :=
  let c1 := c.dstSettle now
  if c.mir.dstUntil.isSome && c1.mir.dstUntil.isNone then c1.mountSpool else c1

/-- Time passes to an fc of the epoch with no end of a slot or of a RECORD occurrence before it: Reel's matches, pulse edges, the idle time
of Prism's slot, Distaff's restart, the streams' samples, the running programs; then what ends there. -/
def Core.passSeg (c : Core) (t : Clock) (fc : Nat) : Core :=
  let now := fcPerEpoch * t.epoch + fc
  let here : Clock := { t with fc := fc }
  let c1 := (((c.reelAdvance now).tpAdvance now).prmSettle fc).dstResume now
  let c2 := (c1.deliver t.epoch (fc / 8)).dropOvertaken here c1.loading
  let c3 := (c2.runSlices now (9 * fcPerHalf)).recordEnd t fc
  let c4 := (c3.endedSlots t.epoch fc).foldl (fun (c : Core) s => c.endSlot t.epoch s) c3
  (c4.closeSlots fc).replayTimeout now

/-- The instants of the epoch before an fc at which a slot or a RECORD occurrence ends, or the replay's time is over. -/
def Core.stops (c : Core) (t : Clock) (fc : Nat) : List Nat :=
  let ends := (c.plan.opened.filter fun o => o.epoch == t.epoch).filterMap fun o => (c.slots[o.slot]?).map fun s => s.last + 1
  let recs := c.plan.recs.flatMap fun r => r.ends :: (r.bad.map fun e => r.start + 5 * e).toList
  let replay := (c.replay.map fun r => r.cb + 2 * fcPerEpoch + 1 - fcPerEpoch * t.epoch).toList
  ((ends ++ recs ++ replay).filter (· < fc)).foldl (fun l x => insertNat x l) []

/-- Time passes to an fc of the epoch. -/
def Core.passTo (c : Core) (t : Clock) (fc : Nat) : Core :=
  ((c.stops t fc).foldl (fun (c : Core) x => c.passSeg t x) c).passSeg t fc

/-- The last fc of the half-epoch that runs: its end is the check point or the epoch boundary. -/
def Clock.halfLast (t : Clock) : Nat := if t.fc < fcPerHalf then fcPerHalf - 1 else fcPerEpoch - 1

/-- A slot may start now: it occurs in the epoch, its START is not past and lies in the half-epoch that runs, it has not started
yet, and no HIBERNATE entry has stopped the slots (R358). -/
def Core.slotDue (c : Core) (t : Clock) (i : Nat) (s : SlotEntry) : Bool :=
  s.occurs t.epoch && decide (t.fc ≤ s.start ∧ s.start ≤ t.halfLast) &&
    !c.plan.opened.contains { slot := i, epoch := t.epoch } && !c.pwr.still

/-- A slot's owner starts on the slot's START fc (R38); `bad` numbers the output word on which the copies will disagree. -/
def Core.startSlot (c : Core) (t : Clock) (i : Nat) (s : SlotEntry) (bad : Option Nat) : Core :=
  let here : Clock := { epoch := t.epoch, fc := s.start }
  let c1 := (c.dozeSettle t.epoch).passTo t s.start
  (c1.onPlan fun p => { p with opened := p.opened ++ [{ slot := i, epoch := t.epoch }] }).runOwner here i s bad

/-- The slots due in the half-epoch that runs with START before an fc, by START and then by number. -/
def Core.dueSlots (c : Core) (t : Clock) (fc : Nat) : List (Nat × SlotEntry) :=
  let slots := c.slots
  let all := (List.range slots.length).filterMap fun i =>
    (slots[i]?).bind fun s => if s.start < fc ∧ c.slotDue t i s = true then some (i, s) else none
  ((all.map (·.2.start)).foldl (fun l x => insertNat x l) []).flatMap fun x => all.filter fun q => q.2.start == x

/-- Time passes to an fc of the half-epoch that runs; every slot whose START is passed starts there (R38). -/
def Core.moveTo (c : Core) (t : Clock) (fc : Nat) : Core :=
  ((c.dueSlots t fc).foldl (fun (c : Core) q => c.startSlot t q.1 q.2 none) c).passTo t fc

/-- A half-epoch's samples reach the fabric; the next half begins with its samples at the pins (R14, R95). -/
def Core.takeHalf (c : Core) (inp : HalfInput) (from' : Nat) : Core :=
  let feed := c.halfFeed
  let c1 := (inp.hank.foldl (fun (c : Core) _ => c.uncorrectable 6) c).onMir fun m => { m with hankBad := inp.hank }
  let c2 := (c1.runFabric feed).onMir fun m => { m with hankBad := [] }
  (c2.nextHalf inp.pins from').onFly fun f => { f with badCopy := f.badCopy || inp.flyBad }

/-- The mid-epoch boundary: step 2 of R24 alone. -/
def Core.midEpoch (c : Core) (t : Clock) (inp : HalfInput) : Core :=
  let c1 := ((c.dozeSettle t.epoch).moveTo t fcPerHalf).takeHalf inp (tsPerEpoch / 2)
  ((c1.checkPoint t false inp.mism inp.ckptErr).raise F.PLAN_IRQ.HALF).commitCkpt

/-! ### The epoch boundary (R24) -/

/-- A plan switch is due at a boundary. -/
def Core.switchDue (c : Core) (epoch : Nat) : Bool :=
  decide (c.planState = plArmed) && decide (c.plan.switchAt = some epoch) && c.plan.cand.isSome

/-- What follows a plan switch outside the plan: the islands in use, the boot record, the curve, the oscillator prior. -/
def Core.afterSwitch (c : Core) : Core :=
  (((c.useIslands).setBoot (c.fld F.NVM_BOOTINFO.ACTIVE) 2).loadCurve c.plan.img).takePrior

/-- GPST in ns for the snapshot header, 0 while Flywheel holds no time (R107). -/
def Core.snapTime (c : Core) (epoch : Nat) : Nat :=
  if c.flyState = flyNotime then 0 else unsignedOf 64 (c.modelAt (({ epoch := epoch, fc := 0 } : Clock).ns)).floor

/-- Step 3 of R24: the switch, the write-backs and the groups that apply at the boundary that begins `epoch`; a HIBERNATE entry stops
the pins (R358); a snapshot starts or is released. -/
def Core.stepThree (c : Core) (epoch : Nat) (temp : Int) : Core :=
  let gs := c.dueGroups epoch
  let ran := c.stagedGroups gs
  let c0 := c.onFly (·.propagate (1 / 1000) temp)
  let c1 := applyIf (c.switchDue epoch) Core.afterSwitch (c0.planBoundary epoch)
  let c2 := (applyIf (!ran.contains 0) (·.applyWriteBacks false) c1).applyGroups epoch ran
  let c3 := (c2.markApplied epoch gs ran).gateUnused
  let c4 := (c3.hibBoundary.captureStart epoch (unsignedOf 16 temp) c3.whl.count (c3.snapTime epoch)).releaseBoundary epoch
  (c4.leaveSnapshot epoch).flyBoundary epoch

/-- A follower counts the epochs without a valid frame; LOSSLIM of them lose the set (R482). -/
def Core.syncWatch (c : Core) : Core :=
  let miss := if c.boot.heard then 0 else c.boot.miss + 1
  let c1 := c.onBoot fun b => { b with miss := miss, heard := false }
  if c.fld F.SET_STAT.STATE = 4 ∧ c.inForce F.SET_CFG.LOSSLIM ≤ miss then c1.setState 5 else c1

/-- What begins with the epoch: the phases, the rings, Reel's releases, a reseed, the frame on
EPOCH_SYNC. `due` says that a reseed was due before this boundary. -/
def Core.beginEpoch (c : Core) (epoch : Nat) (due : Bool) : Core :=
  let c1 := ((forBelow 8 (fun (c : Core) n => c.openEpoch epoch n) c).loadPhases).endTooLong epoch
  let c2 := (c1.reelBoundary epoch).reseedStep epoch due
  ((c2.driveSync epoch).syncWatch).dozeWatch { epoch := epoch, fc := 0 }

/-- The boundary that ends the epoch of `t`. -/
def Core.epochBoundary (c : Core) (t : Clock) (inp : HalfInput) : Core :=
  let e := t.epoch + 1
  let due := c.mir.reseedDue
  let c1 := ((c.dozeSettle t.epoch).moveTo t fcPerEpoch).takeHalf inp 0
  let c2 := (c1.burstBegin e).checkPoint t true inp.mism inp.ckptErr
  let c3 := (c2.stepThree e inp.temp).beginEpoch e due
  ((c3.settleCaught { epoch := e, fc := 0 }).raise F.PLAN_IRQ.EPOCH).commitCkpt

/-! ### Overruns (R39) -/

/-- An open slot's owner is stopped at the slot's last fc. -/
def Core.stopSlot (c : Core) (t : Clock) (i : Nat) (s : SlotEntry) : Core :=
  let c1 := c.passTo t s.last
  (c1.onPlan fun p => { p with opened := p.opened.filter fun o => o.slot != i }).slotOverrun { epoch := t.epoch, fc := s.last } s

end Sys2Proof.Machine
end

