-- ==== Sys2Proof/Machine/Sets.lean ====
section
/-! DEFINITION. Followers of a set (R476 to R482): the frames on EPOCH_SYNC, late joins and the loss of the set. -/
namespace Sys2Proof.Machine

/-- A valid frame in WAIT_SYNC or ALIGN (R478). -/
def Core.alignFrame (c : Core) (count : Nat) (phase : Int) (training : Bool) : Core :=
  if c.fld F.SET_STAT.STATE = 2 then (c.onBoot fun b => { b with frames := 0 }).setState 3
  else if training then c
  else if phase.natAbs ≤ 381 ∧ (c.boot.frames = 0 ∨ count = c.boot.expect) then
    c.onBoot fun b => { b with frames := b.frames + 1, expect := (count + 1) % two48 }
  else (c.onBoot fun b => { b with frames := 0 }).setState 2

/-- A marker more than 1 fc from the boundary (R479). -/
def phaseFar (phase : Int) : Bool := decide (1525 < phase.natAbs)

/-- A marker's phase against the follower's own boundary is shown (R479). -/
def Core.showPhase (c : Core) (phase : Int) : Core :=
  let c1 := c.setReg R.SET_PHASE (BitVec.ofNat 32 (unsignedOf 32 phase))
  if phaseFar phase then (c1.raise F.SET_STAT.PHERR).raise F.SET_IRQ.PHERR else c1

/-- A valid frame while epochs run: its count against the device's own at the nearest boundary. -/
def Core.runningFrame (c : Core) (t : Clock) (count : Nat) (phase : Int) : Core :=
  let own := if fcPerHalf ≤ t.fc then t.epoch + 1 else t.epoch
  let agree := decide (count = own)
  match c.fld F.SET_STAT.STATE with
  | 4 => if agree then c.onBoot fun b => { b with heard := true } else c.setState 5
  | 5 => if agree && !phaseFar phase then (c.onBoot fun b => { b with heard := true, miss := 0 }).setState 4 else c.setState 6
  | _ => c

/-- A frame at a follower, with its CRC, its marker's phase in ps, and whether training is still under way: after two frames in a row
the next marker begins the first epoch. -/
def Core.syncFrame (c : Core) (t : Clock) (count : Nat) (crcOk : Bool) (phase : Int) (training : Bool) : Started :=
  let s := c.fld F.SET_STAT.STATE
  if c.fld F.SET_STRAP.SET_ID = 0 ∨ s < 2 then (c, none)
  else
    let c0 := if crcOk then c else c.countSat F.SET_STAT.CRCERR 1
    let c1 := if 3 ≤ s then c0.showPhase phase else c0
    if s = 3 ∧ c.boot.frames = 2 then
      match c.boot.cand with
      | some (img, src) =>
        let c2 := (c1.onBoot fun b => { b with heard := crcOk }).newIndex t.sidx (tsPerEpoch * c.boot.expect)
        (c2.firstEpoch img src c.boot.expect, some c.boot.expect)
      | none => (c1, none)
    else if ¬ crcOk then (c1, none)
    else if s < 4 then (c1.alignFrame count phase training, none)
    else (c1.runningFrame t count phase, none)

/-- SET_LATEMS has passed since RST_N rose (R481). -/
def Core.lateJoin (c : Core) : Core :=
  if c.fld F.SET_STRAP.SET_ID ≠ 0 ∧ c.fld F.SET_STAT.STATE < 4 then (c.raise F.SET_STAT.LATE).raise F.SET_IRQ.LATE else c

/-- LOSSLIM epochs without a valid frame (R482). -/
def Core.syncLoss (c : Core) : Core :=
  if c.fld F.SET_STAT.STATE = 4 ∧ c.inForce F.SET_CFG.LOSSLIM ≤ c.boot.miss then c.setState 5 else c

end Sys2Proof.Machine
end

