-- ==== Sys2Proof/Machine/Window.lean ====
section
/-! DEFINITION. The register window of the QSPI slave (R433, R434). -/
namespace Sys2Proof.Machine

/-- A window request's code before anything is done, 0 where it may start: BUSY while an operation runs, OP for a reserved OP or byte 7,
ALIGN for ADDR or LEN. -/
def Core.wsetupCode (c : Core) (addr len : Nat) (rsv : Bool) : Nat :=
  if c.flag F.QSP_FLAGS.WBUSY then 2
  else if rsv then 3
  else if addr % 4 ≠ 0 ∨ len % 4 ≠ 0 ∨ len < 4 ∨ 4096 < len then 1
  else 0

/-- A window request that does nothing: BUSY leaves the running operation, another code ends it at once. -/
def Core.wsetupRefuse (c : Core) (code : Nat) : Core := if code = 2 then c.wcode 2 else c.windowRefuse code

/-- OP = 1: LEN / 4 words read into the buffer; `badAt` is the place of a word on which the copies of a pair disagree (R313). -/
def Core.windowRead (c : Core) (t : Clock) (addr len : Nat) (rsv : Bool) (badAt : Nat) : Core :=
  let code := c.wsetupCode addr len rsv
  if ¬ c.qspReady then c
  else if code ≠ 0 then c.wsetupRefuse code
  else
    let r := c.busReads t addr badAt (len / 4)
    let c1 : Core := { r.1 with readData := r.2.1 }
    (c1.onQsp fun q => { q with win := q.win.putWords 0 r.2.1 }).windowBusy (if r.2.2 then 6 else 0)

/-- OP = 2: LEN / 4 words written from the buffer. -/
def Core.windowWriteOp (c : Core) (t : Clock) (addr len : Nat) (rsv : Bool) : Core :=
  let code := c.wsetupCode addr len rsv
  if ¬ c.qspReady then c
  else if code ≠ 0 then c.wsetupRefuse code
  else let r := c.busWrites t addr (c.qsp.win.words 0 (len / 4)); r.1.windowBusy (if r.2 then 6 else 0)

/-- OP = 3: the buffer's bytes go to the image awaited. -/
def Core.windowImage (c : Core) (lanes addr len : Nat) (rsv : Bool) : Started :=
  let code := c.wsetupCode addr len rsv
  if ¬ c.flag F.QSP_CFG.EN ∨ ¬ c.lanesOk lanes ∨ ¬ c.qspReady then (c.qspCmd lanes fun c => c, none)
  else if code ≠ 0 then (c.wsetupRefuse code, none)
  else
    let r := c.imagePut addr (c.qsp.win.reads 0 len)
    if r.2 = 0 then (r.1.1.windowBusy 0, r.1.2) else (r.1.1.windowRefuse r.2, r.1.2)

end Sys2Proof.Machine
end

