-- ==== Sys2Proof/Machine/Run.lean ====
section
/-! DEFINITION. How a command reaches the device: on a powered core, in any power state, as a read, as a start-up, as a console line, or
at an instant of the running half-epoch. -/
namespace Sys2Proof.Machine

/-- What a command comes to. -/
abbrev Result := Host.Outcome State Fault Refusal

/-- The state with its core replaced. -/
def State.put (s : State) (c : Core) : State := { s with core := c }

/-- A command on the powered core; in HIBERNATE and BACKUP it changes nothing. XDONE follows for read-outs that it ended (R457). -/
def State.run (s : State) (f : Clock → Core → Core) : Result :=
  .next (if s.core.coreOn then s.put (f s.clk s.core).sendDones else s)

/-- An event of the always-on domain, of Whorl or of a supply. -/
def State.always (s : State) (f : Clock → Core → Core) : Result := .next (s.put (f s.clk s.core))

/-- A read of a register by the host or by Distaff. -/
def State.read (s : State) (a : Nat) : Result :=
  s.run fun t c => let r := c.regRead t a; { r.1 with readData := [r.2] }

/-- A read function of the QSPI slave that clocks out `n` bytes; an unpowered core leaves the pulled-up lanes at 0xFF (R431). -/
def State.qspRead (s : State) (lanes n : Nat) (f : Core → Core) : Result :=
  .next (s.put (if s.core.coreOn then (s.core.qspCmd lanes f).sendDones else s.core.onQsp fun q => { q with resp := List.replicate n 0xFF }))

/-- What a start-up reaches: the first epoch, where it gets that far. -/
def State.began (s : State) (r : Started) : State :=
  match r.2 with
  | some e => { s with clk := { epoch := e, fc := 0 }, core := r.1 }
  | none => s.put r.1

/-- A command on the powered core that may go on to the first epoch. -/
def State.start (s : State) (f : Clock → Core → Started) : Result :=
  .next (if s.core.coreOn then s.began (f s.clk s.core) else s)

/-- A reset: time starts again and the console's waiting lines go. -/
def State.reseat (s : State) (c : Core) : State := { s with held := [], clk := { epoch := 0, fc := 0 }, core := c }

/-- A console line: it waits while a command runs (R459). -/
def State.line (s : State) (i : Instr) (f : Clock → Core → Core) : Result :=
  if s.core.conLive && s.core.conBusy then .next { s with held := s.held ++ [i] } else s.run f

/-! ### Time -/

/-- Time moves to an fc of the running half-epoch; the slots that begin before it start (R38, log entry 30). -/
def State.goTo (s : State) (fc : Nat) : State :=
  { s with clk := { epoch := s.clk.epoch, fc := fc }, core := s.core.moveTo s.clk fc }

/-- An event at an fc of the running half-epoch; nothing happens where that fc is past or lies in another half-epoch. -/
def State.at (s : State) (fc : Nat) (f : Clock → Core → Core) : Result :=
  if s.core.epochsRun && decide (s.clk.fc ≤ fc ∧ fc ≤ s.clk.halfLast) then (s.goTo fc).run f else .next s

/-- An event that comes at an instant known to the state, where it has one. -/
def State.due (s : State) (fc : Option Nat) (f : Clock → Core → Core) : Result :=
  match fc with
  | some n => s.at n f
  | none => .next s

/-- The epoch boundary, after the check point of mid-epoch (R24, R26). -/
def State.boundary (s : State) (inp : HalfInput) : Result :=
  if s.core.epochsRun && decide (fcPerHalf ≤ s.clk.fc) then
    .next { s with clk := { epoch := s.clk.epoch + 1, fc := 0 }, core := (s.core.epochBoundary s.clk inp).sendDones }
  else .next s

/-- The check point at mid-epoch (R314). -/
def State.check (s : State) (inp : HalfInput) : Result :=
  if s.core.epochsRun && decide (s.clk.fc < fcPerHalf) then
    .next { s with clk := { epoch := s.clk.epoch, fc := fcPerHalf }, core := (s.core.midEpoch s.clk inp).sendDones }
  else .next s

/-- A slot of the running plan starts (R38), and those that begin before it; `bad` numbers the output word of the occurrence on which the
copies of its pair disagree (R312). -/
def State.slot (s : State) (i : Nat) (bad : Option Nat) : Result :=
  match s.core.slots[i]? with
  | some e =>
    if s.core.epochsRun && s.core.slotDue s.clk i e then
      let c := s.core.moveTo s.clk e.start
      .next { s with clk := { epoch := s.clk.epoch, fc := e.start }, core := c.startSlot { s.clk with fc := e.start } i e bad }
    else .next s
  | none => .next s

/-- An open slot's owner is stopped (R39). -/
def State.overrun (s : State) (i : Nat) : Result :=
  match s.core.slots[i]? with
  | some e =>
    if s.core.epochsRun && s.core.plan.opened.contains { slot := i, epoch := s.clk.epoch } &&
        decide (s.clk.fc ≤ e.last ∧ e.last ≤ s.clk.halfLast) then
      let c := s.core.moveTo s.clk e.last
      .next { s with clk := { epoch := s.clk.epoch, fc := e.last }, core := c.stopSlot { s.clk with fc := e.last } i e }
    else .next s
  | none => .next s

/-- One fc with nothing commanded. Time waits at the end of a half-epoch for its boundary. -/
def State.tick (s : State) : State :=
  if s.core.epochsRun && decide (s.clk.fc < s.clk.halfLast) then s.goTo (s.clk.fc + 1) else s

/-! ### Steps of more than one block -/

/-- VCORE or VPLL falls below its threshold: every domain but Whorl and always-on is reset; HIBERNATE and BACKUP do not watch them. -/
def State.railLow (s : State) (bit cause : Nat) : State :=
  if s.core.onVbat ∨ s.core.pwrState = pwHib then s else s.reseat (railReset (s.core.supply bit false) cause)

/-- The next Spool record written, verified and committed (R403), after what Distaff has to queue: Mirror's next report, the week
number it has decoded, its statistics. -/
def Core.spoolStep (c : Core) (good : Bool) (week : Option (Fin 4 × Nat)) (stats : Option (List Byte)) : Core :=
  let c1 := c.fileReport
  let c2 := match week with | some (sys, w) => c1.weekSeen sys.val w | none => c1
  let c3 := match stats with
    | some b => c2.queueRec { key := 0x400, batch := false, fin := false, payload := b.take 240, urgent := false, ack := none }
    | none => c2
  let r := c3.writeRec good
  (r.2.foldl (fun (c : Core) a => c.ackCommit a 0) r.1).refuseQueued

/-- An error in a memory (R334, R335); one in the patch area that cannot be corrected turns the comparators off (R396). -/
def Core.scrubStep (c : Core) (t : Clock) (row pair : Nat) (unc alt : Bool) (index : Nat) : Core :=
  if unc && alt && row == 3 then (c.uncorrectable row).patchLost else c.scrub t row pair unc alt index

/-- UARTn_DATA read by Distaff: the character goes to Twine from UART0 and to the console from UART1. -/
def Core.takeChar (c : Core) (t : Clock) (n : Nat) : Core :=
  let r := c.uartGet n
  let c1 : Core := { r.1 with readData := [r.2] }
  let b : Byte := BitVec.ofNat 8 (bits r.2 7 0)
  if bits r.2 31 31 = 0 then c1 else if n = 1 then c1.conChar t b else c1.onLink 0 fun l => { l with rx := l.rx ++ [b] }

/-! ### Slices -/

/-- A slice can run: its island is on; slice 8 is Focus's. -/
def Core.sliceOn (c : Core) (k : Nat) : Bool := k == 8 || c.islandOn k

/-- A slice whose program does not run issues its next bundle at the present instant. -/
def Core.atClock (c : Core) (t : Clock) (k : Nat) : Core :=
  if c.flag (F.LPE_SLSTAT.RUN k) then c else c.onSlice k fun x => { x with t0 := fcPerEpoch * t.epoch + t.fc - x.now }

/-- The word of an operation (R225): its opcode over its operand bits. -/
def sliceWord (op : Nat) (w : BitVec 24) : Word := BitVec.ofNat 32 (op * 2 ^ 24 + w.toNat)

/-- An operation of slice `k` in field `f` of the bundle in issue, with its operand bits; the last one of a bundle ends it (R226). A
word that R225 does not define is never issued. -/
def State.opAt (s : State) (op : Nat) (k : Fin 9) (f : Fin 4) (w : BitVec 24) (last : Bool)
    (g : Clock → Core → Nat → Nat → Word → Core) : Result :=
  let word := sliceWord op w
  s.run fun t c =>
    if c.sliceOn k.val && opOk f.val word then
      let c1 := g t (c.atClock t k.val) k.val f.val word
      if last then c1.endBundle k.val else c1
    else c

/-- The same of an operation that does nothing at an instant of its own. -/
def State.op (s : State) (op : Nat) (k : Fin 9) (f : Fin 4) (w : BitVec 24) (last : Bool) (g : Core → Nat → Nat → Word → Core) : Result :=
  s.opAt op k f w last fun _ => g

end Sys2Proof.Machine
end

