-- ==== Sys2Proof/Machine/ExecEddeug.lean ====
section
/-! DEFINITION. Meanings: the Eddeug console. -/
namespace Sys2Proof.Machine

/-- R458: HELP. -/
def execHelp (s : State) : Result := s.line .help fun t c => c.conHelp t

/-- R458: SYS. -/
def execSys (s : State) : Result := s.line .sys fun t c => c.conSys t

/-- R458: STREAM. -/
def execStream (s : State) : Result := s.line .stream fun t c => c.conStream t

/-- R458: TRACK. -/
def execTrack (s : State) : Result := s.line .track fun t c => c.conTrack t

/-- R458: FAULTS. -/
def execFaults (n : Nat) (s : State) : Result := s.line (.faults n) fun t c => c.conFaults t n

/-- R461, with the source's level after its scale in mV. -/
def execMon (src : Nat) (mv : Int) (s : State) : Result := s.line (.mon src mv) fun t c => c.conMon t src mv

/-- R462; `board` is the level that the board gives the ball. -/
def execPinRead (n : Nat) (board : Bool) (s : State) : Result := s.line (.pinRead n board) fun t c => c.conPin t n board

/-- R462: PIN_HI. -/
def execPinHi (n : Nat) (s : State) : Result := s.line (.pinHi n) fun t c => c.conPinSet t n 2

/-- R462: PIN_LO. -/
def execPinLo (n : Nat) (s : State) : Result := s.line (.pinLo n) fun t c => c.conPinSet t n 1

/-- R462: PIN_Z. -/
def execPinZ (n : Nat) (s : State) : Result := s.line (.pinZ n) fun t c => c.conPinSet t n 3

/-- R462: PIN_REL. -/
def execPinRel (n : Nat) (s : State) : Result := s.line (.pinRel n) fun t c => c.conPinSet t n 0

/-- R458: RD. -/
def execRd (addr : Word) (n : Nat) (badAt : Nat) (s : State) : Result :=
  s.line (.rd addr n badAt) fun t c => c.conRd t addr.toNat n badAt

/-- R458: WR. -/
def execWr (addr : Word) (w : Word) (s : State) : Result := s.line (.wr addr w) fun t c => c.conWr t addr.toNat w

/-- R465: the rails as converted, in mV. -/
def execTestSupply (mv : List Nat) (s : State) : Result := s.line (.testSupply mv) fun t c => c.testSupply t mv

/-- R465: lock, control voltages, REFCLK. -/
def execTestPll (lockA : Bool) (lockB : Bool) (mvA : Nat) (mvB : Nat) (ppm : Int) (s : State) : Result :=
  s.line (.testPll lockA lockB mvA mvB ppm) fun t c => c.testPll t lockA lockB mvA mvB ppm

/-- R465; `fin` is the end of the test that runs. -/
def execTestLvds (n : Fin 8) (fin : Bool) (s : State) : Result :=
  if fin then s.run fun t c => c.testLvdsEnd t n.val else s.line (.testLvds n fin) fun t c => c.testLvds t n.val

/-- R465; `fin` is the end of the test, with whether the signature matched. -/
def execTestSkein (k : Fin 8) (fin : Bool) (good : Bool) (s : State) : Result :=
  if fin then s.run fun t c => c.testSkeinEnd t k.val good else s.line (.testSkein k fin good) fun t c => c.testSkein t k.val

/-- R465; `fin` is the end of the test, with whether the signature matched. -/
def execTestLoupe (fin : Bool) (good : Bool) (s : State) : Result :=
  if fin then s.run fun t c => c.testLoupeEnd t good else s.line (.testLoupe fin good) fun t c => c.testLoupe t

/-- R465; `fin` is the end of the test, with what the search found. -/
def execTestPrism (fin : Bool) (pidx : Nat) (pk : Int) (peak : Nat) (second : Nat) (s : State) : Result :=
  if fin then
    s.run fun t c => c.testPrismEnd t pidx pk peak second
  else s.line (.testPrism fin pidx pk peak second) fun t c => c.testPrism t

/-- R465: whether the CRC is the one held in ROM. -/
def execTestHank (same : Bool) (s : State) : Result := s.line (.testHank same) fun t c => c.testHank t same

/-- R465: corrected and uncorrectable words. -/
def execTestNvm (corr : Nat) (unc : Nat) (s : State) : Result := s.line (.testNvm corr unc) fun t c => c.testNvm t corr unc

/-- R465: whether each vector matched. -/
def execTestFacet (sha : Bool) (ecdsa : Bool) (s : State) : Result := s.line (.testFacet sha ecdsa) fun t c => c.testFacet t sha ecdsa

/-- R465; `fin` is the end of the test, with whether the rate lies within its bound. -/
def execTestWhorl (fin : Bool) (rateOk : Bool) (s : State) : Result :=
  if fin then s.run fun t c => c.testWhorlEnd t rateOk else s.line (.testWhorl fin rateOk) fun t c => c.testWhorl t

/-- R465; `fin` is the end of the test that runs. -/
def execTestReel (n : Fin 8) (fin : Bool) (s : State) : Result :=
  if fin then s.run fun t c => c.testReelEnd t n.val else s.line (.testReel n fin) fun t c => c.testReel t n.val

/-- R465: characters received and whether FE, PE or OVR came. -/
def execTestUart0 (got : Nat) (errs : Bool) (s : State) : Result := s.line (.testUart0 got errs) fun t c => c.testUart0 t got errs

/-- R465; `fin` is the end of the test that runs. -/
def execTestMirror (k : Nat) (fin : Bool) (s : State) : Result :=
  if fin then s.run fun t c => c.testMirrorEnd t k else s.line (.testMirror k fin) fun t c => c.testMirror t k

/-- R465; `fin` is the end of the test, with whether the four plies tracked as set. -/
def execTestTsg (n : Fin 8) (fin : Bool) (good : Bool) (s : State) : Result :=
  if fin then s.run fun t c => c.testTsgEnd t n.val good else s.line (.testTsg n fin good) fun t c => c.testTsg t n.val

/-- R466: the streams substituted and one signal entry. -/
def execTsg (mask : Nat) (n : Nat) (ws : List Word) (s : State) : Result := s.line (.tsg mask n ws) fun t c => c.conTsg t mask n ws

/-- R411: EDDEUG_STORE. -/
def execEddeugStore (s : State) : Result := s.line .eddeugStore fun t c => c.conStore t

/-- R460: SERVICE_ON. -/
def execServiceOn (s : State) : Result := s.line .serviceOn fun t c => c.conServiceOn t

/-- R460: SERVICE_CONFIRM. -/
def execServiceConfirm (s : State) : Result := s.line .serviceConfirm fun t c => c.conConfirm t

/-- R460: SERVICE_OFF. -/
def execServiceOff (s : State) : Result := s.line .serviceOff fun t c => c.conServiceOff t

/-- R460: 30 minutes without console input. -/
def execServiceTimeout (s : State) : Result := s.run fun t c => c.serviceTimeout t

/-- R458: the internal reset, from the console in service mode. -/
def execReboot (s : State) : Result :=
  if s.core.conLive && s.core.serviceMode && !s.core.conBusy then
    .next (s.reseat (resetCore s.core 1))
  else s.line .reboot fun t c => c.conLine t 15 true fun c => c

/-- R459: CTRL_C. -/
def execCtrlC (s : State) : Result := s.run fun t c => c.ctrlC t

/-- R458: LONG_LINE. -/
def execLongLine (s : State) : Result := s.run fun t c => c.longLine t

/-- R462: SVC_CTRL.RELALL. -/
def execRelall (s : State) : Result := s.run fun _ c => c.relAll

/-- R464: SVC_PINCTL. -/
def execSvcPinctlWrite (w : Word) (s : State) : Result := s.run fun _ c => c.pinctl w

end Sys2Proof.Machine
end

