-- ==== Sys2Proof/Machine/ExecEpoch.lean ====
section
/-! DEFINITION. Meanings: the epoch, its check point and its slots. -/
namespace Sys2Proof.Machine

/-- R24: the boundary that ends the epoch, with what the second half-epoch brought. -/
def execEpochBoundary (inp : HalfInput) (s : State) : Result := s.boundary inp

/-- R314: the check point of mid-epoch, with what the first half-epoch brought. -/
def execCheckPoint (inp : HalfInput) (s : State) : Result := s.check inp

/-- R38: the owner of a slot of the running plan starts; `bad` says that copies A and B disagree on its first output word (R312). -/
def execSlotStart (slot : Nat) (bad : Option Nat) (s : State) : Result := s.slot slot bad

/-- R39: the owner of an open slot is stopped. -/
def execSlotOverrun (slot : Nat) (s : State) : Result := s.overrun slot

end Sys2Proof.Machine
end

