-- ==== Sys2Proof/Machine/ExecFlywheel.lean ====
section
/-! DEFINITION. Meanings: Flywheel. -/
namespace Sys2Proof.Machine

/-- R275: HOLDDLY has passed without a record. -/
def execHoldoverEntry (s : State) : Result := s.run fun t c => c.holdoverEntry t.epoch

/-- R275: holdover time or uncertainty reaches its limit. -/
def execLimitEntry (s : State) : Result := s.run fun t c => c.limitEntry t.epoch

/-- R278: the active edge of an output, where it falls in the running half-epoch. -/
def execTpActiveEdge (n : Fin 4) (s : State) : Result :=
  s.due (if s.core.tpRuns n.val then s.clk.place (s.core.edgeAt n.val) else none) fun _ c => c.tpEdge n.val

/-- R280: the inactive edge of an output. -/
def execTpInactiveEdge (n : Fin 4) (s : State) : Result := s.due ((s.core.tp n.val).offAt.bind s.clk.place) fun _ c => c.tpEnd n.val

/-- R285: pulse k + 1 of a pending step. -/
def execStepApply (n : Fin 4) (s : State) : Result :=
  s.due (if s.core.tpRuns n.val && (s.core.tp n.val).stepNext then s.clk.place (s.core.edgeAt n.val) else none) fun _ c =>
    c.tpEdge n.val

/-- R289: an edge on EVTn. -/
def execEventTag (n : Fin 8) (falling : Bool) (s : State) : Result := s.run fun t c => c.eventTag t.abs n.val falling

/-- R290: FLY_EVQ3 read. -/
def execFlyEvq3Read (s : State) : Result := s.read R.FLY_EVQ3

/-- R290: FLY_EVSTAT read. -/
def execFlyEvstatRead (s : State) : Result := s.read R.FLY_EVSTAT

/-- R293: no two copies agree. -/
def execTmrFail (s : State) : Result := s.run fun t c => c.tmrFault t

/-- R292: FLY_TMR read. -/
def execFlyTmrRead (s : State) : Result := s.read R.FLY_TMR

end Sys2Proof.Machine
end

