-- ==== Sys2Proof/Machine/ExecFocus.lean ====
section
/-! DEFINITION. Meanings: Focus. -/
namespace Sys2Proof.Machine

/-- R183: Distaff writes an entry's words, word 0 last. -/
def execSatelliteEntryPublish (p : Fin 1024) (ws : List Word) (s : State) : Result :=
  s.run fun _ c => c.publishSat p.val ws

/-- R198: a write of FOC_AIDIN7. -/
def execAidingPush (w : Word) (s : State) : Result := s.run fun _ c => c.aidIn 7 w

/-- R200: 50 ms without an accepted sample. -/
def execAidlost (s : State) : Result := s.run fun t c => c.aidLost t

/-- R195: FOC_DEM read. -/
def execFocDemRead (s : State) : Result := s.read R.FOC_DEM

/-- R199: FOC_AIDSTAT read. -/
def execFocAidstatRead (s : State) : Result := s.read R.FOC_AIDSTAT

end Sys2Proof.Machine
end

