-- ==== Sys2Proof/Machine/ExecImage.lean ====
section
/-! DEFINITION. Meanings: image slots. -/
namespace Sys2Proof.Machine

/-- R69: NVM_IMG_CTRL.VERIFY. -/
def execVerify (s : State) : Result := s.run fun _ c => c.imgVerify

/-- R63: Facet ends; `ecc` is an uncorrectable NVM error in the slot. -/
def execImageVerifyComplete (ecc : Bool) (s : State) : Result := s.run fun _ c => c.verifyComplete ecc

/-- R71: NVM_IMG_CTRL.CONFIRM. -/
def execConfirm (s : State) : Result := s.run fun _ c => c.imgConfirm

/-- R71: NVM_IMG_CTRL.SELECT. -/
def execSelect (s : State) : Result := s.run fun _ c => c.imgSelect

end Sys2Proof.Machine
end

