-- ==== Sys2Proof/Machine/ExecLoops.lean ====
section
/-! DEFINITION. Meanings: Hank RAM, ply commands and the queues of the loops. -/
namespace Sys2Proof.Machine

/-- R128: a direct write of word `o` of Hank RAM. -/
def execHankRamWrite (o : Fin 32768) (w : Word) (s : State) : Result := s.run fun _ c => c.hankRamWrite (4 * o.val) (leBytes 4 w.toNat)

/-- R176: LPE_PLYCMD with CMD 1. -/
def execPlyArm (p : Fin 1024) (s : State) : Result := s.run fun _ c => c.plyCommand p.val 1

/-- R176: LPE_PLYCMD with CMD 2. -/
def execPlyStop (p : Fin 1024) (s : State) : Result := s.run fun _ c => c.plyCommand p.val 2

/-- R167: LPE_PLYCMD with CMD 3. -/
def execHcok (p : Fin 1024) (s : State) : Result := s.run fun _ c => c.plyCommand p.val 3

/-- R167: LPE_PLYCMD with CMD 4. -/
def execHcinv (p : Fin 1024) (s : State) : Result := s.run fun _ c => c.plyCommand p.val 4

/-- R168: LPE_PLYCMD with CMD 5. -/
def execBsok (p : Fin 1024) (s : State) : Result := s.run fun _ c => c.plyCommand p.val 5

/-- R174: LPE_EVQ_LO read. -/
def execLpeEvqLoRead (s : State) : Result := s.read R.LPE_EVQ_LO

/-- R171: LPE_SYMQ_LO read. -/
def execLpeSymqLoRead (s : State) : Result := s.read R.LPE_SYMQ_LO

/-- R174: LPE_EVQ_STAT read. -/
def execLpeEvqStatRead (s : State) : Result := s.read R.LPE_EVQ_STAT

/-- R171: LPE_SYMQ_STAT read. -/
def execLpeSymqStatRead (s : State) : Result := s.read R.LPE_SYMQ_STAT

/-- R116: STR_WBOVR read. -/
def execStrWbovrRead (s : State) : Result := s.read R.STR_WBOVR

end Sys2Proof.Machine
end

