-- ==== Sys2Proof/Machine/ExecLoupe.lean ====
section
/-! DEFINITION. Meanings: the operations of the Loupe slices: slice, field of the bundle (0 X, 1 Y, 2 M, 3 C), operand bits, and
whether the bundle ends with it. -/
namespace Sys2Proof.Machine

/-- R225: NOP. -/
def execNop (k : Fin 9) (f : Fin 4) (w : BitVec 24) (last : Bool) (s : State) : Result := s.op 0x00 k f w last (fun c _ _ _ => c)

/-- R225: ADD. -/
def execAdd (k : Fin 9) (f : Fin 4) (w : BitVec 24) (last : Bool) (s : State) : Result := s.op 0x01 k f w last Core.opAdd

/-- R225: ADDS. -/
def execAdds (k : Fin 9) (f : Fin 4) (w : BitVec 24) (last : Bool) (s : State) : Result := s.op 0x02 k f w last Core.opAdds

/-- R225: SUB. -/
def execSub (k : Fin 9) (f : Fin 4) (w : BitVec 24) (last : Bool) (s : State) : Result := s.op 0x03 k f w last Core.opSub

/-- R225: ADDI. -/
def execAddi (k : Fin 9) (f : Fin 4) (w : BitVec 24) (last : Bool) (s : State) : Result := s.op 0x04 k f w last Core.opAddi

/-- R225: AND. -/
def execAndOp (k : Fin 9) (f : Fin 4) (w : BitVec 24) (last : Bool) (s : State) : Result := s.op 0x05 k f w last Core.opAnd

/-- R225: OR. -/
def execOrOp (k : Fin 9) (f : Fin 4) (w : BitVec 24) (last : Bool) (s : State) : Result := s.op 0x06 k f w last Core.opOr

/-- R225: XOR. -/
def execXorOp (k : Fin 9) (f : Fin 4) (w : BitVec 24) (last : Bool) (s : State) : Result := s.op 0x07 k f w last Core.opXor

/-- R225: SHL. -/
def execShl (k : Fin 9) (f : Fin 4) (w : BitVec 24) (last : Bool) (s : State) : Result := s.op 0x08 k f w last Core.opShl

/-- R225: SHRA. -/
def execShra (k : Fin 9) (f : Fin 4) (w : BitVec 24) (last : Bool) (s : State) : Result := s.op 0x09 k f w last Core.opShra

/-- R225: SHRL. -/
def execShrl (k : Fin 9) (f : Fin 4) (w : BitVec 24) (last : Bool) (s : State) : Result := s.op 0x0A k f w last Core.opShrl

/-- R225: MOVI. -/
def execMovi (k : Fin 9) (f : Fin 4) (w : BitVec 24) (last : Bool) (s : State) : Result := s.op 0x0B k f w last Core.opMovi

/-- R225: MOVHI. -/
def execMovhi (k : Fin 9) (f : Fin 4) (w : BitVec 24) (last : Bool) (s : State) : Result := s.op 0x0C k f w last Core.opMovhi

/-- R225: MIN. -/
def execMinOp (k : Fin 9) (f : Fin 4) (w : BitVec 24) (last : Bool) (s : State) : Result := s.op 0x0D k f w last Core.opMin

/-- R225: MAX. -/
def execMaxOp (k : Fin 9) (f : Fin 4) (w : BitVec 24) (last : Bool) (s : State) : Result := s.op 0x0E k f w last Core.opMax

/-- R225: ABS. -/
def execAbsOp (k : Fin 9) (f : Fin 4) (w : BitVec 24) (last : Bool) (s : State) : Result := s.op 0x0F k f w last Core.opAbs

/-- R225: CMP. -/
def execCmp (k : Fin 9) (f : Fin 4) (w : BitVec 24) (last : Bool) (s : State) : Result := s.op 0x10 k f w last Core.opCmp

/-- R225: SEL. -/
def execSel (k : Fin 9) (f : Fin 4) (w : BitVec 24) (last : Bool) (s : State) : Result := s.op 0x11 k f w last Core.opSel

/-- R225: MOV. -/
def execMov (k : Fin 9) (f : Fin 4) (w : BitVec 24) (last : Bool) (s : State) : Result := s.op 0x12 k f w last Core.opMov

/-- R225: MUL. -/
def execMul (k : Fin 9) (f : Fin 4) (w : BitVec 24) (last : Bool) (s : State) : Result := s.op 0x18 k f w last Core.opMul

/-- R225: MULH. -/
def execMulh (k : Fin 9) (f : Fin 4) (w : BitVec 24) (last : Bool) (s : State) : Result := s.op 0x19 k f w last Core.opMulh

/-- R228: MAC. -/
def execMac (k : Fin 9) (f : Fin 4) (w : BitVec 24) (last : Bool) (s : State) : Result := s.op 0x1A k f w last Core.opMac

/-- R228: MSU. -/
def execMsu (k : Fin 9) (f : Fin 4) (w : BitVec 24) (last : Bool) (s : State) : Result := s.op 0x1B k f w last Core.opMsu

/-- R225: CLRA. -/
def execClra (k : Fin 9) (f : Fin 4) (w : BitVec 24) (last : Bool) (s : State) : Result := s.op 0x1C k f w last Core.opClra

/-- R232: STA. -/
def execSta (k : Fin 9) (f : Fin 4) (w : BitVec 24) (last : Bool) (s : State) : Result := s.op 0x1D k f w last Core.opSta

/-- R232: STAH. -/
def execStah (k : Fin 9) (f : Fin 4) (w : BitVec 24) (last : Bool) (s : State) : Result := s.op 0x1E k f w last Core.opStah

/-- R232: RDA. -/
def execRda (k : Fin 9) (f : Fin 4) (w : BitVec 24) (last : Bool) (s : State) : Result := s.op 0x1F k f w last Core.opRda

/-- R232: WRA. -/
def execWra (k : Fin 9) (f : Fin 4) (w : BitVec 24) (last : Bool) (s : State) : Result := s.op 0x20 k f w last Core.opWra

/-- R225: CLRF. -/
def execClrf (k : Fin 9) (f : Fin 4) (w : BitVec 24) (last : Bool) (s : State) : Result := s.op 0x21 k f w last Core.opClrf

/-- R225: FADD. -/
def execFadd (k : Fin 9) (f : Fin 4) (w : BitVec 24) (last : Bool) (s : State) : Result := s.op 0x28 k f w last Core.opFadd

/-- R225: FSUB. -/
def execFsub (k : Fin 9) (f : Fin 4) (w : BitVec 24) (last : Bool) (s : State) : Result := s.op 0x29 k f w last Core.opFsub

/-- R225: FMUL. -/
def execFmul (k : Fin 9) (f : Fin 4) (w : BitVec 24) (last : Bool) (s : State) : Result := s.op 0x2A k f w last Core.opFmul

/-- R225: FMA. -/
def execFma (k : Fin 9) (f : Fin 4) (w : BitVec 24) (last : Bool) (s : State) : Result := s.op 0x2B k f w last Core.opFma

/-- R225: FCVT. -/
def execFcvt (k : Fin 9) (f : Fin 4) (w : BitVec 24) (last : Bool) (s : State) : Result := s.op 0x2C k f w last Core.opFcvt

/-- R225: FTOI. -/
def execFtoi (k : Fin 9) (f : Fin 4) (w : BitVec 24) (last : Bool) (s : State) : Result := s.op 0x2D k f w last Core.opFtoi

/-- R225: LDW. -/
def execLdw (k : Fin 9) (f : Fin 4) (w : BitVec 24) (last : Bool) (s : State) : Result := s.op 0x30 k f w last Core.opLdw

/-- R225: LDWP. -/
def execLdwp (k : Fin 9) (f : Fin 4) (w : BitVec 24) (last : Bool) (s : State) : Result := s.op 0x31 k f w last Core.opLdwp

/-- R229: STW. -/
def execStw (k : Fin 9) (f : Fin 4) (w : BitVec 24) (last : Bool) (s : State) : Result := s.op 0x32 k f w last Core.opStw

/-- R229: STWP. -/
def execStwp (k : Fin 9) (f : Fin 4) (w : BitVec 24) (last : Bool) (s : State) : Result := s.op 0x33 k f w last Core.opStwp

/-- R225: LDD. -/
def execLdd (k : Fin 9) (f : Fin 4) (w : BitVec 24) (last : Bool) (s : State) : Result := s.op 0x34 k f w last Core.opLdd

/-- R229: STD. -/
def execStd (k : Fin 9) (f : Fin 4) (w : BitVec 24) (last : Bool) (s : State) : Result := s.op 0x35 k f w last Core.opStd

/-- R225: PADD. -/
def execPadd (k : Fin 9) (f : Fin 4) (w : BitVec 24) (last : Bool) (s : State) : Result := s.op 0x36 k f w last Core.opPadd

/-- R237: GLD. -/
def execGld (k : Fin 9) (f : Fin 4) (w : BitVec 24) (last : Bool) (s : State) : Result := s.op 0x38 k f w last Core.opGld

/-- R237: GST. -/
def execGst (k : Fin 9) (f : Fin 4) (w : BitVec 24) (last : Bool) (s : State) : Result := s.op 0x39 k f w last Core.opGst

/-- R230: BR. -/
def execBr (k : Fin 9) (f : Fin 4) (w : BitVec 24) (last : Bool) (s : State) : Result :=
  s.op 0x40 k f w last (fun c k _ w => c.opBr k w)

/-- R233: LOOPI. -/
def execLoopi (k : Fin 9) (f : Fin 4) (w : BitVec 24) (last : Bool) (s : State) : Result := s.op 0x41 k f w last Core.opLoopi

/-- R234: LOOPR. -/
def execLoopr (k : Fin 9) (f : Fin 4) (w : BitVec 24) (last : Bool) (s : State) : Result := s.op 0x42 k f w last Core.opLoopr

/-- R225: WAIT. -/
def execWait (k : Fin 9) (f : Fin 4) (w : BitVec 24) (last : Bool) (s : State) : Result :=
  s.op 0x43 k f w last (fun c k _ w => c.opWait k w)

/-- R230: END. -/
def execEndOp (k : Fin 9) (f : Fin 4) (w : BitVec 24) (last : Bool) (s : State) : Result :=
  s.op 0x44 k f w last (fun c k _ _ => c.opEnd k)

/-- R225: EI. -/
def execEi (k : Fin 9) (f : Fin 4) (w : BitVec 24) (last : Bool) (s : State) : Result :=
  s.op 0x45 k f w last (fun c k f _ => c.opEi k f)

/-- R225: DI. -/
def execDi (k : Fin 9) (f : Fin 4) (w : BitVec 24) (last : Bool) (s : State) : Result :=
  s.op 0x46 k f w last (fun c k f _ => c.opDi k f)

/-- R240: RETI. -/
def execReti (k : Fin 9) (f : Fin 4) (w : BitVec 24) (last : Bool) (s : State) : Result :=
  s.op 0x47 k f w last (fun c k _ _ => c.opReti k)

/-- R225: ATN2. -/
def execAtn2 (k : Fin 9) (f : Fin 4) (w : BitVec 24) (last : Bool) (s : State) : Result := s.op 0x48 k f w last Core.opAtn2

/-- R225: DIV. -/
def execDiv (k : Fin 9) (f : Fin 4) (w : BitVec 24) (last : Bool) (s : State) : Result := s.op 0x49 k f w last Core.opDiv

/-- R225: RSQ. -/
def execRsq (k : Fin 9) (f : Fin 4) (w : BitVec 24) (last : Bool) (s : State) : Result := s.op 0x4A k f w last Core.opRsq

/-- R225: LOG2. -/
def execLog2 (k : Fin 9) (f : Fin 4) (w : BitVec 24) (last : Bool) (s : State) : Result := s.op 0x4B k f w last Core.opLog2

/-- R235: PRD. -/
def execPrd (k : Fin 9) (f : Fin 4) (w : BitVec 24) (last : Bool) (s : State) : Result := s.op 0x50 k f w last Core.opPrd

/-- R236: PWB. -/
def execPwb (k : Fin 9) (f : Fin 4) (w : BitVec 24) (last : Bool) (s : State) : Result :=
  s.op 0x51 k f w last (fun c k _ w => c.opPwb k w)

/-- R238: QPUSH. -/
def execQpush (k : Fin 9) (f : Fin 4) (w : BitVec 24) (last : Bool) (s : State) : Result :=
  s.opAt 0x52 k f w last (fun t c k _ w => (c.opQpush k w).settleCaught t)

/-- R240: a pending source is taken at the bundle boundary. -/
def execInterruptEntry (k : Fin 9) (s : State) : Result := s.run fun _ c => if c.sliceOn k.val then c.interruptEntry k.val else c

/-- R240: LPE_DBELLk. -/
def execLpeDbellWrite (k : Fin 9) (code : BitVec 8) (s : State) : Result := s.run fun _ c => c.dbell k.val code.toNat

end Sys2Proof.Machine
end

