-- ==== Sys2Proof/Machine/Sentences.lean ====
section
/-! DEFINITION. NMEA 0183 sentences and RTCM messages (R267 to R269): which are sent and when, and what each carries. The text of a
sentence and the coding of a message are those of outside standards (log entry 18). -/
namespace Sys2Proof.Machine

/-! ### NMEA 0183 (R267) -/

def ascii (s : String) : List Byte := s.toList.map fun x => BitVec.ofNat 8 x.toNat

def hexDigit (n : Nat) : Byte := BitVec.ofNat 8 (if n < 10 then 0x30 + n else 0x37 + n)

/-- A sentence: `$`, its body, `*`, the standard checksum, CR and LF; at most 82 characters. -/
def nmeaLine (body : List Byte) : List Byte :=
  let b := body.take 76
  let x := b.foldl (· ^^^ ·) 0#8
  [0x24#8] ++ b ++ [0x2A#8, hexDigit (x.toNat / 16), hexDigit (x.toNat % 16), 0x0D#8, 0x0A#8]

/-- The talkers of the systems 0 to 5 of R183; SBAS appears under GP. -/
def nmeaTalkers : List String := ["GP", "GL", "GA", "GB", "GQ", "GI"]
def nmeaGroup (sys : Nat) : Nat := if sys = 6 then 0 else sys

/-- The ID of a satellite in its talker's numbering; a GLONASS satellite of unknown slot has none. -/
def nmeaId (sys sv : Nat) : Option Nat :=
  match sys with
  | 1 => if sv < 0x80 then some (sv + 64) else none
  | 4 => some (sv - 192)
  | 6 => some (sv - 87)
  | 0 | 2 | 3 | 5 => some sv
  | _ => none

/-- A ply's place among the talkers and its satellite's ID. -/
def Core.nmeaSat (c : Core) (p : Nat) : Option (Nat × Nat) :=
  let s := c.sigOf p
  (nmeaId (s.1 / 16) s.2).map fun i => (nmeaGroup (s.1 / 16), i)

/-- The entries of a list, each once, in the order of their first occurrence. -/
def once {α : Type} [DecidableEq α] (l : List α) : List α := l.foldl (fun r a => if r.contains a then r else r ++ [a]) []

/-- A list cut into pieces of `n`. -/
def pieces {α : Type} (n : Nat) : Nat → List α → List (List α)
  | 0, _ => []
  | _, [] => []
  | k + 1, l => l.take n :: pieces n k (l.drop n)

/-- The filter has a fix: TRACK or COAST. -/
def solFix (r : List Byte) : Bool := decide (leAt r 4 1 = 3 ∨ leAt r 4 1 = 4)

/-- GGA's quality: 0 no fix, 1 fix, 6 COAST with aiding active. -/
def solQuality (r : List Byte) : Nat := if ¬ solFix r then 0 else if leAt r 4 1 = 4 ∧ leAt r 5 1 % 2 = 1 then 6 else 1

/-- A turn in degrees, 0 to 360. -/
def degrees (turns : Rat) : Rat := (turns - (turns.floor : Rat)) * 360

def atan2Rat (y x : Rat) : Rat := Config.atan2Turns (roundRat (y * 65536)) (roundRat (x * 65536))

/-- The UTC label of a solution record, where UTC is valid. -/
def Core.solLabel (c : Core) (now : Nat) (r : List Byte) : Option CalDate :=
  (c.scaleOfs 4).map fun o => utcLabel c.dst.leap (c.solGpst now r) (o.fdiv 65536)

/-- Fields of a kind, or as many empty ones. -/
def fieldsIf (ok : Bool) (l : List NmeaField) : List NmeaField := if ok then l else l.map fun _ => .empty

def numField (n : Nat) : NmeaField := .number (n : Rat)

/-- The satellites that gave rows to the update of a solution record. -/
def Core.usedSats (c : Core) (now : Nat) (r : List Byte) : List (Nat × Nat) :=
  once ((belowSuch 1024 (c.givesRows (fullEpoch now (leAt r 0 4)))).filterMap c.nmeaSat)

/-- Elevation and azimuth of a ply's satellite in degrees, where its entry is usable. -/
def Core.satDir (c : Core) (epoch p : Nat) : Option (Rat × Rat) :=
  if ¬ c.satUsable epoch p then none
  else
    let v := Config.northEastDown c.position (c.sightOf epoch p)
    let n := v.getD 0 0
    let e := v.getD 1 0
    some (atan2Rat (-(v.getD 2 0)) (Config.sqrtRat (n * n + e * e)) * 360, degrees (atan2Rat e n))

/-- The satellites in view, once per signal ID; a ply in HOLD is not tracked; a signal without a signal ID is left out. -/
def Core.satViews (c : Core) (epoch : Nat) : List SatView :=
  let l := (belowSuch 1024 fun p => (c.bind p).en).filterMap fun p =>
    match c.nmeaSat p, Config.nmeaSignal (c.sigOf p).1 with
    | some (g, i), some k =>
      let cn0 := if (c.ply p).mode ≠ mHold ∧ (c.ply p).cn0v then some (((c.ply p).cn0Enc : Rat) / 100) else none
      some { group := g, id := i, signal := k, dir := c.satDir epoch p, cn0 := cn0 }
    | _, _ => none
  l.foldl (fun (r : List SatView) v => if r.any fun x => x.group == v.group && x.id == v.id && x.signal == v.signal then r else r ++ [v]) []

/-- The GSV sentences of a talker and a signal ID, four satellites in each. -/
def gsvOf (views : List SatView) (g k : Nat) : List NmeaSentence :=
  let mine := views.filter fun v => v.group == g && v.signal == k
  let cut := pieces 4 mine.length mine
  let inView := (once ((views.filter fun v => v.group == g).map (·.id))).length
  let optNum := fun (q : Option Rat) => q.elim NmeaField.empty .number
  cut.zipIdx.map fun q =>
    { talker := ascii (nmeaTalkers.getD g ""), kind := 4,
      fields := [numField cut.length, numField (q.2 + 1), numField inView] ++
        (q.1.flatMap fun v => [numField v.id, optNum (v.dir.map (·.1)), optNum (v.dir.map (·.2)), optNum v.cn0]) ++ [numField k] }

/-- The GSA sentences of a system: twelve satellites in each. -/
def gsaOf (r : List Byte) (ids : List Nat) (g : Nat) : List NmeaSentence :=
  (pieces 12 ids.length ids).map fun q =>
    { talker := ascii "GN", kind := 3,
      fields := [.text (ascii "A"), numField (if solFix r then 3 else 1)] ++ q.map numField ++ List.replicate (12 - q.length) .empty ++
        [.unstated 0, .unstated 1, .unstated 2, numField (g + 1)] }

/-- The sentences of a kind for a solution record (R267). -/
def Core.sentences (c : Core) (now kind : Nat) (r : List Byte) : List NmeaSentence :=
  let label := c.solLabel now r
  let time := label.elim NmeaField.empty .time
  let fix := solFix r
  let g := Config.geodetic (solPos r)
  let v := Config.northEastDown (solPos r) (solVel r)
  let vn := v.getD 0 0
  let ve := v.getD 1 0
  let place := fieldsIf fix [.number (g.getD 0 0), .number (g.getD 1 0)]
  let used := c.usedSats now r
  let one := fun (fs : List NmeaField) => [({ talker := ascii "GN", kind := kind, fields := fs } : NmeaSentence)]
  let dateFields := match label with
    | some d => [numField d.day, numField d.month, numField d.year]
    | none => [.empty, .empty, .empty]
  match kind with
  | 0 => one ([time] ++ place ++ [numField (solQuality r), numField (min 99 used.length), .unstated 1] ++
      fieldsIf fix [.number (g.getD 2 0 - g.getD 3 0), .number (g.getD 3 0)] ++ [.empty, .empty])
  | 1 =>
    let mode := match solQuality r with | 0 => "N" | 1 => "A" | _ => "E"
    let nav := if leAt r 4 1 = 3 then "S" else if leAt r 4 1 = 4 then "C" else "V"
    one ([time, .text (ascii (if fix then "A" else "V"))] ++ place ++
      fieldsIf fix [.number (Config.sqrtRat (vn * vn + ve * ve) * 3600 / 1852), .number (degrees (atan2Rat ve vn))] ++ dateFields ++
      [.empty, .empty, .text (ascii mode), .text (ascii nav)])
  | 2 => one ([time] ++ dateFields ++ [.text (ascii "00"), .text (ascii "00")])
  | 3 => (List.range 6).flatMap fun k => gsaOf r ((used.filter fun u => u.1 == k).map (·.2)) k
  | 4 =>
    let views := c.satViews now
    (List.range 6).flatMap fun k => (once ((views.filter fun v => v.group == k).map (·.signal))).flatMap (gsvOf views k)
  | 5 => one ([time] ++ (List.range 7).map fun k => .unstated (3 + k))
  | _ =>
    let h := c.trueHeading r
    one [if h = 0x80000000 then .empty else .number (degrees (scaled (signedOf 32 h) 29 / (2 * Config.pi))), .text (ascii "T")]

/-- The sentences of a kind are due for the newest solution record: it is the first one with t_u at or after one of the instants that
OUT_NMEA_RATE gives (R269, log entry 178). -/
def Core.nmeaDue (c : Core) (kind tu : Nat) : Bool :=
  let step := 1000 / max 1 (c.settingNat 2)
  match vecAt none c.dst.nmeaAt kind with
  | some last => decide (last / step < tu / step)
  | none => true

/-- The newest solution record that Distaff has. -/
def Core.newestSol (c : Core) : Option (List Byte) := (c.out.sols.getLast?.map (·.1)) <|> c.out.lastSol

/-- The sentences of a kind of OUT_NMEA_MASK: where they are due, skipped and counted at shed level 1, else sent whole to their port. -/
def Core.nmea (c : Core) (t : Clock) (kind : Nat) : Core :=
  match c.newestSol with
  | none => c
  | some r =>
    let tu := fullEpoch t.epoch (leAt r 0 4)
    if ¬ c.distaffServes ∨ ¬ bitOf (c.settingNat 0) kind ∨ ¬ c.nmeaDue kind tu then c
    else
      let c1 := c.onDst fun d => { d with nmeaAt := putAt d.nmeaAt kind (some tu) }
      if 1 ≤ c.fld F.SYS_DSTLOAD.LEVEL then c1.countSat F.SYS_DSTSHED.NMEA 1
      else
        let ls := (c.sentences t.epoch kind r).map fun x => nmeaLine (Config.nmeaBody r x)
        ls.foldl (fun (c : Core) b => (c.enqueue (if c.settingNat 1 = 0 then 0 else 2) b).1) c1

/-! ### RTCM (R267, R268) -/

/-- The system of R183 and the message number of an MSM, by its bit of OUT_RTCM_MASK. -/
def msmSystem (kind : Nat) : Nat := [0, 1, 2, 4, 3].getD kind 7
def msmNumber (kind : Nat) : Nat := [1077, 1087, 1097, 1117, 1127].getD kind 0

/-- The observation code of a signal of R451; a signal not listed has none. -/
def obsCode (sys sig : Nat) : Option (List Byte) :=
  let row : List (Option String) := match sys with
    | 0 => [some "1C", some "1X", some "2X", some "5X"]
    | 1 => [some "1C", some "2C"]
    | 2 => [some "1X", some "5X", some "7X", some "8X", some "6X"]
    | 3 => [some "2I", some "1X", some "5X", none, some "6I"]
    | 4 => [some "1C", some "1X", some "2X", some "5X", some "6L"]
    | _ => []
  (row.getD sig none).map ascii

/-- The extended information of a satellite: k + 7 of a GLONASS frequency channel, from its carrier (R143), else 0. -/
def Core.rtcmExt (c : Core) (p sys sig : Nat) : Nat :=
  if sys ≠ 1 then 0
  else
    let f := carrierHz (c.bind p) (c.bind p).main
    ((roundRat (if sig = 0 then (f - 1602000000) / 562500 else (f - 1246000000) / 437500)) + 7).toNat

/-- What a MAIN record gives an MSM: its satellite, with its one cell, and the ply. -/
def Core.rtcmCell (c : Core) (kind : Nat) (e : List Word) : Option (Nat × RtcmSat) :=
  let w := wordOf e 0
  let p := bits w 9 0
  let s := c.sigOf p
  let sys := s.1 / 16
  let flag := fun k => bits (wordOf e 7) k k == 1
  let wide := fun k => signedOf 64 ((wordOf e k).toNat + 2 ^ 32 * (wordOf e (k + 1)).toNat)
  if bits w 13 12 ≠ (c.bind p).main.idx ∨ sys ≠ msmSystem kind ∨ 0x80 ≤ s.2 then none
  else
    ((obsCode sys (s.1 % 16)).bind (Config.rtcmSignal (msmNumber kind))).map fun k =>
      let lam := lightSpeed / carrierHz (c.bind p) (c.bind p).main
      let slips := bits (wordOf e 9) 31 16
      let broken := flag 7 || flag 6 || slips != mapGet (fun _ => slips) c.dst.msmSlips p
      let cell : RtcmCell :=
        { signal := k, pr := if flag 0 then some (scaled (wide 2) 16) else none, ph := if flag 1 then some (scaled (wide 4) 10 * lam) else none,
          lock := if broken then 0 else (wordOf e 8).toNat, half := flag 4, cn0 := bits (wordOf e 7) 31 16,
          rate := -(scaled (signedOf 32 (wordOf e 6).toNat) 8) * lam }
      (p, { id := s.2, ext := c.rtcmExt p sys (s.1 % 16), cells := [cell] })

/-- The cells of each satellite together, in the satellites' order. -/
def joinSats (l : List RtcmSat) : List RtcmSat :=
  l.foldl (fun (r : List RtcmSat) x =>
    if r.any fun y => y.id == x.id then r.map fun y => if y.id = x.id then { y with cells := y.cells ++ x.cells } else y
    else r ++ [x]) []

/-- The satellites that fit a message of 64 cells, and the rest. -/
def takeSixtyFour : Nat → List RtcmSat → List RtcmSat × List RtcmSat
  | _, [] => ([], [])
  | n, x :: r =>
    if 64 < n + x.cells.length then ([], x :: r) else let q := takeSixtyFour (n + x.cells.length) r; (x :: q.1, q.2)

/-- The satellites cut into messages. -/
def msmParts : Nat → List RtcmSat → List (List RtcmSat)
  | 0, _ => []
  | _, [] => []
  | k + 1, l => let q := takeSixtyFour 0 l; q.1 :: msmParts k q.2

/-- The day, for GLONASS, and the time in ms of receiver time in a system's own time: time of day, else time of week. -/
def Core.msmTime (c : Core) (sys rxt : Nat) : Nat × Nat :=
  let own := (rxt : Int) - roundRat (c.nominalOffset sys * 1000)
  if sys = 1 then ((own / 86400000 % 7).toNat, (own % 86400000).toNat) else (0, (own % 604800000).toNat)

/-- What an occurrence gives the message of a kind. -/
def Core.msmCells (c : Core) (kind : Nat) (es : List (List Word)) : List (Nat × RtcmSat) := es.tail.filterMap (c.rtcmCell kind)

/-- The MSMs of a kind for an occurrence: split across satellites above 64 cells, the multiple-message bit set while more of the same
epoch follow. -/
def Core.msms (c : Core) (now kind : Nat) (es : List (List Word)) : List RtcmMsg :=
  let sats := joinSats ((c.msmCells kind es).map (·.2))
  let parts := msmParts sats.length sats
  let later := (List.range 5).any fun k => decide (kind < k) && bitOf (c.settingNat 3) k && !(c.msmCells k es).isEmpty
  let at' := c.msmTime (msmSystem kind) (c.rxt (fullEpoch now (wordOf (es.headD []) 1).toNat))
  parts.zipIdx.map fun q =>
    .msm (msmNumber kind) (c.settingNat 6) at'.1 at'.2 (later || decide (q.2 + 1 < parts.length)) (c.settingNat 7) q.1

/-- A due RTCM message of a kind of OUT_RTCM_MASK; 1005 needs a valid reference point. Shedding does not touch it (R393). -/
def Core.rtcm (c : Core) (t : Clock) (kind : Nat) : Core :=
  if ¬ c.distaffServes ∨ ¬ bitOf (c.settingNat 3) kind ∨ (kind = 5 ∧ leAt (c.setting 8) 28 4 = 0) then c
  else
    let es := c.occurrence (c.settingNat 5)
    let msgs : List RtcmMsg := match kind with
      | 5 => [.arp (c.settingNat 6) (c.setting 8)]
      | 6 => [.bias (c.settingNat 6)]
      | k => c.msms t.epoch k es
    let slips := fun (m : AddrMap Nat) (e : List Word) => mapPut (fun _ => 0x10000) m (bits (wordOf e 0) 9 0) (bits (wordOf e 9) 31 16)
    let shown := if kind < 5 then es.tail.filter fun e => (c.rtcmCell kind e).isSome else []
    let port := match c.settingNat 4 with | 0 => 0 | 1 => 2 | _ => 1
    msgs.foldl (fun (c : Core) x => (c.enqueue port (Config.rtcmFrame x)).1) (c.onDst fun d => { d with msmSlips := shown.foldl slips d.msmSlips })

end Sys2Proof.Machine
end

