-- ==== Sys2Proof/Machine/ExecMessages.lean ====
section
/-! DEFINITION. Meanings: Distaff's own messages. -/
namespace Sys2Proof.Machine

/-- R457: the next frame of a transfer. -/
def execXdata (tag : BitVec 8) (bad : Bool) (s : State) : Result := s.run fun t c => c.xdata t tag.toNat bad

/-- R450: MEAS. -/
def execMeas (s : State) : Result := s.run fun _ c => c.meas

/-- R452: PVT. -/
def execPvt (s : State) : Result := s.run fun t c => c.pvt t

/-- R452: TIME. -/
def execTime (s : State) : Result := s.run fun t c => c.timeMsg t

/-- R453: TP. -/
def execTp (n : Fin 4) (s : State) : Result := s.run fun _ c => c.tpMsg n.val

/-- R454: EVENT. -/
def execEvent (s : State) : Result := s.run fun _ c => c.eventMsg

/-- R455, with the OSNMA status of each Galileo satellite. -/
def execStatus (osnma : List OsnmaSat) (s : State) : Result := s.run fun t c => c.status t osnma

/-- R455: NOTICE. -/
def execNotice (l : Fin 2) (s : State) : Result := s.run fun t c => c.notice t l.val

/-- R448: ACQ_RESULT. -/
def execAcqResult (tag : BitVec 8) (s : State) : Result := s.run fun _ c => c.acqResult tag.toNat

/-- R448: SYM. -/
def execSym (s : State) : Result := s.run fun _ c => c.forward 2 2 (·.readSymq) R.LPE_SYMQ_HI

/-- R448: PLYEV. -/
def execPlyev (s : State) : Result := s.run fun _ c => c.forward 2 4 (·.readEvq) R.LPE_EVQ_HI

/-- R448: HEAD. -/
def execHead (b : Fin 3) (s : State) : Result := s.run fun _ c => c.headMsg b.val

/-- R267: a due sentence, by its bit of OUT_NMEA_MASK. -/
def execNmeaSentence (kind : Fin 7) (s : State) : Result := s.run fun t c => c.nmea t kind.val

/-- R268: a due message, by its bit of OUT_RTCM_MASK. -/
def execRtcmMessage (kind : Fin 7) (s : State) : Result := s.run fun t c => c.rtcm t kind.val

end Sys2Proof.Machine
end

