-- ==== Sys2Proof/Machine/ExecMirror.lean ====
section
/-! DEFINITION. Meanings: Mirror. -/
namespace Sys2Proof.Machine

/-- R322: the replay correlators finish. `stopped` are the streams whose replay met an uncorrectable Bobbin error (R324); `bad` is the
skein whose two correlators disagree (R330). -/
def execReplayCorrelationComplete (bad : Option (Fin 8)) (stopped : BitVec 8) (s : State) : Result :=
  s.run fun t c => c.replayMerge t (bad.map (·.val)) stopped.toNat

/-- R325: reruns begin. -/
def execRerunStart (s : State) : Result := s.run fun t c => c.rerunStart t

/-- R327: the rerun in progress ends; `bad` says that the two copies of the replay context disagree (R330). -/
def execRerunComplete (bad : Bool) (s : State) : Result := s.run fun t c => c.rerunComplete t bad

/-- R329: 2 ms after C_b. -/
def execReplayDeadline (s : State) : Result := s.run fun t c => c.replayDeadline t

/-- R332: the Distaff cores disagree. -/
def execDstcmp (s : State) : Result := s.run fun t c => c.dstcmp t false

/-- R337: MIR_INJ. -/
def execMirInj (w : Word) (s : State) : Result := s.run fun t c => c.mirInject t w c.serviceMode

/-- R334, R335, R396: an error in a memory by its row of the memory protection table. Row 1: `pair` holds it, `alt` says that parity of
strand state shows it, `index` names the copy, 1 or 2. Row 2: the staging group `pair` and the number of the doubleword or entry. Row
3: `alt` says that it lies in the patch area. Row 7: the queue, and the place of the entry from the oldest. -/
def execScrub (row : Fin 16) (pair : Fin 12) (unc : Bool) (alt : Bool) (index : Nat) (s : State) : Result :=
  s.run fun t c => c.scrubStep t row.val pair.val unc alt index

/-- R336: MIR_CNT read. -/
def execMirCntRead (s : State) : Result := s.read R.MIR_CNT

/-- R334: MIR_ECC read. -/
def execMirEccRead (s : State) : Result := s.read R.MIR_ECC

/-- R338: SYS_ACCERR read. -/
def execSysAccerrRead (s : State) : Result := s.read R.SYS_ACCERR

/-- R499: SYS_UNMAP read. -/
def execSysUnmapRead (s : State) : Result := s.read R.SYS_UNMAP

end Sys2Proof.Machine
end

