-- ==== Sys2Proof/Machine/ExecNvm.lean ====
section
/-! DEFINITION. Meanings: Distaff, NVM and Spool. -/
namespace Sys2Proof.Machine

/-- R391: a scheduling frame with its load in 1/16 epoch and the use of the last 1,000 frames in percent. -/
def execDistaffFrameStart (load : Nat) (util : Nat) (s : State) : Result := s.run fun t c => ((c.frameStart load util).followUps t).steerRx t

/-- R396: Distaff writes word `o` of the patch area. -/
def execPatchAreaWrite (o : Fin 15872) (w : Word) (s : State) : Result := s.run fun _ c => c.sramWrite (patchArea + 4 * o.val) w

/-- R403: the record in front is written, verified with the outcome given, and committed; before it a fault report, a decoded week
number with its system (R389) and tracking statistics are queued. -/
def execSpoolRecordWrite (good : Bool) (week : Option (Fin 4 × Nat)) (stats : Option (List Byte)) (s : State) : Result :=
  s.run fun _ c => c.spoolStep good week stats

/-- R408: compaction starts. -/
def execCompactionStart (s : State) : Result := s.run fun _ c => c.compactStart

/-- R408: compaction ends. -/
def execCompactionComplete (s : State) : Result := s.run fun _ c => c.compactEnd

/-- R399: the cache is written with what Distaff has learnt. -/
def execCacheWrite (body : List Byte) (s : State) : Result := s.run fun t c => c.cacheWrite t.abs body

/-- R398: a word program ends. -/
def execNvmProgramDone (s : State) : Result := s.run fun _ c => c.nvmDone 1

/-- R398: a sector erase ends. -/
def execNvmEraseDone (s : State) : Result := s.run fun _ c => c.nvmDone 2

/-- R403: NVM_STAT read. -/
def execNvmStatRead (s : State) : Result := s.read R.NVM_STAT

/-- R393: SYS_DSTSHED read. -/
def execSysDstshedRead (s : State) : Result := s.read R.SYS_DSTSHED

end Sys2Proof.Machine
end

