-- ==== Sys2Proof/Machine/ExecOutputs.lean ====
section
/-! DEFINITION. Meanings: outputs computed by Distaff. -/
namespace Sys2Proof.Machine

/-- R254: a range anchor. -/
def execRangeAnchorWrite (p : Fin 1024) (sys : BitVec 3) (ea : Word) (txa : BitVec 64) (s : State) : Result :=
  s.run fun _ c => c.writeAnchorOf p.val sys.toNat ea txa.toNat

/-- R264: the ambiguity search of a baseline. -/
def execHeadingSearch (b : Fin 3) (s : State) : Result := s.run fun t c => c.headingSearch t b.val

/-- R261: an entry of the time-scale table, from whole leap seconds, a broadcast offset or the Focus estimate; the day of a leap
second when one is announced. -/
def execTimeScaleTableWrite (k : Fin 8) (utc : Vector (Option (Int × Int)) 3) (bcast : Option Int) (leap : Option (Nat × Bool)) (s : State) :
    Result := s.run fun t c => c.scaleWrite t k.val utc bcast leap

end Sys2Proof.Machine
end

