-- ==== Sys2Proof/Machine/ExecPlan.lean ====
section
/-! DEFINITION. Meanings: plan control, staging and the job queue. -/
namespace Sys2Proof.Machine

/-- R53: PLAN_CTRL.LOAD. -/
def execPlanLoad (s : State) : Result := s.run fun t c => c.planCtrl t 1

/-- R34: the check ends. -/
def execPlanCheckComplete (s : State) : Result := s.run fun _ c => c.checkComplete

/-- R53: PLAN_CTRL.ARM. -/
def execPlanArm (s : State) : Result := s.run fun t c => c.planCtrl t 2

/-- R53: PLAN_CTRL.DISARM. -/
def execPlanDisarm (s : State) : Result := s.run fun t c => c.planCtrl t 4

/-- R41: PLAN_COMMIT. -/
def execPlanCommit (mask : BitVec 15) (s : State) : Result := s.run fun t c => c.planCommit t mask.toNat

/-- R42: a write to a staged field, by its address. -/
def execStagedWrite (addr : Word) (value : Word) (s : State) : Result := s.run fun t c => c.busWrite t addr.toNat value

/-- R48: PLAN_JQ_DONE read. -/
def execJqDoneRead (s : State) : Result := s.read R.PLAN_JQ_DONE

/-- R52: PLAN_JQ_CANCEL. -/
def execJqCancel (tag : BitVec 8) (s : State) : Result := s.run fun t c => c.cancelJob t tag.toNat

/-- R51: the transfer of a tag has moved everything. -/
def execTransferComplete (tag : BitVec 8) (s : State) : Result := s.run fun t c => c.transferComplete t tag.toNat

/-- R102: the sample that a waiting cursor needs has been written. -/
def execCursorResume (tag : BitVec 8) (s : State) : Result := s.run fun t c => c.cursorResume t tag.toNat

/-- R102: the next sample of a cursor stops being held. -/
def execCursorOvertaken (tag : BitVec 8) (s : State) : Result := s.run fun t c => c.cursorOvertaken t tag.toNat

/-- R260: PLAN_OSTAT read. -/
def execPlanOstatRead (s : State) : Result := s.read R.PLAN_OSTAT

/-- R27: PLAN_EPOCH_LO read. -/
def execPlanEpochLoRead (s : State) : Result := s.read R.PLAN_EPOCH_LO

end Sys2Proof.Machine
end

