-- ==== Sys2Proof/Machine/ExecPower.lean ====
section
/-! DEFINITION. Meanings: supplies and power states. -/
namespace Sys2Proof.Machine

/-- R346, R347: VMAIN falls below 1.60 V. -/
def execVmainLow (s : State) : Result :=
  .next (if s.core.onVbat then s else s.reseat (((s.core.supply 0 false).switchWhorl 1).enterBackup))

/-- R346, R347: VMAIN has been above 1.65 V for 2 ms; the start-up that follows is START_UP. -/
def execVmainReturn (s : State) : Result :=
  .next (if s.core.onVbat then s.reseat (resetCore ((s.core.switchWhorl 0).supply 0 true) 2) else s)

/-- R345: VCORE below its threshold. -/
def execVcoreLow (s : State) : Result := .next (s.railLow 1 3)

/-- R345: VPLL below its threshold. -/
def execVpllLow (s : State) : Result := .next (s.railLow 2 4)

/-- R345: VSAMP below its threshold. -/
def execVsampLow (s : State) : Result := s.always fun _ c => c.supply 3 false

/-- R345: VIO_A or VIO_B below its threshold; overrides of its balls are dropped (R462). -/
def execVioLow (bankB : Bool) (s : State) : Result :=
  s.always fun _ c => (c.supply (if bankB then 5 else 4) false).dropBank (if bankB then 5 else 4)

/-- R345: a rail rises above its rising threshold, by its bit of PWR_SUPSTAT; VMAIN has a command of its own. -/
def execSupplyReturn (rail : Fin 7) (s : State) : Result := s.always fun _ c => if rail.val = 0 then c else c.supply rail.val true

/-- R354: PWR_CTRL.DOZE. -/
def execPwrDoze (s : State) : Result := s.run fun t c => c.pwrCtrl t 2

/-- R354: PWR_CTRL.RUN. -/
def execPwrRun (s : State) : Result := s.run fun t c => c.pwrCtrl t 4

/-- R358: PWR_CTRL.HIB. -/
def execPwrHib (s : State) : Result := s.run fun t c => c.pwrCtrl t 1

/-- R356: PWR_IDLECNT reaches PWR_DOZEIDLE. -/
def execDozeIdleExpiry (s : State) : Result := s.run fun t c => c.dozeExpiry t

/-- R356: PWR_IDLECNT reaches PWR_HIBIDLE. -/
def execHibIdleExpiry (s : State) : Result := s.run fun t c => c.hibExpiry t

/-- R352: the strands are projected for the burst that begins at the coming boundary. -/
def execDozeBurstStart (s : State) : Result :=
  s.run fun t c => if c.burstDue (t.epoch + 1) && decide (fcPerHalf ≤ t.fc) then c.burstProject (t.epoch + 1) else c

/-- R351: DOZEON epochs of the burst have passed. -/
def execDozeOffPhase (s : State) : Result := s.run fun t c => c.offBegin t.epoch

/-- R354: the boundary at which DOZE is left. -/
def execDozeExit (s : State) : Result := s.run fun t c => c.dozeLeave t.epoch

/-- R358: the Whorl tick at which HIBERNATE is entered, once NVM is idle. -/
def execHibernateSave (s : State) : Result := .next (if s.core.hibDue then { s with held := [], core := s.core.hibSave s.clk } else s)

/-- R363: wake sources fire; what the start-up meets, the epochs until the first one with slots, and a save that cannot be
restored. -/
def execWake (mask : BitVec 6) (env : BootEnv) (wait : Nat) (retfail : Bool) (s : State) : Result :=
  .next (s.began (s.core.wake mask.toNat env wait retfail))

/-- R350: the island being powered up is ready. -/
def execIslandReady (s : State) : Result := s.run fun _ c => c.islandReady

/-- R366: the die temperature in 0.01 °C. -/
def execBiasChange (temp : Int) (s : State) : Result := s.run fun _ c => c.biasChange temp

/-- R356: activity on WAKE_N. -/
def execWakeNFallingEdge (s : State) : Result := s.run fun t c => c.activity t

end Sys2Proof.Machine
end

