-- ==== Sys2Proof/Machine/ExecPrism.lean ====
section
/-! DEFINITION. Meanings: Prism and handoff. -/
namespace Sys2Proof.Machine

/-- R209: a step opportunity at an fc of the open Prism slot. -/
def execPrismStepStart (fc : Fin 655360) (s : State) : Result := s.at fc.val fun t c => c.prismStart t

/-- R204, R215: the running step ends, with the errors that were met in it. -/
def execPrismStepComplete (ecc : StepErrors) (s : State) : Result :=
  s.due (s.core.prm.busy.map fun b => min b.ends s.clk.halfLast) fun t c => c.prismEnd t ecc.corrected ecc.lost

/-- R207: PRM_SUBMIT.GO. -/
def execPrmSubmit (s : State) : Result := s.run fun t c => c.prmSubmit t 1

/-- R215: PRM_STAT read. -/
def execPrmStatRead (s : State) : Result := s.read R.PRM_STAT

/-- R209: PRM_IDLE read. -/
def execPrmIdleRead (s : State) : Result := s.read R.PRM_IDLE

/-- R216: Distaff writes a word of a verification entry. -/
def execVerificationEntryWrite (p : Fin 1024) (k : Fin 4) (w : Word) (s : State) : Result :=
  s.run fun _ c => c.writeVerify p.val k.val w

/-- R218: Distaff hands a detection over. -/
def execHandoff (h : HandoffReq) (s : State) : Result := s.run fun t c => c.handoff t h

end Sys2Proof.Machine
end

