-- ==== Sys2Proof/Machine/ExecReel.lean ====
section
/-! DEFINITION. Meanings: Reel. -/
namespace Sys2Proof.Machine

/-- R296: REEL_START. -/
def execReelStart (mask : BitVec 8) (atEpoch : Bool) (sync : Bool) (s : State) : Result :=
  s.run fun t c => c.reelStart t mask.toNat atEpoch sync

/-- R296: REEL_STOP. -/
def execReelStop (mask : BitVec 8) (s : State) : Result := s.run fun t c => c.reelStop t mask.toNat

/-- R297: a write of CNT, CMP or INC. -/
def execReelLoWrite (g : ReelReg) (n : Fin 8) (w : Word) (s : State) : Result := s.run fun t c => c.reelLoWrite t g n.val w

/-- R299: the next match of an armed compare, where it falls in the running half-epoch. -/
def execCompareMatch (n : Fin 8) (s : State) : Result :=
  s.due ((s.core.nextMatch n.val s.core.reel.seen).bind fun m =>
    if tsPerEpoch * s.clk.epoch ≤ m then some (8 * (m - tsPerEpoch * s.clk.epoch)) else none) fun _ c => c

/-- R302: REEL_CFGn.PINSET. -/
def execPinset (n : Fin 8) (v : BitVec 2) (s : State) : Result := s.run fun t c => c.pinset t n.val v.toNat

/-- R303: REEL_CFGn.CAPSW. -/
def execCapsw (n : Fin 8) (s : State) : Result := s.run fun t c => c.capture n.val t.abs

/-- R303: an edge on EVTc. -/
def execCaptureEdge (ch : Fin 8) (falling : Bool) (s : State) : Result := s.run fun t c => c.captureEdge ch.val t.abs falling

/-- R298, R304: REEL_CNTn_LO of counter `n` read. -/
def execReelCntLoRead (n : Fin 8) (s : State) : Result := s.read (R.REEL_CNT_LO n.val)

/-- R298, R304: REEL_CMPn_LO of counter `n` read. -/
def execReelCmpLoRead (n : Fin 8) (s : State) : Result := s.read (R.REEL_CMP_LO n.val)

/-- R298, R304: REEL_CAPn_LO of counter `n` read. -/
def execReelCapLoRead (n : Fin 8) (s : State) : Result := s.read (R.REEL_CAP_LO n.val)

/-- R298: REEL_MKAMT_LO read. -/
def execReelMkamtLoRead (s : State) : Result := s.read R.REEL_MKAMT_LO

end Sys2Proof.Machine
end

