-- ==== Sys2Proof/Machine/ExecSerial.lean ====
section
/-! DEFINITION. Meanings: UARTs and QSPI. -/
namespace Sys2Proof.Machine

/-- R421: a character on the line; on UART1 it is activity (R356). -/
def execUartCharacterReceived (n : Fin 2) (x : LineSample) (s : State) : Result :=
  s.run fun t c =>
    if n.val = 1 ∧ c.rxLooks 1 = true ∧ x.start = false then (c.uartReceive 1 x).activity t else c.uartReceive n.val x

/-- R424: the character in the shifter ends and the next one starts. -/
def execUartTransmitCharacter (n : Fin 2) (s : State) : Result := s.run fun _ c => c.uartSend n.val

/-- R424: UARTn_DATA written. -/
def execUartDataWrite (n : Fin 2) (b : Byte) (s : State) : Result := s.run fun _ c => c.uartPut n.val b

/-- R422: UARTn_DATA read; Distaff takes the character for Twine on UART0 and for the console on UART1. -/
def execUartDataRead (n : Fin 2) (s : State) : Result := s.run fun t c => c.takeChar t n.val

/-- R418: UARTn_RATE. -/
def execUartRateWrite (n : Fin 2) (w : Word) (s : State) : Result := s.run fun _ c => c.uartRate n.val w

/-- R418: UARTn_CFG. -/
def execUartCfgWrite (n : Fin 2) (w : Word) (s : State) : Result := s.run fun _ c => c.uartCfg n.val w

/-- R424: UARTn_FIFOCTL.TXFLUSH. -/
def execTxflush (n : Fin 2) (s : State) : Result := s.run fun _ c => c.txFlush n.val

/-- R422: UARTn_FIFOCTL.RXFLUSH. -/
def execRxflush (n : Fin 2) (s : State) : Result := s.run fun _ c => c.rxFlush n.val

/-- R423: UARTn_TOUT character times without a start bit. -/
def execRxTimeout (n : Fin 2) (s : State) : Result := s.run fun _ c => c.rxTimeout n.val

/-- R419: UARTn_GLITCH read. -/
def execUartGlitchRead (n : Fin 2) (s : State) : Result := s.read (R.UART_GLITCH n.val)

/-- R426: a character at the wake receiver, while the core is off. -/
def execWakeCharacter (n : Fin 2) (x : LineSample) (s : State) : Result :=
  .next (if s.core.pwrState = pwHib then s.put (s.core.wakeReceive n.val x) else s)

/-- R20: PLL-B locks, which it cannot do before PLL-A has started SCLK_OUT. -/
def execPllLock (s : State) : Result := s.run fun _ c => applyIf c.bob.sclk Core.pllLock c

/-- R431: the status response. -/
def execRdsr (lanes : Fin 4) (s : State) : Result := s.qspRead lanes.val 8 (·.rdsr)

/-- R432: `n` bytes clocked out of the output stream. -/
def execRdstm (lanes : Fin 4) (n : Nat) (s : State) : Result := s.qspRead lanes.val (2 + n) (·.rdstm n)

/-- R432: bytes for the input stream. -/
def execWrstm (lanes : Fin 4) (bs : List Byte) (s : State) : Result := s.run fun _ c => c.qspCmd lanes.val (·.wrstm bs)

/-- R429: `n` bytes of the window buffer read. -/
def execRdwin (lanes : Fin 4) (ofs : BitVec 16) (n : Nat) (s : State) : Result :=
  s.qspRead lanes.val n (·.rdwin ofs.toNat n)

/-- R429: bytes written to the window buffer. -/
def execWrwin (lanes : Fin 4) (ofs : BitVec 16) (bs : List Byte) (s : State) : Result :=
  s.run fun _ c => c.qspCmd lanes.val (·.wrwin ofs.toNat bs)

/-- R433: OP = 1; `rsv` says that OP or byte 7 holds a reserved value. -/
def execWsetupRead (lanes : Fin 4) (addr : Word) (len : BitVec 16) (rsv : Bool) (badAt : Nat) (s : State) : Result :=
  s.run fun t c => c.qspCmd lanes.val fun c => c.windowRead t addr.toNat len.toNat rsv badAt

/-- R433: OP = 2. -/
def execWsetupWrite (lanes : Fin 4) (addr : Word) (len : BitVec 16) (rsv : Bool) (s : State) : Result :=
  s.run fun t c => c.qspCmd lanes.val fun c => c.windowWriteOp t addr.toNat len.toNat rsv

/-- R434: OP = 3. -/
def execWsetupImage (lanes : Fin 4) (addr : Word) (len : BitVec 16) (rsv : Bool) (s : State) : Result :=
  s.start fun _ c => c.windowImage lanes.val addr.toNat len.toNat rsv

/-- R433: the window operation ends. -/
def execWindowOpComplete (s : State) : Result := s.run fun _ c => c.windowDone

/-- R429: the bytes of SYS_ID. -/
def execRdid (lanes : Fin 4) (s : State) : Result := s.qspRead lanes.val 4 (·.rdid)

/-- R429: QPI mode entered. -/
def execEqpi (lanes : Fin 4) (s : State) : Result := s.run fun _ c => c.qspCmd lanes.val (·.qpiMode 1)

/-- R429: QPI mode left. -/
def execXqpi (lanes : Fin 4) (s : State) : Result := s.run fun _ c => c.qspCmd lanes.val (·.qpiMode 0)

/-- R429: SPI mode, and the sticky flags cleared. -/
def execIfrst (lanes : Fin 4) (s : State) : Result :=
  s.run fun _ c => c.qspCmd lanes.val (·.ifrst)

/-- R430: an undefined or malformed command. -/
def execBadcmd (s : State) : Result := s.run fun _ c => if c.flag F.QSP_CFG.EN then c.badCmd else c

/-- R430: QSP_CNT read. -/
def execQspCntRead (s : State) : Result := s.read R.QSP_CNT

/-- R435: a byte has waited 1 ms in the output stream. -/
def execOutputByteWait (s : State) : Result := s.run fun _ c => c.byteWait

end Sys2Proof.Machine
end

