-- ==== Sys2Proof/Machine/ExecStartup.lean ====
section
/-! DEFINITION. Meanings: start-up, resets and sets. -/
namespace Sys2Proof.Machine

/-- R471: the start-up after a reset, with what the board and the silicon bring to it. -/
def execStartUp (env : BootEnv) (s : State) : Result := s.start fun _ c => c.startUp env

/-- R490: a low level on RST_N; without VMAIN there is nothing to reset. -/
def execRstNAssert (s : State) : Result := .next (if s.core.onVbat then s else s.reseat (resetCore s.core 1))

/-- R469: REFCLK is counted again; the listed frequency found, by its REFSEL code. -/
def execRefclkDetectRetry (freq : Option Nat) (s : State) : Result := s.start fun _ c => c.refRetry freq

/-- R473: PLL lock is tried again. -/
def execPllLockRetry (ok : Bool) (s : State) : Result := s.start fun _ c => c.lockRetry ok

/-- R478: a frame at a follower, with its marker's phase in ps and whether training is under way. -/
def execEpochSyncFrame (count : BitVec 48) (crcOk : Bool) (phase : Int) (training : Bool) (s : State) : Result :=
  s.start fun t c => c.syncFrame t count.toNat crcOk phase training

/-- R481: SET_LATEMS has passed. -/
def execLateJoin (s : State) : Result := s.run fun _ c => c.lateJoin

/-- R482: LOSSLIM epochs without a valid frame. -/
def execSyncLoss (s : State) : Result := s.run fun _ c => c.syncLoss

/-- R482: SET_STAT read. -/
def execSetStatRead (s : State) : Result := s.read R.SET_STAT

/-- R7: a write to a register, under its field types. -/
def execRegisterWrite (addr : Word) (value : Word) (s : State) : Result := s.run fun t c => c.busWrite t addr.toNat value

end Sys2Proof.Machine
end

