-- ==== Sys2Proof/Machine/ExecStreams.lean ====
section
/-! DEFINITION. Meanings: sample streams, Bobbin and the snapshot. -/
namespace Sys2Proof.Machine

/-- R88: BOB_LVDS_CTRL.TRAIN. -/
def execTrain (mask : BitVec 8) (s : State) : Result := s.run fun _ c => c.train mask.toNat

/-- R82: the tap sweep of a stream ends with what it found on each pair. -/
def execTrainingComplete (n : Fin 8) (sweep : List PairSweep) (s : State) : Result := s.run fun _ c => c.trainingComplete n.val sweep

/-- R83: no strobe edge within 1.5 ms. -/
def execNostbTimeout (n : Fin 8) (s : State) : Result := s.run fun _ c => c.noStrobe n.val

/-- R86: eight Ts without a strobe edge. -/
def execStrobeLoss (n : Fin 8) (s : State) : Result := s.run fun _ c => c.strobeLoss n.val

/-- R86: the strobe is back. -/
def execStrobeReturn (n : Fin 8) (s : State) : Result := s.run fun _ c => c.strobeReturn n.val

/-- R85: the elastic FIFO left 1 to 7. -/
def execFifoSlip (n : Fin 8) (s : State) : Result := s.run fun _ c => c.fifoSlip n.val

/-- R87: a monitor capture differs. -/
def execEyewarn (n : Fin 8) (s : State) : Result := s.run fun _ c => c.eyeWarn n.val

/-- R105: BOB_SNAP_CTRL.ARM. -/
def execSnapshotArm (s : State) : Result := s.run fun t c => c.snapArm t

/-- R109: BOB_SNAP_CTRL.DISARM. -/
def execSnapshotDisarm (s : State) : Result := s.run fun t c => c.snapDisarm t

/-- R106, R355: the capture ends at its boundary. -/
def execCaptureEnd (s : State) : Result := s.run fun t c => (c.captureEnd t).enterSnapshot

/-- R109: BOB_SNAP_CTRL.RELEASE. -/
def execSnapshotRelease (s : State) : Result := s.run fun _ c => c.snapRelease

/-- R109: FEWAIT has passed. -/
def execFewaitExpiry (s : State) : Result := s.run fun t c => c.fewaitExpiry t

/-- R89: BOB_SIDX_LO read. -/
def execBobSidxLoRead (s : State) : Result := s.read R.BOB_SIDX_LO

/-- R103: BOB_CURPOS_LO read. -/
def execBobCurposLoRead (s : State) : Result := s.read R.BOB_CURPOS_LO

end Sys2Proof.Machine
end

