-- ==== Sys2Proof/Machine/ExecTwine.lean ====
section
/-! DEFINITION. Meanings: Twine requests. -/
namespace Sys2Proof.Machine

/-- R439: a frame of a link is discarded. -/
def execBadFrame (l : Fin 2) (s : State) : Result := s.run fun _ c => if c.distaffServes then c.dropFrame l.val else c

/-- R439: the bytes of a frame on UART0 have stopped. -/
def execFrameTimeout (s : State) : Result := s.run fun _ c => if c.distaffServes then c.dropFrame 0 else c

/-- R440: HELLO. -/
def execHello (h : TwineHead) (p : List Byte) (s : State) : Result := s.run fun t c => c.helloReq t h p

/-- R441: BYE. -/
def execBye (h : TwineHead) (p : List Byte) (s : State) : Result := s.run fun t c => c.byeReq t h p

/-- R448: PING. -/
def execPing (h : TwineHead) (p : List Byte) (s : State) : Result := s.run fun t c => c.request t h 0 6 p fun c _ => (c, .ack 0 0)

/-- R449; `badAt` is the place of a word on which the copies of a pair disagree (R313). -/
def execRegRd (h : TwineHead) (p : List Byte) (badAt : Nat) (s : State) : Result :=
  s.run fun t c => c.request t h 1 1 p fun c q => c.regRd t q badAt

/-- R449: REG_WR. -/
def execRegWr (h : TwineHead) (p : List Byte) (s : State) : Result := s.run fun t c => c.request t h 1 3 p fun c q => c.regWr t q

/-- R456: AID_IMU. -/
def execAidImu (h : TwineHead) (p : List Byte) (s : State) : Result := s.run fun t c => c.request t h 5 1 p fun c q => c.aidImu q

/-- R448: ACQ_SUBMIT. -/
def execAcqSubmit (h : TwineHead) (p : List Byte) (s : State) : Result :=
  s.run fun t c => c.request t h 6 1 p fun c q => c.acqSubmit t q

/-- R448: ACQ_CANCEL. -/
def execAcqCancel (h : TwineHead) (p : List Byte) (s : State) : Result :=
  s.run fun t c => c.request t h 6 2 p fun c q => c.acqCancel t q

/-- R269, R448. -/
def execCfgSet (h : TwineHead) (p : List Byte) (s : State) : Result := s.run fun t c => c.request t h 7 1 p fun c q => c.cfgSet t q

/-- R448: CFG_GET. -/
def execCfgGet (h : TwineHead) (p : List Byte) (s : State) : Result := s.run fun t c => c.request t h 7 2 p fun c q => c.cfgGet q

/-- R411: STORE. -/
def execStore (h : TwineHead) (p : List Byte) (s : State) : Result :=
  s.run fun t c => c.request t h 7 4 p fun c _ => batchAnswer (c.store (some (h.ackFor 7 4 p)))

/-- R413: FACTORY. -/
def execFactory (h : TwineHead) (p : List Byte) (s : State) : Result :=
  s.run fun t c => c.request t h 7 5 p fun c _ => batchAnswer (c.factory (some (h.ackFor 7 5 p)))

/-- R388: the date, its scale and uncertainty, whose layout in the frame is not stated. -/
def execCalSet (h : TwineHead) (crc : Word) (d : CalDate) (scale : Nat) (unc : Nat) (s : State) : Result :=
  s.run fun t c => c.requestWith t h crc 7 6 fun c => c.calSetReq d scale unc

/-- R387: a tick count to convert. -/
def execCalGet (h : TwineHead) (crc : Word) (tick : BitVec 48) (scale : Nat) (s : State) : Result :=
  s.run fun t c => c.requestWith t h crc 7 7 fun c => c.calGetReq tick.toNat scale

/-- R69: IMG_WR. -/
def execImgWr (h : TwineHead) (p : List Byte) (s : State) : Result := s.run fun t c => c.request t h 8 1 p fun c q => c.imgWr q

/-- R409: SPOOL_WR. -/
def execSpoolWr (h : TwineHead) (p : List Byte) (s : State) : Result :=
  s.run fun t c => c.request t h 8 2 p fun c q => c.spoolWr q (h.ackFor 8 2 p)

/-- R448: SPOOL_RD. -/
def execSpoolRd (h : TwineHead) (p : List Byte) (s : State) : Result := s.run fun t c => c.request t h 8 3 p fun c q => c.spoolRd q

/-- R399: 0 the OSNMA root, 1 a key, 2 the board identity. -/
def execProvWr (h : TwineHead) (crc : Word) (kind : Fin 3) (data : List Byte) (s : State) : Result :=
  s.run fun t c => c.requestWith t h crc 8 5 fun c => (c.provWrite kind.val data, .ack 0 0)

/-- R448: a nonce for a fuse operation. -/
def execFuseArm (h : TwineHead) (crc : Word) (op : FuseOp) (s : State) : Result :=
  s.run fun t c => c.requestWith t h crc 8 6 fun c => c.fuseArm t h.link.val op

/-- R64: the fuse operation with its nonce. -/
def execFuseProg (h : TwineHead) (crc : Word) (nonce : BitVec 16) (op : FuseOp) (s : State) : Result :=
  s.run fun t c => c.requestWith t h crc 8 7 fun c => c.fuseProg t h.link.val nonce.toNat op

/-- R457: READOUT. -/
def execReadout (h : TwineHead) (p : List Byte) (s : State) : Result :=
  s.run fun t c => c.request t h 9 1 p fun c q => let x := c.readout t h.link.val q; (x.1.submitted c t, x.2)

end Sys2Proof.Machine
end

