-- ==== Sys2Proof/Machine/ExecWhorl.lean ====
section
/-! DEFINITION. Meanings: Whorl. -/
namespace Sys2Proof.Machine

/-- R369: a crystal edge; the bits of the two copies that have flipped since the last one. -/
def execWhorlTick (hitA : BitVec 48) (hitB : BitVec 48) (s : State) : Result := s.always fun t c => c.whorlTick t hitA hitB

/-- R376: an update that is due, with the temperature in 0.1 °C and VBAT in mV. -/
def execCompensationUpdate (temp : Int) (vbat : Nat) (s : State) : Result := s.always fun _ c => c.compUpdate temp vbat

/-- R380: the crystal edge at which the count crosses the day phase. -/
def execDayBoundary (hitA : BitVec 48) (hitB : BitVec 48) (s : State) : Result :=
  s.always fun t c => if c.whl.nextIsDay hitA hitB then c.whorlTick t hitA hitB else c

/-- R373: five tick periods without an edge. -/
def execOscillatorStop (s : State) : Result := s.always fun _ c => c.setOsf

/-- R385: the Whorl rail below the trip point. -/
def execWhorlBrownOut (s : State) : Result := s.always fun _ c => c.brownOut

/-- R374: a write of WHL_TRUST. -/
def execWhlTrustClear (w : Word) (s : State) : Result := s.run fun _ c => c.trustClear w

/-- R382: WHL_CTRL.SETOSF. -/
def execSetosf (s : State) : Result := s.run fun _ c => c.setOsf

/-- R378: WHL_CTRL.CURVLD. -/
def execCurvld (s : State) : Result := s.run fun _ c => c.curvld

/-- R380: WHL_WDAY with SETEN = 1. -/
def execWhlWdaySet (day : BitVec 3) (s : State) : Result := s.run fun _ c => c.wdaySet (BitVec.ofNat 32 (2048 + day.toNat * 256))

/-- R384: WHL_CHG. -/
def execWhlChgWrite (w : Word) (s : State) : Result := s.run fun _ c => c.chgWrite w

/-- R384: VBAT reaches CLAMP. -/
def execChargerClamp (s : State) : Result := s.always fun _ c => c.chargerClamp

/-- R371: WHL_CNT_LO read. -/
def execWhlCntLoRead (s : State) : Result := s.read R.WHL_CNT_LO

/-- R381: word `n` of backup RAM read, or written; `bad` is an uncorrectable error. -/
def execBackupRamAccess (n : Fin 64) (put : Option Word) (bad : Bool) (s : State) : Result :=
  s.run fun _ c => match put with | some w => c.ramWrite n.val w | none => let q := c.ramRead n.val bad; { q.1 with readData := [q.2] }

/-- R382: Distaff writes an anchor. -/
def execAnchorWrite (s : State) : Result := s.run fun t c => c.anchorWrite t.abs

end Sys2Proof.Machine
end

