-- ==== Sys2Proof/Machine/Dispatch.lean ====
section
/-! DEFINITION. Every command and its meaning. -/
namespace Sys2Proof.Machine

def exec (i : Instr) (s : State) : Host.Outcome State Fault Refusal :=
  match i with
  | .epochBoundary inp => Sys2Proof.Machine.execEpochBoundary inp s
  | .checkPoint inp => Sys2Proof.Machine.execCheckPoint inp s
  | .slotStart slot bad => Sys2Proof.Machine.execSlotStart slot bad s
  | .slotOverrun slot => Sys2Proof.Machine.execSlotOverrun slot s
  | .planCommit mask => Sys2Proof.Machine.execPlanCommit mask s
  | .stagedWrite addr value => Sys2Proof.Machine.execStagedWrite addr value s
  | .jqCancel tag => Sys2Proof.Machine.execJqCancel tag s
  | .prismStepStart fc => Sys2Proof.Machine.execPrismStepStart fc s
  | .prismStepComplete ecc => Sys2Proof.Machine.execPrismStepComplete ecc s
  | .transferComplete tag => Sys2Proof.Machine.execTransferComplete tag s
  | .cursorResume tag => Sys2Proof.Machine.execCursorResume tag s
  | .cursorOvertaken tag => Sys2Proof.Machine.execCursorOvertaken tag s
  | .imageVerifyComplete ecc => Sys2Proof.Machine.execImageVerifyComplete ecc s
  | .train mask => Sys2Proof.Machine.execTrain mask s
  | .trainingComplete n sweep => Sys2Proof.Machine.execTrainingComplete n sweep s
  | .nostbTimeout n => Sys2Proof.Machine.execNostbTimeout n s
  | .strobeLoss n => Sys2Proof.Machine.execStrobeLoss n s
  | .strobeReturn n => Sys2Proof.Machine.execStrobeReturn n s
  | .fifoSlip n => Sys2Proof.Machine.execFifoSlip n s
  | .eyewarn n => Sys2Proof.Machine.execEyewarn n s
  | .hankRamWrite o w => Sys2Proof.Machine.execHankRamWrite o w s
  | .plyArm p => Sys2Proof.Machine.execPlyArm p s
  | .plyStop p => Sys2Proof.Machine.execPlyStop p s
  | .hcok p => Sys2Proof.Machine.execHcok p s
  | .hcinv p => Sys2Proof.Machine.execHcinv p s
  | .bsok p => Sys2Proof.Machine.execBsok p s
  | .satelliteEntryPublish p ws => Sys2Proof.Machine.execSatelliteEntryPublish p ws s
  | .aidingPush w => Sys2Proof.Machine.execAidingPush w s
  | .verificationEntryWrite p k w => Sys2Proof.Machine.execVerificationEntryWrite p k w s
  | .handoff h => Sys2Proof.Machine.execHandoff h s
  | .nop k f w last => Sys2Proof.Machine.execNop k f w last s
  | .add k f w last => Sys2Proof.Machine.execAdd k f w last s
  | .adds k f w last => Sys2Proof.Machine.execAdds k f w last s
  | .sub k f w last => Sys2Proof.Machine.execSub k f w last s
  | .addi k f w last => Sys2Proof.Machine.execAddi k f w last s
  | .andOp k f w last => Sys2Proof.Machine.execAndOp k f w last s
  | .orOp k f w last => Sys2Proof.Machine.execOrOp k f w last s
  | .xorOp k f w last => Sys2Proof.Machine.execXorOp k f w last s
  | .shl k f w last => Sys2Proof.Machine.execShl k f w last s
  | .shra k f w last => Sys2Proof.Machine.execShra k f w last s
  | .shrl k f w last => Sys2Proof.Machine.execShrl k f w last s
  | .movi k f w last => Sys2Proof.Machine.execMovi k f w last s
  | .movhi k f w last => Sys2Proof.Machine.execMovhi k f w last s
  | .minOp k f w last => Sys2Proof.Machine.execMinOp k f w last s
  | .maxOp k f w last => Sys2Proof.Machine.execMaxOp k f w last s
  | .absOp k f w last => Sys2Proof.Machine.execAbsOp k f w last s
  | .cmp k f w last => Sys2Proof.Machine.execCmp k f w last s
  | .sel k f w last => Sys2Proof.Machine.execSel k f w last s
  | .mov k f w last => Sys2Proof.Machine.execMov k f w last s
  | .mul k f w last => Sys2Proof.Machine.execMul k f w last s
  | .mulh k f w last => Sys2Proof.Machine.execMulh k f w last s
  | .mac k f w last => Sys2Proof.Machine.execMac k f w last s
  | .msu k f w last => Sys2Proof.Machine.execMsu k f w last s
  | .clra k f w last => Sys2Proof.Machine.execClra k f w last s
  | .sta k f w last => Sys2Proof.Machine.execSta k f w last s
  | .stah k f w last => Sys2Proof.Machine.execStah k f w last s
  | .rda k f w last => Sys2Proof.Machine.execRda k f w last s
  | .wra k f w last => Sys2Proof.Machine.execWra k f w last s
  | .clrf k f w last => Sys2Proof.Machine.execClrf k f w last s
  | .fadd k f w last => Sys2Proof.Machine.execFadd k f w last s
  | .fsub k f w last => Sys2Proof.Machine.execFsub k f w last s
  | .fmul k f w last => Sys2Proof.Machine.execFmul k f w last s
  | .fma k f w last => Sys2Proof.Machine.execFma k f w last s
  | .fcvt k f w last => Sys2Proof.Machine.execFcvt k f w last s
  | .ftoi k f w last => Sys2Proof.Machine.execFtoi k f w last s
  | .ldw k f w last => Sys2Proof.Machine.execLdw k f w last s
  | .ldwp k f w last => Sys2Proof.Machine.execLdwp k f w last s
  | .stw k f w last => Sys2Proof.Machine.execStw k f w last s
  | .stwp k f w last => Sys2Proof.Machine.execStwp k f w last s
  | .ldd k f w last => Sys2Proof.Machine.execLdd k f w last s
  | .std k f w last => Sys2Proof.Machine.execStd k f w last s
  | .padd k f w last => Sys2Proof.Machine.execPadd k f w last s
  | .gld k f w last => Sys2Proof.Machine.execGld k f w last s
  | .gst k f w last => Sys2Proof.Machine.execGst k f w last s
  | .br k f w last => Sys2Proof.Machine.execBr k f w last s
  | .loopi k f w last => Sys2Proof.Machine.execLoopi k f w last s
  | .loopr k f w last => Sys2Proof.Machine.execLoopr k f w last s
  | .wait k f w last => Sys2Proof.Machine.execWait k f w last s
  | .endOp k f w last => Sys2Proof.Machine.execEndOp k f w last s
  | .ei k f w last => Sys2Proof.Machine.execEi k f w last s
  | .di k f w last => Sys2Proof.Machine.execDi k f w last s
  | .reti k f w last => Sys2Proof.Machine.execReti k f w last s
  | .atn2 k f w last => Sys2Proof.Machine.execAtn2 k f w last s
  | .div k f w last => Sys2Proof.Machine.execDiv k f w last s
  | .rsq k f w last => Sys2Proof.Machine.execRsq k f w last s
  | .log2 k f w last => Sys2Proof.Machine.execLog2 k f w last s
  | .prd k f w last => Sys2Proof.Machine.execPrd k f w last s
  | .pwb k f w last => Sys2Proof.Machine.execPwb k f w last s
  | .qpush k f w last => Sys2Proof.Machine.execQpush k f w last s
  | .interruptEntry k => Sys2Proof.Machine.execInterruptEntry k s
  | .lpeDbellWrite k code => Sys2Proof.Machine.execLpeDbellWrite k code s
  | .rangeAnchorWrite p sys ea txa => Sys2Proof.Machine.execRangeAnchorWrite p sys ea txa s
  | .headingSearch b => Sys2Proof.Machine.execHeadingSearch b s
  | .tpActiveEdge n => Sys2Proof.Machine.execTpActiveEdge n s
  | .tpInactiveEdge n => Sys2Proof.Machine.execTpInactiveEdge n s
  | .stepApply n => Sys2Proof.Machine.execStepApply n s
  | .eventTag n falling => Sys2Proof.Machine.execEventTag n falling s
  | .reelStart mask atEpoch sync => Sys2Proof.Machine.execReelStart mask atEpoch sync s
  | .reelStop mask => Sys2Proof.Machine.execReelStop mask s
  | .reelLoWrite g n w => Sys2Proof.Machine.execReelLoWrite g n w s
  | .compareMatch n => Sys2Proof.Machine.execCompareMatch n s
  | .pinset n v => Sys2Proof.Machine.execPinset n v s
  | .capsw n => Sys2Proof.Machine.execCapsw n s
  | .captureEdge ch falling => Sys2Proof.Machine.execCaptureEdge ch falling s
  | .reelCntLoRead n => Sys2Proof.Machine.execReelCntLoRead n s
  | .reelCmpLoRead n => Sys2Proof.Machine.execReelCmpLoRead n s
  | .reelCapLoRead n => Sys2Proof.Machine.execReelCapLoRead n s
  | .mirInj w => Sys2Proof.Machine.execMirInj w s
  | .scrub row pair unc alt index => Sys2Proof.Machine.execScrub row pair unc alt index s
  | .vioLow bankB => Sys2Proof.Machine.execVioLow bankB s
  | .wake mask env wait retfail => Sys2Proof.Machine.execWake mask env wait retfail s
  | .biasChange temp => Sys2Proof.Machine.execBiasChange temp s
  | .whorlTick hitA hitB => Sys2Proof.Machine.execWhorlTick hitA hitB s
  | .compensationUpdate temp vbat => Sys2Proof.Machine.execCompensationUpdate temp vbat s
  | .dayBoundary hitA hitB => Sys2Proof.Machine.execDayBoundary hitA hitB s
  | .whlTrustClear w => Sys2Proof.Machine.execWhlTrustClear w s
  | .whlWdaySet day => Sys2Proof.Machine.execWhlWdaySet day s
  | .whlChgWrite w => Sys2Proof.Machine.execWhlChgWrite w s
  | .backupRamAccess n put bad => Sys2Proof.Machine.execBackupRamAccess n put bad s
  | .distaffFrameStart load util => Sys2Proof.Machine.execDistaffFrameStart load util s
  | .patchAreaWrite o w => Sys2Proof.Machine.execPatchAreaWrite o w s
  | .spoolRecordWrite good week stats => Sys2Proof.Machine.execSpoolRecordWrite good week stats s
  | .cacheWrite body => Sys2Proof.Machine.execCacheWrite body s
  | .uartCharacterReceived n x => Sys2Proof.Machine.execUartCharacterReceived n x s
  | .uartTransmitCharacter n => Sys2Proof.Machine.execUartTransmitCharacter n s
  | .uartDataWrite n b => Sys2Proof.Machine.execUartDataWrite n b s
  | .uartDataRead n => Sys2Proof.Machine.execUartDataRead n s
  | .uartRateWrite n w => Sys2Proof.Machine.execUartRateWrite n w s
  | .uartCfgWrite n w => Sys2Proof.Machine.execUartCfgWrite n w s
  | .txflush n => Sys2Proof.Machine.execTxflush n s
  | .rxflush n => Sys2Proof.Machine.execRxflush n s
  | .rxTimeout n => Sys2Proof.Machine.execRxTimeout n s
  | .uartGlitchRead n => Sys2Proof.Machine.execUartGlitchRead n s
  | .wakeCharacter n x => Sys2Proof.Machine.execWakeCharacter n x s
  | .rdsr lanes => Sys2Proof.Machine.execRdsr lanes s
  | .rdstm lanes n => Sys2Proof.Machine.execRdstm lanes n s
  | .wrstm lanes bs => Sys2Proof.Machine.execWrstm lanes bs s
  | .rdwin lanes ofs n => Sys2Proof.Machine.execRdwin lanes ofs n s
  | .wrwin lanes ofs bs => Sys2Proof.Machine.execWrwin lanes ofs bs s
  | .wsetupRead lanes addr len rsv badAt => Sys2Proof.Machine.execWsetupRead lanes addr len rsv badAt s
  | .wsetupWrite lanes addr len rsv => Sys2Proof.Machine.execWsetupWrite lanes addr len rsv s
  | .wsetupImage lanes addr len rsv => Sys2Proof.Machine.execWsetupImage lanes addr len rsv s
  | .rdid lanes => Sys2Proof.Machine.execRdid lanes s
  | .eqpi lanes => Sys2Proof.Machine.execEqpi lanes s
  | .xqpi lanes => Sys2Proof.Machine.execXqpi lanes s
  | .ifrst lanes => Sys2Proof.Machine.execIfrst lanes s
  | .badFrame l => Sys2Proof.Machine.execBadFrame l s
  | .hello h p => Sys2Proof.Machine.execHello h p s
  | .bye h p => Sys2Proof.Machine.execBye h p s
  | .ping h p => Sys2Proof.Machine.execPing h p s
  | .regRd h p badAt => Sys2Proof.Machine.execRegRd h p badAt s
  | .regWr h p => Sys2Proof.Machine.execRegWr h p s
  | .aidImu h p => Sys2Proof.Machine.execAidImu h p s
  | .acqSubmit h p => Sys2Proof.Machine.execAcqSubmit h p s
  | .acqCancel h p => Sys2Proof.Machine.execAcqCancel h p s
  | .cfgSet h p => Sys2Proof.Machine.execCfgSet h p s
  | .cfgGet h p => Sys2Proof.Machine.execCfgGet h p s
  | .store h p => Sys2Proof.Machine.execStore h p s
  | .factory h p => Sys2Proof.Machine.execFactory h p s
  | .calSet h crc d scale unc => Sys2Proof.Machine.execCalSet h crc d scale unc s
  | .calGet h crc tick scale => Sys2Proof.Machine.execCalGet h crc tick scale s
  | .imgWr h p => Sys2Proof.Machine.execImgWr h p s
  | .spoolWr h p => Sys2Proof.Machine.execSpoolWr h p s
  | .spoolRd h p => Sys2Proof.Machine.execSpoolRd h p s
  | .provWr h crc kind data => Sys2Proof.Machine.execProvWr h crc kind data s
  | .fuseArm h crc op => Sys2Proof.Machine.execFuseArm h crc op s
  | .fuseProg h crc nonce op => Sys2Proof.Machine.execFuseProg h crc nonce op s
  | .readout h p => Sys2Proof.Machine.execReadout h p s
  | .xdata tag bad => Sys2Proof.Machine.execXdata tag bad s
  | .tp n => Sys2Proof.Machine.execTp n s
  | .status osnma => Sys2Proof.Machine.execStatus osnma s
  | .notice l => Sys2Proof.Machine.execNotice l s
  | .acqResult tag => Sys2Proof.Machine.execAcqResult tag s
  | .head b => Sys2Proof.Machine.execHead b s
  | .nmeaSentence kind => Sys2Proof.Machine.execNmeaSentence kind s
  | .rtcmMessage kind => Sys2Proof.Machine.execRtcmMessage kind s
  | .faults n => Sys2Proof.Machine.execFaults n s
  | .mon src mv => Sys2Proof.Machine.execMon src mv s
  | .pinRead n board => Sys2Proof.Machine.execPinRead n board s
  | .pinHi n => Sys2Proof.Machine.execPinHi n s
  | .pinLo n => Sys2Proof.Machine.execPinLo n s
  | .pinZ n => Sys2Proof.Machine.execPinZ n s
  | .pinRel n => Sys2Proof.Machine.execPinRel n s
  | .rd addr n badAt => Sys2Proof.Machine.execRd addr n badAt s
  | .wr addr w => Sys2Proof.Machine.execWr addr w s
  | .testSupply mv => Sys2Proof.Machine.execTestSupply mv s
  | .testPll lockA lockB mvA mvB ppm => Sys2Proof.Machine.execTestPll lockA lockB mvA mvB ppm s
  | .testLvds n fin => Sys2Proof.Machine.execTestLvds n fin s
  | .testSkein k fin good => Sys2Proof.Machine.execTestSkein k fin good s
  | .testLoupe fin good => Sys2Proof.Machine.execTestLoupe fin good s
  | .testPrism fin pidx pk peak second => Sys2Proof.Machine.execTestPrism fin pidx pk peak second s
  | .testHank same => Sys2Proof.Machine.execTestHank same s
  | .testNvm corr unc => Sys2Proof.Machine.execTestNvm corr unc s
  | .testFacet sha ecdsa => Sys2Proof.Machine.execTestFacet sha ecdsa s
  | .testWhorl fin rateOk => Sys2Proof.Machine.execTestWhorl fin rateOk s
  | .testReel n fin => Sys2Proof.Machine.execTestReel n fin s
  | .testUart0 got errs => Sys2Proof.Machine.execTestUart0 got errs s
  | .testMirror k fin => Sys2Proof.Machine.execTestMirror k fin s
  | .testTsg n fin good => Sys2Proof.Machine.execTestTsg n fin good s
  | .tsg mask n ws => Sys2Proof.Machine.execTsg mask n ws s
  | .svcPinctlWrite w => Sys2Proof.Machine.execSvcPinctlWrite w s
  | .startUp env => Sys2Proof.Machine.execStartUp env s
  | .refclkDetectRetry freq => Sys2Proof.Machine.execRefclkDetectRetry freq s
  | .pllLockRetry ok => Sys2Proof.Machine.execPllLockRetry ok s
  | .epochSyncFrame count crcOk phase training => Sys2Proof.Machine.execEpochSyncFrame count crcOk phase training s
  | .registerWrite addr value => Sys2Proof.Machine.execRegisterWrite addr value s
  | .timeScaleTableWrite k utc bcast leap => Sys2Proof.Machine.execTimeScaleTableWrite k utc bcast leap s
  | .supplyReturn rail => Sys2Proof.Machine.execSupplyReturn rail s
  | .planLoad => Sys2Proof.Machine.execPlanLoad s
  | .planCheckComplete => Sys2Proof.Machine.execPlanCheckComplete s
  | .planArm => Sys2Proof.Machine.execPlanArm s
  | .planDisarm => Sys2Proof.Machine.execPlanDisarm s
  | .jqDoneRead => Sys2Proof.Machine.execJqDoneRead s
  | .verify => Sys2Proof.Machine.execVerify s
  | .confirm => Sys2Proof.Machine.execConfirm s
  | .select => Sys2Proof.Machine.execSelect s
  | .snapshotArm => Sys2Proof.Machine.execSnapshotArm s
  | .snapshotDisarm => Sys2Proof.Machine.execSnapshotDisarm s
  | .captureEnd => Sys2Proof.Machine.execCaptureEnd s
  | .snapshotRelease => Sys2Proof.Machine.execSnapshotRelease s
  | .fewaitExpiry => Sys2Proof.Machine.execFewaitExpiry s
  | .lpeEvqLoRead => Sys2Proof.Machine.execLpeEvqLoRead s
  | .lpeSymqLoRead => Sys2Proof.Machine.execLpeSymqLoRead s
  | .lpeEvqStatRead => Sys2Proof.Machine.execLpeEvqStatRead s
  | .lpeSymqStatRead => Sys2Proof.Machine.execLpeSymqStatRead s
  | .strWbovrRead => Sys2Proof.Machine.execStrWbovrRead s
  | .aidlost => Sys2Proof.Machine.execAidlost s
  | .focDemRead => Sys2Proof.Machine.execFocDemRead s
  | .focAidstatRead => Sys2Proof.Machine.execFocAidstatRead s
  | .prmSubmit => Sys2Proof.Machine.execPrmSubmit s
  | .prmStatRead => Sys2Proof.Machine.execPrmStatRead s
  | .prmIdleRead => Sys2Proof.Machine.execPrmIdleRead s
  | .planOstatRead => Sys2Proof.Machine.execPlanOstatRead s
  | .holdoverEntry => Sys2Proof.Machine.execHoldoverEntry s
  | .limitEntry => Sys2Proof.Machine.execLimitEntry s
  | .flyEvq3Read => Sys2Proof.Machine.execFlyEvq3Read s
  | .flyEvstatRead => Sys2Proof.Machine.execFlyEvstatRead s
  | .tmrFail => Sys2Proof.Machine.execTmrFail s
  | .flyTmrRead => Sys2Proof.Machine.execFlyTmrRead s
  | .reelMkamtLoRead => Sys2Proof.Machine.execReelMkamtLoRead s
  | .replayCorrelationComplete bad stopped => Sys2Proof.Machine.execReplayCorrelationComplete bad stopped s
  | .rerunStart => Sys2Proof.Machine.execRerunStart s
  | .rerunComplete bad => Sys2Proof.Machine.execRerunComplete bad s
  | .replayDeadline => Sys2Proof.Machine.execReplayDeadline s
  | .dstcmp => Sys2Proof.Machine.execDstcmp s
  | .mirCntRead => Sys2Proof.Machine.execMirCntRead s
  | .mirEccRead => Sys2Proof.Machine.execMirEccRead s
  | .sysAccerrRead => Sys2Proof.Machine.execSysAccerrRead s
  | .vmainLow => Sys2Proof.Machine.execVmainLow s
  | .vmainReturn => Sys2Proof.Machine.execVmainReturn s
  | .vcoreLow => Sys2Proof.Machine.execVcoreLow s
  | .vpllLow => Sys2Proof.Machine.execVpllLow s
  | .vsampLow => Sys2Proof.Machine.execVsampLow s
  | .pwrDoze => Sys2Proof.Machine.execPwrDoze s
  | .pwrRun => Sys2Proof.Machine.execPwrRun s
  | .pwrHib => Sys2Proof.Machine.execPwrHib s
  | .dozeIdleExpiry => Sys2Proof.Machine.execDozeIdleExpiry s
  | .hibIdleExpiry => Sys2Proof.Machine.execHibIdleExpiry s
  | .dozeBurstStart => Sys2Proof.Machine.execDozeBurstStart s
  | .dozeOffPhase => Sys2Proof.Machine.execDozeOffPhase s
  | .dozeExit => Sys2Proof.Machine.execDozeExit s
  | .hibernateSave => Sys2Proof.Machine.execHibernateSave s
  | .islandReady => Sys2Proof.Machine.execIslandReady s
  | .oscillatorStop => Sys2Proof.Machine.execOscillatorStop s
  | .whorlBrownOut => Sys2Proof.Machine.execWhorlBrownOut s
  | .setosf => Sys2Proof.Machine.execSetosf s
  | .curvld => Sys2Proof.Machine.execCurvld s
  | .chargerClamp => Sys2Proof.Machine.execChargerClamp s
  | .whlCntLoRead => Sys2Proof.Machine.execWhlCntLoRead s
  | .anchorWrite => Sys2Proof.Machine.execAnchorWrite s
  | .compactionStart => Sys2Proof.Machine.execCompactionStart s
  | .compactionComplete => Sys2Proof.Machine.execCompactionComplete s
  | .nvmProgramDone => Sys2Proof.Machine.execNvmProgramDone s
  | .nvmEraseDone => Sys2Proof.Machine.execNvmEraseDone s
  | .nvmStatRead => Sys2Proof.Machine.execNvmStatRead s
  | .sysDstshedRead => Sys2Proof.Machine.execSysDstshedRead s
  | .pllLock => Sys2Proof.Machine.execPllLock s
  | .windowOpComplete => Sys2Proof.Machine.execWindowOpComplete s
  | .badcmd => Sys2Proof.Machine.execBadcmd s
  | .qspCntRead => Sys2Proof.Machine.execQspCntRead s
  | .frameTimeout => Sys2Proof.Machine.execFrameTimeout s
  | .meas => Sys2Proof.Machine.execMeas s
  | .pvt => Sys2Proof.Machine.execPvt s
  | .time => Sys2Proof.Machine.execTime s
  | .event => Sys2Proof.Machine.execEvent s
  | .sym => Sys2Proof.Machine.execSym s
  | .plyev => Sys2Proof.Machine.execPlyev s
  | .help => Sys2Proof.Machine.execHelp s
  | .sys => Sys2Proof.Machine.execSys s
  | .stream => Sys2Proof.Machine.execStream s
  | .track => Sys2Proof.Machine.execTrack s
  | .eddeugStore => Sys2Proof.Machine.execEddeugStore s
  | .serviceOn => Sys2Proof.Machine.execServiceOn s
  | .serviceConfirm => Sys2Proof.Machine.execServiceConfirm s
  | .serviceOff => Sys2Proof.Machine.execServiceOff s
  | .serviceTimeout => Sys2Proof.Machine.execServiceTimeout s
  | .reboot => Sys2Proof.Machine.execReboot s
  | .ctrlC => Sys2Proof.Machine.execCtrlC s
  | .longLine => Sys2Proof.Machine.execLongLine s
  | .relall => Sys2Proof.Machine.execRelall s
  | .rstNAssert => Sys2Proof.Machine.execRstNAssert s
  | .lateJoin => Sys2Proof.Machine.execLateJoin s
  | .syncLoss => Sys2Proof.Machine.execSyncLoss s
  | .setStatRead => Sys2Proof.Machine.execSetStatRead s
  | .sysUnmapRead => Sys2Proof.Machine.execSysUnmapRead s
  | .planEpochLoRead => Sys2Proof.Machine.execPlanEpochLoRead s
  | .bobSidxLoRead => Sys2Proof.Machine.execBobSidxLoRead s
  | .bobCurposLoRead => Sys2Proof.Machine.execBobCurposLoRead s
  | .wakeNFallingEdge => Sys2Proof.Machine.execWakeNFallingEdge s
  | .outputByteWait => Sys2Proof.Machine.execOutputByteWait s

end Sys2Proof.Machine
end

