-- ==== Sys2Proof/Safety.lean ====
section
/-! DEFINITION. What a run of the device is held to: outcomes, time and what a command leaves. -/
namespace Sys2Proof

open Machine

/-- A step that goes on. -/
def Completes (o : Host.Outcome State Fault Refusal) : Prop := ∃ t, o = .next t

/-- Time is well formed: the offset lies inside the epoch (R27). -/
def TimeOk (s : State) : Prop := s.clk.fc < fcPerEpoch

/-- A command goes on, with its effect: it leaves a core that `P` describes, and then, where it ended read-outs, the XDONE messages of
R457 and nothing else. The queue, the held console lines and the time stay. -/
def Yields (i : Instr) (s : State) (P : Core → Prop) : Prop := ∃ c, exec i s = .next (s.put c.sendDones) ∧ P c

/-- A read: what it returns is `w`, and `P` describes what it leaves. -/
def Reads (i : Instr) (s : State) (w : Word) (P : Core → Prop) : Prop := Yields i s fun c => c.readData = [w] ∧ P c

/-- Every register but those named is unchanged. -/
def RegsBut (as : List Nat) (c c' : Core) : Prop := ∀ a, a ∉ as → c'.reg a = c.reg a

/-- The listed fields take these values, as wide as they are; every other bit of every register is unchanged. -/
def FieldsSet (ps : List (Fld × Nat)) (c c' : Core) : Prop :=
  (∀ p ∈ ps, c'.fld p.1 = p.2 % 2 ^ (p.1.hi - p.1.lo + 1)) ∧
  ∀ a b, b < 32 → (∀ p ∈ ps, p.1.addr = a → b < p.1.lo ∨ p.1.hi < b) → bits (c'.reg a) b b = bits (c.reg a) b b

/-- A command goes on and leaves the fields listed with these values, every other register bit as it was, and everything but the
registers as in `u`. -/
def Leaves (i : Instr) (s : State) (ps : List (Fld × Nat)) (u : Core) : Prop :=
  Yields i s fun c => FieldsSet ps s.core c ∧ c = { u with regs := c.regs }

/-- The same of an event that comes in every power state: nothing follows it. -/
def LeavesAlways (i : Instr) (s : State) (ps : List (Fld × Nat)) (u : Core) : Prop :=
  ∃ c, exec i s = .next (s.put c) ∧ FieldsSet ps s.core c ∧ c = { u with regs := c.regs }

end Sys2Proof
end

