-- ==== Sys2Proof/WellFormed.lean ====
section
/-! DEFINITION. Which terms stand for a command that can come about: operand lists of the right length, numbers in their ranges, slice
operations that R225 defines. The types of the operands see to the rest. -/
namespace Sys2Proof

open Machine

/-- The field and the word of a slice operation (R225). -/
def Instr.opWord : Instr → Option (Fin 4 × Word)
  | .nop _ f w _ => some (f, BitVec.ofNat 32 (0x00 * 2 ^ 24 + w.toNat))
  | .add _ f w _ => some (f, BitVec.ofNat 32 (0x01 * 2 ^ 24 + w.toNat))
  | .adds _ f w _ => some (f, BitVec.ofNat 32 (0x02 * 2 ^ 24 + w.toNat))
  | .sub _ f w _ => some (f, BitVec.ofNat 32 (0x03 * 2 ^ 24 + w.toNat))
  | .addi _ f w _ => some (f, BitVec.ofNat 32 (0x04 * 2 ^ 24 + w.toNat))
  | .andOp _ f w _ => some (f, BitVec.ofNat 32 (0x05 * 2 ^ 24 + w.toNat))
  | .orOp _ f w _ => some (f, BitVec.ofNat 32 (0x06 * 2 ^ 24 + w.toNat))
  | .xorOp _ f w _ => some (f, BitVec.ofNat 32 (0x07 * 2 ^ 24 + w.toNat))
  | .shl _ f w _ => some (f, BitVec.ofNat 32 (0x08 * 2 ^ 24 + w.toNat))
  | .shra _ f w _ => some (f, BitVec.ofNat 32 (0x09 * 2 ^ 24 + w.toNat))
  | .shrl _ f w _ => some (f, BitVec.ofNat 32 (0x0A * 2 ^ 24 + w.toNat))
  | .movi _ f w _ => some (f, BitVec.ofNat 32 (0x0B * 2 ^ 24 + w.toNat))
  | .movhi _ f w _ => some (f, BitVec.ofNat 32 (0x0C * 2 ^ 24 + w.toNat))
  | .minOp _ f w _ => some (f, BitVec.ofNat 32 (0x0D * 2 ^ 24 + w.toNat))
  | .maxOp _ f w _ => some (f, BitVec.ofNat 32 (0x0E * 2 ^ 24 + w.toNat))
  | .absOp _ f w _ => some (f, BitVec.ofNat 32 (0x0F * 2 ^ 24 + w.toNat))
  | .cmp _ f w _ => some (f, BitVec.ofNat 32 (0x10 * 2 ^ 24 + w.toNat))
  | .sel _ f w _ => some (f, BitVec.ofNat 32 (0x11 * 2 ^ 24 + w.toNat))
  | .mov _ f w _ => some (f, BitVec.ofNat 32 (0x12 * 2 ^ 24 + w.toNat))
  | .mul _ f w _ => some (f, BitVec.ofNat 32 (0x18 * 2 ^ 24 + w.toNat))
  | .mulh _ f w _ => some (f, BitVec.ofNat 32 (0x19 * 2 ^ 24 + w.toNat))
  | .mac _ f w _ => some (f, BitVec.ofNat 32 (0x1A * 2 ^ 24 + w.toNat))
  | .msu _ f w _ => some (f, BitVec.ofNat 32 (0x1B * 2 ^ 24 + w.toNat))
  | .clra _ f w _ => some (f, BitVec.ofNat 32 (0x1C * 2 ^ 24 + w.toNat))
  | .sta _ f w _ => some (f, BitVec.ofNat 32 (0x1D * 2 ^ 24 + w.toNat))
  | .stah _ f w _ => some (f, BitVec.ofNat 32 (0x1E * 2 ^ 24 + w.toNat))
  | .rda _ f w _ => some (f, BitVec.ofNat 32 (0x1F * 2 ^ 24 + w.toNat))
  | .wra _ f w _ => some (f, BitVec.ofNat 32 (0x20 * 2 ^ 24 + w.toNat))
  | .clrf _ f w _ => some (f, BitVec.ofNat 32 (0x21 * 2 ^ 24 + w.toNat))
  | .fadd _ f w _ => some (f, BitVec.ofNat 32 (0x28 * 2 ^ 24 + w.toNat))
  | .fsub _ f w _ => some (f, BitVec.ofNat 32 (0x29 * 2 ^ 24 + w.toNat))
  | .fmul _ f w _ => some (f, BitVec.ofNat 32 (0x2A * 2 ^ 24 + w.toNat))
  | .fma _ f w _ => some (f, BitVec.ofNat 32 (0x2B * 2 ^ 24 + w.toNat))
  | .fcvt _ f w _ => some (f, BitVec.ofNat 32 (0x2C * 2 ^ 24 + w.toNat))
  | .ftoi _ f w _ => some (f, BitVec.ofNat 32 (0x2D * 2 ^ 24 + w.toNat))
  | .ldw _ f w _ => some (f, BitVec.ofNat 32 (0x30 * 2 ^ 24 + w.toNat))
  | .ldwp _ f w _ => some (f, BitVec.ofNat 32 (0x31 * 2 ^ 24 + w.toNat))
  | .stw _ f w _ => some (f, BitVec.ofNat 32 (0x32 * 2 ^ 24 + w.toNat))
  | .stwp _ f w _ => some (f, BitVec.ofNat 32 (0x33 * 2 ^ 24 + w.toNat))
  | .ldd _ f w _ => some (f, BitVec.ofNat 32 (0x34 * 2 ^ 24 + w.toNat))
  | .std _ f w _ => some (f, BitVec.ofNat 32 (0x35 * 2 ^ 24 + w.toNat))
  | .padd _ f w _ => some (f, BitVec.ofNat 32 (0x36 * 2 ^ 24 + w.toNat))
  | .gld _ f w _ => some (f, BitVec.ofNat 32 (0x38 * 2 ^ 24 + w.toNat))
  | .gst _ f w _ => some (f, BitVec.ofNat 32 (0x39 * 2 ^ 24 + w.toNat))
  | .br _ f w _ => some (f, BitVec.ofNat 32 (0x40 * 2 ^ 24 + w.toNat))
  | .loopi _ f w _ => some (f, BitVec.ofNat 32 (0x41 * 2 ^ 24 + w.toNat))
  | .loopr _ f w _ => some (f, BitVec.ofNat 32 (0x42 * 2 ^ 24 + w.toNat))
  | .wait _ f w _ => some (f, BitVec.ofNat 32 (0x43 * 2 ^ 24 + w.toNat))
  | .endOp _ f w _ => some (f, BitVec.ofNat 32 (0x44 * 2 ^ 24 + w.toNat))
  | .ei _ f w _ => some (f, BitVec.ofNat 32 (0x45 * 2 ^ 24 + w.toNat))
  | .di _ f w _ => some (f, BitVec.ofNat 32 (0x46 * 2 ^ 24 + w.toNat))
  | .reti _ f w _ => some (f, BitVec.ofNat 32 (0x47 * 2 ^ 24 + w.toNat))
  | .atn2 _ f w _ => some (f, BitVec.ofNat 32 (0x48 * 2 ^ 24 + w.toNat))
  | .div _ f w _ => some (f, BitVec.ofNat 32 (0x49 * 2 ^ 24 + w.toNat))
  | .rsq _ f w _ => some (f, BitVec.ofNat 32 (0x4A * 2 ^ 24 + w.toNat))
  | .log2 _ f w _ => some (f, BitVec.ofNat 32 (0x4B * 2 ^ 24 + w.toNat))
  | .prd _ f w _ => some (f, BitVec.ofNat 32 (0x50 * 2 ^ 24 + w.toNat))
  | .pwb _ f w _ => some (f, BitVec.ofNat 32 (0x51 * 2 ^ 24 + w.toNat))
  | .qpush _ f w _ => some (f, BitVec.ofNat 32 (0x52 * 2 ^ 24 + w.toNat))
  | _ => none

/-- Samples of streams 0 to 7, pairs 0 to 9 (R311), and the 40,960 words of Hank (R126). -/
def halfOk (h : HalfInput) : Bool :=
  h.pins.all (fun p => decide (p.1 < 8 ∧ (p.2.map (·.1)).sum ≤ 40960)) && h.mism.all (fun p => decide (p < 10)) &&
    h.hank.all fun w => decide (w < 40960)

/-- Straps of eight bits, a listed REFCLK, sweeps of four pairs for streams 0 to 7, ten self-tests, two image slots. -/
def bootOk (e : BootEnv) : Bool :=
  decide (e.straps < 256 ∧ e.fails < 1024 ∧ e.ecc < 4) && (match e.ref with | some f => decide (f ≤ 4) | none => true) &&
    e.sweeps.all fun s => decide (s.1 < 8 ∧ s.2.length = 4)

/-- A well-formed command. -/
def Instr.wellFormed (i : Instr) : Bool :=
  match i.opWord with
  | some (f, w) => opOk f.val w
  | none =>
    match i with
    | .epochBoundary h => halfOk h
    | .checkPoint h => halfOk h
    | .slotStart n _ => decide (n < 4096)
    | .slotOverrun n => decide (n < 4096)
    | .trainingComplete _ sweep => decide (sweep.length = 4)
    | .satelliteEntryPublish _ ws => decide (ws.length = 16)
    | .handoff h => decide (h.ply < 1024)
    | .startUp e => bootOk e
    | .wake _ e _ _ => bootOk e
    | .testSupply mv => decide (mv.length = 7)
    | .tsg _ _ ws => decide (ws.length = 8)
    | .spoolRecordWrite _ _ (some b) => decide (b.length ≤ 240)
    | .rdwin _ ofs n => decide (ofs.toNat + n ≤ 4096)
    | .refclkDetectRetry (some f) => decide (f ≤ 4)
    | .timeScaleTableWrite k _ _ _ => decide (k.val < 6)
    | _ => true

end Sys2Proof
end

