-- ==== Sys2Proof/Certificates/Slice0/Obligations.lean ====
section
/-! DEFINITION. The statements about the model. Each cites the rules of the spec that it formalises; one that rests on a choice of the
model's says so and names the log entry. A statement that takes several claims together names them. -/
section Statements
namespace Sys2Proof.Claims
end Sys2Proof.Claims
open Sys2Proof Sys2Proof.Machine Sys2Proof.Claims



/-! ### Loupe slices -/

namespace Sys2Proof.Claims
open Sys2Proof.Machine

/-- Slice `k` runs: the core is powered and the slice's island is on. -/
def SliceRuns (s : State) (k : Fin 9) : Prop := s.core.coreOn = true ∧ s.core.sliceOn k.val = true

/-- What slice `k` finds as it issues: the fc of its next bundle is the present one, where no program runs on it. -/
abbrev issuing (s : State) (k : Fin 9) : Core := s.core.atClock s.clk k.val

/-- Results join those in flight on slice `k`, each with its latency and effect, counted from the slice's fc. -/
def joined (x : SliceSt) (f : Nat) (es : List (Nat × SliceEff)) : List Flight :=
  es.foldl (fun l e => insertFlight { due := x.now + e.1, field := f, eff := e.2 } l) x.flight

/-- Only slice `k` of what the pairs hold differs, and `x` is what it becomes. -/
def SliceBecomes (k : Nat) (x : SliceSt) (c c' : Core) : Prop :=
  c'.slice k = x ∧ (∀ j, j ≠ k → c'.slice j = c.slice j) ∧ c' = { c with hot := { c.hot with slices := c'.hot.slices } }

/-- An operation that does not end its bundle: on any slice that runs, in any field that R225 allows, with any operand bits that it
allows, its results, and nothing else, join those in flight. -/
def Issues (mk : Fin 9 → Fin 4 → BitVec 24 → Bool → Instr) (op : Nat) (es : Core → Nat → Word → List (Nat × SliceEff)) : Prop :=
  ∀ (k : Fin 9) (f : Fin 4) (w : BitVec 24) (s : State), SliceRuns s k → opOk f.val (sliceWord op w) = true →
    Yields (mk k f w false) s
      (SliceBecomes k.val
        { (issuing s k).slice k.val with
          flight := joined ((issuing s k).slice k.val) f.val (es (issuing s k) k.val (sliceWord op w)) } (issuing s k))

/-- One register result: D takes `v` after `lat` fc. -/
def toD (lat : Nat) (v : Core → Nat → Word → Word) (c : Core) (k : Nat) (w : Word) : List (Nat × SliceEff) :=
  [(lat, .reg (fD w) (v c k w))]

/-- Operands A, B and C of an operation word. -/
def oA (c : Core) (k : Nat) (w : Word) : Word := c.sreg k (fA w)
def oB (c : Core) (k : Nat) (w : Word) : Word := c.sreg k (fB w)
def oC (c : Core) (k : Nat) (w : Word) : Word := c.sreg k (fC w)

/-- CMP's conditions: EQ, NE, LT, GE, LTU, GEU. -/
def compares (cc : Nat) (a b : Word) : Bool :=
  match cc with
  | 0 => a == b
  | 1 => a != b
  | 2 => a.slt b
  | 3 => b.sle a
  | 4 => a.ult b
  | _ => b.ule a

/-- An accumulator named by an ID of 40 to 43, as a signed 48-bit value. -/
def accOf (c : Core) (k id : Nat) : Int := signedOf 48 (vecAt 0 (c.slice k).accs (id - 40))

/-- A result clipped to `n` signed bits, with SST.SAT set beside it where it clips (R225). -/
def satD (lat n : Nat) (v : Core → Nat → Word → Int) (c : Core) (k : Nat) (w : Word) : List (Nat × SliceEff) :=
  let i := v c k w
  let lo : Int := -(2 ^ (n - 1))
  let hi : Int := 2 ^ (n - 1) - 1
  if i < lo then [(lat, .reg (fD w) (BitVec.ofInt 32 lo)), (lat, .sst 0 8)]
  else if hi < i then [(lat, .reg (fD w) (BitVec.ofInt 32 hi)), (lat, .sst 0 8)]
  else [(lat, .reg (fD w) (BitVec.ofInt 32 i))]

end Sys2Proof.Claims

/-- R225, R226: the integer operations of fields X and Y with one register result. -/
def Sys2Proof.Claims.SliceIntegerResults : Prop :=
  Issues .add 0x01 (toD 1 fun c k w => oA c k w + oB c k w) ∧
  Issues .sub 0x03 (toD 1 fun c k w => oA c k w - oB c k w) ∧
  Issues .addi 0x04 (toD 1 fun c k w => oA c k w + (w.extractLsb' 0 12).signExtend 32) ∧
  Issues .andOp 0x05 (toD 1 fun c k w => oA c k w &&& oB c k w) ∧
  Issues .orOp 0x06 (toD 1 fun c k w => oA c k w ||| oB c k w) ∧
  Issues .xorOp 0x07 (toD 1 fun c k w => oA c k w ^^^ oB c k w) ∧
  Issues .shl 0x08 (toD 1 fun c k w => oA c k w <<< ((oB c k w).toNat % 32)) ∧
  Issues .shra 0x09 (toD 1 fun c k w => (oA c k w).sshiftRight ((oB c k w).toNat % 32)) ∧
  Issues .shrl 0x0A (toD 1 fun c k w => oA c k w >>> ((oB c k w).toNat % 32)) ∧
  Issues .movi 0x0B (toD 1 fun _ _ w => (w.extractLsb' 0 18).signExtend 32) ∧
  Issues .movhi 0x0C (toD 1 fun c k w => w.extractLsb' 0 18 ++ (c.sreg k (fD w)).extractLsb' 0 14) ∧
  Issues .minOp 0x0D (toD 1 fun c k w => if (oA c k w).toInt ≤ (oB c k w).toInt then oA c k w else oB c k w) ∧
  Issues .maxOp 0x0E (toD 1 fun c k w => if (oA c k w).toInt ≤ (oB c k w).toInt then oB c k w else oA c k w) ∧
  Issues .cmp 0x10 (toD 1 fun c k w => if compares (fC w) (oA c k w) (oB c k w) then 1 else 0) ∧
  Issues .sel 0x11 (toD 1 fun c k w => if oC c k w ≠ 0 then oA c k w else oB c k w) ∧
  Issues .mov 0x12 (toD 1 fun c k w => oA c k w) ∧
  Issues .mul 0x18 (toD 3 fun c k w => oA c k w * oB c k w) ∧
  Issues .mulh 0x19 (toD 3 fun c k w => BitVec.ofInt 32 ((oA c k w).toInt * (oB c k w).toInt / 2 ^ 32))

/-- R225, R232: the operations whose result is clipped, with SST.SAT set where it clips. -/
def Sys2Proof.Claims.SliceSaturatedResults : Prop :=
  Issues .adds 0x02 (satD 1 32 fun c k w => (oA c k w).toInt + (oB c k w).toInt) ∧
  Issues .absOp 0x0F (satD 1 32 fun c k w => ((oA c k w).toInt.natAbs : Int)) ∧
  Issues .sta 0x1D (satD 1 32 fun c k w => accOf c k (fA w) / 2 ^ (fC w % 32)) ∧
  Issues .stah 0x1E (satD 1 16 fun c k w => accOf c k (fA w) / 2 ^ (fC w % 32))

/-- R225, R228, R231, R232: the accumulators, and the flags that CLRF, EI and DI name in SST (GOV 4, SAT 8, DZ 256, IE 1). -/
def Sys2Proof.Claims.SliceAccumulatorsAndFlags : Prop :=
  let half := fun (v : Word) (hi : Bool) => (v.extractLsb' (if hi then 16 else 0) 16).toInt
  let product := fun (c : Core) (k : Nat) (w : Word) => half (oA c k w) (w.getLsbD 0) * half (oB c k w) (w.getLsbD 1)
  Issues .mac 0x1A (fun c k w => [(3, .mac (fD w - 40) (product c k w))]) ∧
  Issues .msu 0x1B (fun c k w => [(3, .mac (fD w - 40) (-product c k w))]) ∧
  Issues .clra 0x1C (fun _ _ w => [(1, .acc (fD w - 40) 0)]) ∧
  Issues .rda 0x1F (toD 1 fun c k w =>
    let a := BitVec.ofNat 48 (vecAt 0 (c.slice k).accs (fA w - 40))
    if fC w = 0 then a.extractLsb' 0 32 else (a.extractLsb' 32 16).signExtend 32) ∧
  Issues .wra 0x20 (fun c k w => [(1, .acc (fD w - 40) (((oA c k w).extractLsb' 0 16 ++ oB c k w).toNat))]) ∧
  Issues .clrf 0x21 (fun _ _ w => [(1, .sst
    ((if w.getLsbD 0 then 4 else 0) + (if w.getLsbD 1 then 8 else 0) + (if w.getLsbD 2 then 256 else 0)) 0)]) ∧
  Issues .ei 0x45 (fun _ _ _ => [(1, .sst 0 1)]) ∧
  Issues .di 0x46 (fun _ _ _ => [(1, .sst 1 0)])

/-- The integer operations of a slice: their results, their saturation, the accumulators and the flags. Commands that complete here,
`exec` answering the next state told under conditions on the state and the operands alone: add, adds, sub, addi, andOp, orOp, xorOp, shl,
shra, shrl, movi, movhi, minOp, maxOp, absOp, cmp, sel, mov, mul, mulh, mac, msu, clra, sta, stah, rda, wra, clrf, ei, di. -/
def Obligations.SliceFixedPointResults : Prop := Claims.SliceIntegerResults ∧ Claims.SliceSaturatedResults ∧ Claims.SliceAccumulatorsAndFlags

/-- R225: single-precision operations. Inside their domains DIV, RSQ, LOG2 and ATN2 give the exact result where a word holds it, and else
a constant without a body, since their rounding is not stated (log entry 11); outside, R225 gives the value and SST.DZ is set. Commands
that complete here, `exec` answering the next state told under conditions on the state and the operands alone: fadd, fsub, fmul, fma,
fcvt, ftoi, atn2, div, rsq, log2. -/
def Obligations.SliceFloatResults : Prop :=
  let biggest : Word := 0x7F7FFFFF#32
  let orDz := fun (v : Core → Nat → Word → Word × Bool) (c : Core) (k : Nat) (w : Word) =>
    let r := v c k w
    (12, SliceEff.reg (fD w) r.1) :: (if r.2 then [(12, SliceEff.sst 0 256)] else [])
  Issues .fadd 0x28 (toD 4 fun c k w => fadd (oA c k w) (oB c k w)) ∧
  Issues .fsub 0x29 (toD 4 fun c k w => fadd (oA c k w) (oB c k w ^^^ 0x80000000#32)) ∧
  Issues .fmul 0x2A (toD 4 fun c k w => fmul (oA c k w) (oB c k w)) ∧
  Issues .fma 0x2B (toD 4 fun c k w => ffma (oA c k w) (oB c k w) (oC c k w)) ∧
  Issues .fcvt 0x2C (toD 4 fun c k w => fcvt (oA c k w) (fC w)) ∧
  Issues .ftoi 0x2D (fun c k w =>
    let r := ftoi (oA c k w) (fC w)
    (4, .reg (fD w) r.1) :: (if r.2 then [(4, .sst 0 8)] else [])) ∧
  Issues .atn2 0x48 (toD 12 fun c k w =>
    if (F32.of (oA c k w)).isZero && (F32.of (oB c k w)).isZero then 0 else fturns (oA c k w) (oB c k w)) ∧
  Issues .div 0x49 (orDz fun c k w =>
    if (F32.of (oB c k w)).isZero then (if (oA c k w).getLsbD 31 then 0x80000000#32 ||| biggest else biggest, true)
    else (fquot (oA c k w) (oB c k w), false)) ∧
  Issues .rsq 0x4A (orDz fun c k w => if fNonPos (oA c k w) then (biggest, true) else (frecSqrt (oA c k w), false)) ∧
  Issues .log2 0x4B (orDz fun c k w =>
    if fNonPos (oA c k w) then (0x80000000#32 ||| biggest, true) else (flog (oA c k w), false))

namespace Sys2Proof.Claims
open Sys2Proof.Machine

/-- The address of LDW, STW, LDD and STD, and what LDWP and STWP leave in A. -/
def dmemA (c : Core) (k : Nat) (w : Word) : Word := oA c k w + (w.extractLsb' 0 12).signExtend 32 * 4

/-- A global address is that of a word. -/
def globalA (c : Core) (k : Nat) (w : Word) : Nat := (oA c k w).toNat / 4 * 4

/-- `Issues` for the operands that `ok` admits. -/
def IssuesWhen (mk : Fin 9 → Fin 4 → BitVec 24 → Bool → Instr) (op : Nat) (ok : Core → Nat → Word → Bool)
    (es : Core → Nat → Word → List (Nat × SliceEff)) : Prop :=
  ∀ (k : Fin 9) (f : Fin 4) (w : BitVec 24) (s : State), SliceRuns s k → opOk f.val (sliceWord op w) = true →
    ok (issuing s k) k.val (sliceWord op w) = true →
    Yields (mk k f w false) s
      (SliceBecomes k.val
        { (issuing s k).slice k.val with
          flight := joined ((issuing s k).slice k.val) f.val (es (issuing s k) k.val (sliceWord op w)) } (issuing s k))

/-- An operation refused: its results are `es`, and a bit of LPE_SLSTATk is set with its interrupt. -/
def Refused (mk : Fin 9 → Fin 4 → BitVec 24 → Bool → Instr) (op : Nat) (bit : Nat → Fld) (irq : Fld) (no : Core → Nat → Word → Bool)
    (es : Word → List (Nat × SliceEff)) : Prop :=
  ∀ (k : Fin 9) (f : Fin 4) (w : BitVec 24) (s : State), SliceRuns s k → opOk f.val (sliceWord op w) = true →
    no (issuing s k) k.val (sliceWord op w) = true →
    Yields (mk k f w false) s fun c =>
      c.slice k.val = { (issuing s k).slice k.val with
        flight := joined ((issuing s k).slice k.val) f.val (es (sliceWord op w)) } ∧
      (∀ j, j ≠ k.val → c.slice j = s.core.slice j) ∧
      c = { s.core with regs := c.regs, hot := { s.core.hot with slices := c.hot.slices } } ∧
      c.fld (bit k.val) = 1 ∧ c.fld irq = 1 ∧ RegsBut [R.LPE_SLSTAT k.val, R.LPE_IRQ] s.core c

/-- Port k is open, and the strand is one of skein k (R235, R236). -/
def portFor (c : Core) (k s : Nat) : Bool := decide (k < 8 ∧ s / 256 = k) && c.portOpen k

end Sys2Proof.Claims

/-- R225, R226, R235, R237: the operations on DMEM, on global words and on dump records, where they are allowed. -/
def Sys2Proof.Claims.SliceMemoryOperations : Prop :=
  Issues .ldw 0x30 (toD 3 fun c k w => c.dmemWord k (dmemA c k w).toNat) ∧
  Issues .ldwp 0x31 (fun c k w => [(3, .reg (fD w) (c.dmemWord k (oA c k w).toNat)), (1, .reg (fA w) (dmemA c k w))]) ∧
  Issues .stw 0x32 (fun c k w => [(1, .mem (dmemA c k w).toNat [c.sreg k (fD w)])]) ∧
  Issues .stwp 0x33 (fun c k w => [(1, .mem (oA c k w).toNat [c.sreg k (fD w)]), (1, .reg (fA w) (dmemA c k w))]) ∧
  Issues .ldd 0x34 (fun c k w =>
    [(3, .reg (fD w) (c.dmemWord k (dmemA c k w).toNat)), (3, .reg (fD w + 1) (c.dmemWord k ((dmemA c k w).toNat + 4)))]) ∧
  Issues .std 0x35 (fun c k w => [(1, .mem (dmemA c k w).toNat [c.sreg k (fD w), c.sreg k (fD w + 1)])]) ∧
  Issues .padd 0x36 (toD 1 fun c k w => oA c k w + (w.extractLsb' 0 12).signExtend 32) ∧
  IssuesWhen .gld 0x38 (fun c k w => gldOk k (globalA c k w)) (toD 8 fun c k w =>
    match if globalA c k w < 0x30080000 then skeinOfAddr (globalA c k w) else none with
    | some j => if c.islandOn j then c.tableWord (globalA c k w) else 0x0FF00FF0#32
    | none => c.tableWord (globalA c k w)) ∧
  Issues .gst 0x39 (fun c k w => [(1, .glob (globalA c k w) (oB c k w))]) ∧
  IssuesWhen .prd 0x50 (fun c k w => portFor c k ((oA c k w).toNat % 2048)) (fun c k w =>
    [(12, .mem (c.sreg k (fD w)).toNat (c.hot.mem.words (dumpRec ((oA c k w).toNat % 2048)) 32))])

/-- R235, R236, R237: an access out of its range or without its port is answered with zeros, or discarded, and shown in LPE_SLSTATk. -/
def Sys2Proof.Claims.SliceRefusedAccesses : Prop :=
  Refused .gld 0x38 F.LPE_SLSTAT.GERR F.LPE_IRQ.GERR (fun c k w => !gldOk k (globalA c k w)) (fun w => [(8, .reg (fD w) 0)]) ∧
  (∀ (k : Fin 9) (f : Fin 4) (w : BitVec 24) (s : State), SliceRuns s k → opOk f.val (sliceWord 0x50 w) = true →
    portFor (issuing s k) k.val ((oA s.core k.val (sliceWord 0x50 w)).toNat % 2048) = false →
    Yields (.prd k f w false) s fun c =>
      c.slice k.val = { (issuing s k).slice k.val with flight := joined ((issuing s k).slice k.val) f.val [(12, .mem
        (s.core.sreg k.val (fD (sliceWord 0x50 w))).toNat (List.replicate 32 0))] } ∧
      c.fld (F.LPE_SLSTAT.PORTERR k.val) = 1) ∧
  Refused .pwb 0x51 F.LPE_SLSTAT.PORTERR F.LPE_IRQ.PORTERR
    (fun c k w =>
      let a := (oA c k w).toNat
      !portFor c k ((c.dmemWord k a).toNat % 2048) ||
        ((c.dmemWord k a).getLsbD 13 && decide (2 ^ 46 ≤ (c.dmemWord k (a + 8)).toNat / 2 ^ 16 * 2 ^ 32 + (c.dmemWord k (a + 12)).toNat)))
    (fun _ => [])

/-- The memory operations of a slice, and the accesses that it refuses. Commands that complete here, `exec` answering the next state told
under conditions on the state and the operands alone: ldw, ldwp, stw, stwp, ldd, std, padd, gld, gst, prd, pwb. -/
def Obligations.SliceMemory : Prop := Claims.SliceMemoryOperations ∧ Claims.SliceRefusedAccesses

/-- R230, R233, R234, R238, R240: the control operations. A BR takes its condition at issue and leaves two delay slots to run; a loop
start sets lsN, leN and lcN and, where its count is not 0, LACT bit N; a loop of count 0 is skipped; a register source of LOOPR is
clamped to 2^MAXLOG; QPUSH's entry joins the queue that C[0] names. -/
def Sys2Proof.Claims.SliceControlOperations : Prop :=
  let becomes := fun (mk : Fin 9 → Fin 4 → BitVec 24 → Bool → Instr) (op : Nat) (g : Core → Nat → Word → SliceSt → SliceSt) =>
    ∀ (k : Fin 9) (f : Fin 4) (w : BitVec 24) (s : State), SliceRuns s k → opOk f.val (sliceWord op w) = true →
      Yields (mk k f w false) s
        (SliceBecomes k.val (g (issuing s k) k.val (sliceWord op w) ((issuing s k).slice k.val)) (issuing s k))
  let loopStart := fun (x : SliceSt) (w : Word) (count : Nat) =>
    let lvl := (w.extractLsb' 22 2).toNat
    let stop := x.pc + (w.extractLsb' 12 10).toNat + 1
    let e : List (Nat × SliceEff) := [(1, .loop lvl (x.pc + 1) stop count (count != 0))]
    { x with flight := joined x 3 e, ends := if count = 0 then .skip (stop + 1) else x.ends }
  becomes .nop 0x00 (fun _ _ _ x => x) ∧
  becomes .br 0x40 (fun c k w x =>
    let v := c.sreg k (w.extractLsb' 16 6).toNat
    let takes : Bool := match (w.extractLsb' 22 2).toNat with
      | 0 => true
      | 1 => v != 0
      | _ => v == 0
    { x with branch := 3, target := if takes then some (x.pc + (w.extractLsb' 0 13).toNat) else none }) ∧
  becomes .loopi 0x41 (fun _ _ w x => loopStart x w (w.extractLsb' 0 12).toNat) ∧
  becomes .wait 0x43 (fun _ _ w x => { x with width := (w.extractLsb' 0 8).toNat }) ∧
  becomes .endOp 0x44 (fun _ _ _ x => { x with ends := .stop }) ∧
  becomes .reti 0x47 (fun _ _ _ x => { x with ends := .ret }) ∧
  (∀ (k : Fin 9) (f : Fin 4) (w : BitVec 24) (s : State), SliceRuns s k → opOk f.val (sliceWord 0x42 w) = true →
    Yields (.loopr k f w false) s fun c =>
      let w := sliceWord 0x42 w
      let v := (s.core.sreg k.val (fB w)).toNat
      let top := 2 ^ (w.extractLsb' 0 5).toNat
      c.slice k.val = loopStart ((issuing s k).slice k.val) w
        (if fB w = 61 ∨ fB w = 62 then v else if fB w = 63 then v % 512 else min v top) ∧
      (∀ j, j ≠ k.val → c.slice j = s.core.slice j) ∧
      c = { s.core with regs := c.regs, hot := { s.core.hot with slices := c.hot.slices } } ∧
      (fB w < 61 → top < v → c.fld (F.LPE_SLSTAT.LCLAMP k.val) = 1) ∧
      (61 ≤ fB w ∨ v ≤ top → c = { s.core with hot := { s.core.hot with slices := c.hot.slices } })) ∧
  (∀ (k : Fin 9) (f : Fin 4) (w : BitVec 24) (s : State), SliceRuns s k → opOk f.val (sliceWord 0x52 w) = true →
    s.core.suppressed = false → s.core.mir.badOut = [] → s.core.mir.injOut ≠ some k.val →
    Yields (.qpush k f w false) s fun c =>
      let w := sliceWord 0x52 w
      let a := (oA s.core k.val w).toNat
      let e := (s.core.dmemWord k.val a, s.core.dmemWord k.val (a + 4))
      c = { issuing s k with regs := c.regs, lpe := c.lpe } ∧
      (w.getLsbD 0 = false → s.core.lpe.evq.length < 1024 → c.lpe = { s.core.lpe with evq := s.core.lpe.evq ++ [e] }) ∧
      (w.getLsbD 0 = false → 1024 ≤ s.core.lpe.evq.length → c.lpe = s.core.lpe ∧ c.fld F.LPE_LOOPIRQ.EVDROP = 1) ∧
      (w.getLsbD 0 = true → s.core.lpe.symq.length < 4096 → c.lpe = { s.core.lpe with symq := s.core.lpe.symq ++ [e] }) ∧
      (w.getLsbD 0 = true → 4096 ≤ s.core.lpe.symq.length → c.lpe = s.core.lpe ∧ c.fld F.LPE_LOOPIRQ.SYMDROP = 1)) ∧
  (∀ (k : Fin 9) (f : Fin 4) (w : BitVec 24) (s : State), SliceRuns s k → opOk f.val (sliceWord 0x52 w) = true →
    s.core.suppressed = false → s.core.mir.injOut = some k.val →
    Yields (.qpush k f w false) s fun c =>
      c.lpe = s.core.lpe ∧ c.mir.injOut = none ∧ c.mir.lost = true ∧ c.fld F.MIR_STAT.SUPP = 1 ∧ c.fld F.MIR_FAULT.SRC = 2 ∧
      c.fld F.MIR_FAULT.PAIR = k.val ∧ c.fld F.MIR_IRQ.FAULT = 1) ∧
  (∀ (k : Fin 9) (f : Fin 4) (w : BitVec 24) (s : State), SliceRuns s k → opOk f.val (sliceWord 0x51 w) = true →
    let a := (oA s.core k.val (sliceWord 0x51 w)).toNat
    let r := fun i => s.core.dmemWord k.val (a + 4 * i)
    let cr := (r 2).toNat % 2 ^ 16 * 2 ^ 32 + (r 1).toNat
    let kr := (r 2).toNat / 2 ^ 16 * 2 ^ 32 + (r 3).toNat
    portFor (issuing s k) k.val ((r 0).toNat % 2048) = true → ((r 0).getLsbD 13 = true → kr < 2 ^ 46) →
    (∀ b ∈ s.core.hot.wbq, b.strand ≠ (r 0).toNat % 2048) →
    let b : WriteBack :=
      { strand := (r 0).toNat % 2048, cr := if (r 0).getLsbD 12 then some cr else none,
        kr := if (r 0).getLsbD 13 then some kr else none }
    Yields (.pwb k f w false) s fun c => c = { issuing s k with hot := { (issuing s k).hot with wbq := s.core.hot.wbq ++ [b] } })

/-- R225, R112: a word that R225 does not define is never issued (the plan check refuses it), and a slice of a powered-down island issues
nothing: no operation changes anything then. That it changes nothing rather than being unreachable is the model's reading (log entry
25). -/
def Sys2Proof.Claims.SliceUndefinedOperationChangesNothing : Prop :=
  ∀ (i : Instr) (f : Fin 4) (w : Word) (s : State), i.opWord = some (f, w) → opOk f.val w = false →
    if s.core.coreOn then Yields i s fun c => c = s.core else exec i s = .next s

/-- R226: a bundle's end takes its fc; a register result that is due by then is in its register, and one that is not stays in flight.
The bundle is a single NOP in a slice that runs no loop and no delay slot. -/
def Sys2Proof.Claims.SliceResultLandsWhenDue : Prop :=
  ∀ (k : Fin 9) (f : Fin 4) (s : State) (d n : Nat) (v : Word) (g : Nat), SliceRuns s k → 1 ≤ d → d < 40 →
    let x := s.core.slice k.val
    x.flight = [{ due := n, field := g, eff := .reg d v }] → x.ends = .plain → x.branch = 0 → x.sst / 16 % 16 = 0 →
    Yields (.nop k f 0 true) s fun c =>
      let y := c.slice k.val
      y.now = x.now + x.width ∧ y.pc = x.pc + 1 ∧ y.width = 1 ∧ y.accs = x.accs ∧
      (n ≤ x.now + x.width → c.sreg k.val d = v ∧ y.flight = []) ∧
      (x.now + x.width < n → c.sreg k.val d = s.core.sreg k.val d ∧ y.flight = x.flight) ∧
      (∀ r, r ≠ d → c.sreg k.val r = s.core.sreg k.val r) ∧
      (∀ j, j ≠ k.val → c.slice j = s.core.slice j) ∧
      c = { s.core with hot := { s.core.hot with slices := c.hot.slices } }

/-- R231: a product is added to its accumulator modulo 2^48, and GOV is set exactly where the true sum lies outside 48 bits. -/
def Sys2Proof.Claims.SliceAccumulatorWraps : Prop :=
  ∀ (k : Fin 9) (f : Fin 4) (s : State) (a : Fin 4) (p : Int) (g n : Nat), SliceRuns s k →
    let x := s.core.slice k.val
    let sum := (BitVec.ofNat 48 (x.accs[a])).toInt + p
    x.flight = [{ due := n, field := g, eff := .mac a.val p }] → n ≤ x.now + x.width → x.sst < 1024 →
    x.ends = .plain → x.branch = 0 → x.sst / 16 % 16 = 0 →
    Yields (.nop k f 0 true) s fun c =>
      (c.slice k.val).accs[a] = (BitVec.ofInt 48 sum).toNat ∧
      (∀ b : Fin 4, b ≠ a → (c.slice k.val).accs[b] = x.accs[b]) ∧
      (-(2 ^ 47) ≤ sum ∧ sum < 2 ^ 47 → (c.slice k.val).sst = x.sst) ∧
      (sum < -(2 ^ 47) ∨ 2 ^ 47 ≤ sum → (c.slice k.val).sst = x.sst ||| 4)

/-- When a result lands, and where an accumulator wraps. Commands that complete here, `exec` answering the next state told under
conditions on the state and the operands alone: nop, mac. -/
def Obligations.SlicePipeline : Prop := Claims.SliceResultLandsWhenDue ∧ Claims.SliceAccumulatorWraps

namespace Sys2Proof.Claims
open Sys2Proof.Machine

/-- `n` commands `i` one after another, each going on. -/
def Repeats (i : Instr) : Nat → State → State → Prop
  | 0, s, t => s = t
  | n + 1, s, t => ∃ u, exec i s = .next u ∧ Repeats i n u t

/-- A slice at rest between bundles: nothing in flight, no loop level active, no delay slot. -/
def AtRest (x : SliceSt) : Prop :=
  x.flight = [] ∧ x.ends = .plain ∧ x.branch = 0 ∧ x.width = 1 ∧ x.target = none ∧ x.sst / 16 % 16 = 0 ∧ x.sst < 1024

end Sys2Proof.Claims

/-- R230: the two bundles after a BR always execute; the third is at the target where the branch is taken. -/
def Sys2Proof.Claims.SliceBranchRunsItsDelaySlots : Prop :=
  ∀ (k : Fin 9) (w : BitVec 24) (s : State), SliceRuns s k → opOk 3 (sliceWord 0x40 w) = true → AtRest (s.core.slice k.val) →
    s.core.plan.xdone = [] →
    let x := s.core.slice k.val
    let v := s.core.sreg k.val (w.extractLsb' 16 6).toNat
    let taken : Bool := match (w.extractLsb' 22 2).toNat with
      | 0 => true
      | 1 => v != 0
      | _ => v == 0
    ∃ s1 s2 s3, exec (.br k 3 w true) s = .next s1 ∧ exec (.nop k 3 0 true) s1 = .next s2 ∧ exec (.nop k 3 0 true) s2 = .next s3 ∧
      (s1.core.slice k.val).pc = x.pc + 1 ∧ (s2.core.slice k.val).pc = x.pc + 2 ∧
      (s3.core.slice k.val).pc = (if taken then x.pc + (w.extractLsb' 0 13).toNat else x.pc + 3)

/-- R233, R234: a loop of one bundle on any level, started with a count of 1 to 4,095, executes its body exactly that often and then falls
through, with its level inactive and no fc lost. -/
def Sys2Proof.Claims.SliceLoopRunsItsCount : Prop :=
  ∀ (k : Fin 9) (lvl : Fin 4) (n : Nat) (s : State), SliceRuns s k → 1 ≤ n → n ≤ 4095 → AtRest (s.core.slice k.val) →
    s.core.plan.xdone = [] → (s.core.slice k.val).pc < 8190 →
    let x := s.core.slice k.val
    let w : BitVec 24 := BitVec.ofNat 24 (lvl.val * 2 ^ 22 + n)
    ∃ s1, exec (.loopi k 3 w true) s = .next s1 ∧ (s1.core.slice k.val).pc = x.pc + 1 ∧
      (∀ m, m < n → ∃ t, Repeats (.nop k 3 0 true) m s1 t ∧ (t.core.slice k.val).pc = x.pc + 1 ∧
        (t.core.slice k.val).sst / 2 ^ (4 + lvl.val) % 2 = 1) ∧
      ∃ t, Repeats (.nop k 3 0 true) n s1 t ∧ (t.core.slice k.val).pc = x.pc + 2 ∧ (t.core.slice k.val).now = x.now + 1 + n ∧
        (t.core.slice k.val).sst / 2 ^ (4 + lvl.val) % 2 = 0

/-- A taken branch runs its delay slots and a hardware loop runs its count. Commands that complete here, `exec` answering the next state
told under conditions on the state and the operands alone: nop, br, loopi. -/
def Obligations.SliceBranchesAndLoops : Prop := Claims.SliceBranchRunsItsDelaySlots ∧ Claims.SliceLoopRunsItsCount

/-- R240: a doorbell is pending with its code, and a second one replaces the first and sets DBOVR. Where R240 lets it be taken, the handler
entry saves the next bundle in IPC and SST in ISST, clears IE, sets INH, goes to the vector and takes the doorbell. -/
def Sys2Proof.Claims.SliceInterrupts : Prop :=
  (∀ (k : Fin 9) (code : BitVec 8) (s : State), s.core.coreOn = true →
    Yields (.lpeDbellWrite k code) s fun c =>
      c.fld (F.LPE_DBELL.PEND k.val) = 1 ∧ c.fld (F.LPE_DBELL.CODE k.val) = code.toNat ∧ c.fld (F.LPE_SLSTAT.DBPEND k.val) = 1 ∧
      (s.core.fld (F.LPE_DBELL.PEND k.val) = 1 → c.fld (F.LPE_DBELL.DBOVR k.val) = 1) ∧
      (s.core.fld (F.LPE_DBELL.PEND k.val) = 0 → c.fld (F.LPE_DBELL.DBOVR k.val) = s.core.fld (F.LPE_DBELL.DBOVR k.val)) ∧
      c = { s.core with regs := c.regs } ∧ RegsBut [R.LPE_DBELL k.val, R.LPE_SLSTAT k.val, R.LPE_IRQ] s.core c) ∧
  (∀ (k : Fin 9) (p : Program) (s : State), SliceRuns s k → s.core.sliceProgram k.val = some p →
    let x := s.core.slice k.val
    s.core.fld (F.LPE_SLSTAT.RUN k.val) = 1 → x.rerun = none → s.core.fld (F.LPE_DBELL.PEND k.val) = 1 → p.vdbell ≠ 0xFFFF → bitOf x.sst 0 = true →
    bitOf x.sst 9 = false → x.branch = 0 →
    x.irqs < p.irqmax → x.sst < 1024 → x.pc < 2 ^ 32 →
    Yields (.interruptEntry k) s fun c =>
      ((∀ r ∈ x.flight, x.now + 3 < r.due) → c.sreg k.val idIpc = BitVec.ofNat 32 x.pc ∧
        c.sreg k.val idIsst = BitVec.ofNat 32 x.sst ∧ (c.slice k.val).sst = x.sst - 1 + 512) ∧
      (c.slice k.val).pc = p.vdbell ∧ (c.slice k.val).now = x.now + 3 ∧
      (c.slice k.val).irqs = x.irqs + 1 ∧ (c.slice k.val).dbCode = s.core.fld (F.LPE_DBELL.CODE k.val) ∧
      c.fld (F.LPE_DBELL.PEND k.val) = 0 ∧ c.fld (F.LPE_SLSTAT.DBPEND k.val) = 0)

/-- The control operations of a slice, its interrupts, and the operations that have no effect. Commands that complete here, `exec`
answering the next state told under conditions on the state and the operands alone: nop, br, loopi, loopr, wait, endOp, reti, pwb, qpush,
interruptEntry, lpeDbellWrite. -/
def Obligations.SliceControl : Prop := Claims.SliceControlOperations ∧ Claims.SliceInterrupts ∧ Claims.SliceUndefinedOperationChangesNothing

/-! ### Register reads -/

namespace Sys2Proof.Claims
open Sys2Proof.Machine

/-- A read of a register of counters: it returns the listed fields with every other bit 0, clears those in `rc`, keeps those in `ro`, and
changes nothing else. -/
def CountersRead (i : Instr) (a : Nat) (rc ro : List (Nat × Nat)) : Prop :=
  ∀ s : State, s.core.coreOn = true → ∃ w : Word, Reads i s w fun c =>
    (∀ f ∈ rc ++ ro, bits w f.1 f.2 = bits (s.core.reg a) f.1 f.2) ∧
    (∀ b, b < 32 → (∀ f ∈ rc ++ ro, b < f.2 ∨ f.1 < b) → w.getLsbD b = false) ∧
    (∀ f ∈ rc, bits (c.reg a) f.1 f.2 = 0) ∧ (∀ f ∈ ro, bits (c.reg a) f.1 f.2 = bits (s.core.reg a) f.1 f.2) ∧
    RegsBut [a] s.core c ∧ c = { s.core with regs := c.regs, readData := c.readData }

/-- A read of the low word of a 64-bit value `v` returns its low word and latches its high word into `hi`; nothing else changes. -/
def LowReadLatchesHigh (i : Instr) (hi : Nat) (v : State → Nat) : Prop :=
  ∀ s : State, s.core.coreOn = true → Reads i s (BitVec.ofNat 32 (v s)) fun c =>
    c.reg hi = BitVec.ofNat 32 (v s / 2 ^ 32) ∧ RegsBut [hi] s.core c ∧
    c = { s.core with regs := c.regs, readData := c.readData }

end Sys2Proof.Claims

/-- R7 with R116, R171, R174, R195, R199, R209, R215, R290, R292, R334, R336, R338, R393, R403, R419, R430, R482, R499: registers whose counts
clear on a read. -/
def Sys2Proof.Claims.CounterReadsReturnAndClear : Prop :=
  CountersRead .lpeEvqStatRead R.LPE_EVQ_STAT [(31, 16)] [(12, 0)] ∧
  CountersRead .lpeSymqStatRead R.LPE_SYMQ_STAT [(31, 16)] [(12, 0)] ∧
  CountersRead .strWbovrRead R.STR_WBOVR [(23, 16)] [(10, 0)] ∧
  CountersRead .focDemRead R.FOC_DEM [(31, 24)] [(18, 16), (9, 0)] ∧
  CountersRead .focAidstatRead R.FOC_AIDSTAT [(31, 24), (23, 16)] [(15, 12), (6, 0)] ∧
  CountersRead .prmStatRead R.PRM_STAT [(31, 24)] [(22, 12), (11, 11), (10, 8), (7, 0)] ∧
  CountersRead .prmIdleRead R.PRM_IDLE [(31, 0)] [] ∧
  CountersRead .flyEvstatRead R.FLY_EVSTAT [(31, 24), (23, 16)] [(8, 0)] ∧
  CountersRead .flyTmrRead R.FLY_TMR [(15, 0)] [] ∧
  CountersRead .mirCntRead R.MIR_CNT [(31, 16), (15, 8), (7, 0)] [] ∧
  CountersRead .mirEccRead R.MIR_ECC [(31, 16), (15, 8)] [(3, 0)] ∧
  CountersRead .sysAccerrRead R.SYS_ACCERR [(23, 16)] [(31, 31), (15, 12), (11, 11), (10, 10), (5, 0)] ∧
  CountersRead .sysUnmapRead R.SYS_UNMAP [(31, 16)] [(1, 1), (0, 0)] ∧
  CountersRead .nvmStatRead R.NVM_STAT [(15, 8)] [(31, 31), (30, 28), (27, 26), (25, 20), (1, 1), (0, 0)] ∧
  CountersRead .sysDstshedRead R.SYS_DSTSHED [(31, 16), (15, 8), (7, 0)] [] ∧
  CountersRead .qspCntRead R.QSP_CNT [(15, 0)] [] ∧
  CountersRead .setStatRead R.SET_STAT [(31, 24), (23, 16)] [(6, 6), (5, 5), (4, 4), (2, 0)] ∧
  ∀ n : Fin 2, CountersRead (.uartGlitchRead n) (R.UART_GLITCH n.val) [(15, 0)] []

/-- R27, R89, R103, R298, R304, R305, R371: the low word of a 64-bit value latches its partner, so that a pair read low then high is
coherent. A read of a capture clears its flag, but where a capture comes in the read's own cycle it returns the value before it and the
flag stays; one of WHL_CNT_LO latches the whole refresh. -/
def Sys2Proof.Claims.LowWordReadsLatchTheirPartners : Prop :=
  LowReadLatchesHigh .planEpochLoRead R.PLAN_EPOCH_HI (fun s => s.clk.epoch) ∧
  LowReadLatchesHigh .bobSidxLoRead R.BOB_SIDX_HI (fun s => 81920 * s.clk.epoch + s.clk.fc / 8) ∧
  LowReadLatchesHigh .bobCurposLoRead R.BOB_CURPOS_HI (fun s =>
    match (s.core.job (s.core.fld F.BOB_CURSEL.TAG)).bind (·.cursor) with
    | some u => u.next
    | none => 0) ∧
  (∀ n : Fin 8, LowReadLatchesHigh (.reelCntLoRead n) (R.REEL_CNT_HI n.val)
    (fun s => (s.core.rc n.val).count (81920 * s.clk.epoch + s.clk.fc / 8))) ∧
  (∀ n : Fin 8, LowReadLatchesHigh (.reelCmpLoRead n) (R.REEL_CMP_HI n.val) (fun s => (s.core.rc n.val).cmp)) ∧
  LowReadLatchesHigh .reelMkamtLoRead R.REEL_MKAMT_HI (fun s => s.core.reel.amount) ∧
  (∀ (n : Fin 8) (s : State) (v : Nat), s.core.coreOn = true → (s.core.rc n.val).capAt = some (655360 * s.clk.epoch + s.clk.fc, v) →
    Reads (.reelCapLoRead n) s (BitVec.ofNat 32 v) fun c =>
      c.reg (R.REEL_CAP_HI n.val) = BitVec.ofNat 32 (v / 2 ^ 32) ∧ RegsBut [R.REEL_CAP_HI n.val] s.core c ∧
      c = { s.core with regs := c.regs, readData := c.readData }) ∧
  (∀ (n : Fin 8) (s : State), s.core.coreOn = true →
    (∀ q, (s.core.rc n.val).capAt = some q → q.1 ≠ 655360 * s.clk.epoch + s.clk.fc) →
    Reads (.reelCapLoRead n) s (BitVec.ofNat 32 (s.core.rc n.val).cap) fun c =>
      c.reg (R.REEL_CAP_HI n.val) = BitVec.ofNat 32 ((s.core.rc n.val).cap / 2 ^ 32) ∧ bitOf (c.fld F.REEL_CAPSTAT.CAPF) n.val = false ∧
      RegsBut [R.REEL_CAP_HI n.val, R.REEL_CAPSTAT] s.core c ∧ c = { s.core with regs := c.regs, readData := c.readData }) ∧
  ∀ s : State, s.core.coreOn = true →
    Reads .whlCntLoRead s (BitVec.ofNat 32 s.core.whl.shCnt) fun c =>
      c.reg R.WHL_CNT_HI = BitVec.ofNat 32 (s.core.whl.shCnt / 2 ^ 32) ∧ c.reg R.WHL_TSIDX_LO = BitVec.ofNat 32 s.core.whl.shTs ∧
      c.reg R.WHL_TSIDX_HI = BitVec.ofNat 32 (s.core.whl.shTs / 2 ^ 32) ∧ c.fld F.WHL_WDAY.WDAY = s.core.whl.shWday % 8 ∧
      RegsBut [R.WHL_CNT_HI, R.WHL_TSIDX_LO, R.WHL_TSIDX_HI, R.WHL_WDAY] s.core c ∧
      c = { s.core with regs := c.regs, readData := c.readData }

/-- R171, R174, R290, R48, R260: a read of a queue returns its oldest entry, which leaves it, and 0 where it is empty. PLAN_OSTAT shows how
far the output buffer is filled and clears its counts. -/
def Sys2Proof.Claims.QueueReadsReturnTheOldestEntry : Prop :=
  (∀ (s : State) (lo hi : Word) (r : List (Word × Word)), s.core.coreOn = true → s.core.lpe.evq = (lo, hi) :: r →
    Reads .lpeEvqLoRead s (putBits lo 31 31 1) fun c => c.reg R.LPE_EVQ_HI = hi ∧ c.lpe = { s.core.lpe with evq := r } ∧
      c.fld F.LPE_EVQ_STAT.COUNT = r.length % 8192 ∧ RegsBut [R.LPE_EVQ_HI, R.LPE_EVQ_STAT] s.core c ∧
      c = { s.core with regs := c.regs, lpe := c.lpe, readData := c.readData }) ∧
  (∀ (s : State) (lo hi : Word) (r : List (Word × Word)), s.core.coreOn = true → s.core.lpe.symq = (lo, hi) :: r →
    Reads .lpeSymqLoRead s (putBits lo 31 31 1) fun c => c.reg R.LPE_SYMQ_HI = hi ∧ c.lpe = { s.core.lpe with symq := r } ∧
      c.fld F.LPE_SYMQ_STAT.COUNT = r.length % 8192 ∧ RegsBut [R.LPE_SYMQ_HI, R.LPE_SYMQ_STAT] s.core c ∧
      c = { s.core with regs := c.regs, lpe := c.lpe, readData := c.readData }) ∧
  (∀ (s : State) (e0 e1 e2 e3 : Word) (m : Option Rat) (r : List EventTag), s.core.coreOn = true →
    s.core.fly.evq = { words := [e0, e1, e2, e3], time := m } :: r →
    Reads .flyEvq3Read s e3 fun c => c.reg R.FLY_EVQ0 = e0 ∧ c.reg R.FLY_EVQ1 = e1 ∧ c.reg R.FLY_EVQ2 = e2 ∧
      c.fly = { s.core.fly with evq := r } ∧ c.fld F.FLY_EVSTAT.FILL = r.length % 512 ∧
      c = { s.core with regs := c.regs, fly := c.fly, readData := c.readData }) ∧
  (∀ (s : State) (cls st tag : Nat) (r : List (Nat × Nat × Nat)), s.core.coreOn = true → s.core.plan.doneFifo = (cls, st, tag) :: r →
    Reads .jqDoneRead s (BitVec.ofNat 32 (2 ^ 31 + if cls = 16 then 0 else cls * 2 ^ 12 + st * 2 ^ 8 + tag)) fun c =>
      c.plan = { s.core.plan with doneFifo := r, jobs := s.core.plan.jobs.filter fun j => j.tag != tag } ∧
      RegsBut [R.PLAN_JQ_STAT, R.BOB_SNAP_STAT] s.core c ∧
      c = { s.core with regs := c.regs, plan := c.plan, readData := c.readData }) ∧
  (∀ s : State, s.core.coreOn = true →
    (s.core.lpe.evq = [] → Reads .lpeEvqLoRead s 0 fun c => c = { s.core with readData := [0] }) ∧
    (s.core.lpe.symq = [] → Reads .lpeSymqLoRead s 0 fun c => c = { s.core with readData := [0] }) ∧
    (s.core.fly.evq = [] → Reads .flyEvq3Read s 0 fun c => c = { s.core with readData := [0] }) ∧
    (s.core.plan.doneFifo = [] → Reads .jqDoneRead s 0 fun c => c = { s.core with readData := [0] })) ∧
  ∀ s : State, s.core.coreOn = true → ∃ w : Word, Reads .planOstatRead s w fun c =>
    bits w 12 0 = (s.core.fld F.PLAN_OWR.OWR + 4096 - s.core.fld F.PLAN_ORD.ORD) % 4096 ∧
    bits w 31 24 = s.core.fld F.PLAN_OSTAT.ODROP ∧ bits w 23 13 = s.core.fld F.PLAN_OSTAT.TRUNC ∧
    c.fld F.PLAN_OSTAT.ODROP = 0 ∧ c.fld F.PLAN_OSTAT.TRUNC = 0 ∧ RegsBut [R.PLAN_OSTAT] s.core c ∧
    c = { s.core with regs := c.regs, readData := c.readData }

/-- The reads that clear, that latch a partner, and that take from a queue. Commands that complete here, `exec` answering the next state
told under conditions on the state and the operands alone: reelCntLoRead, reelCmpLoRead, reelCapLoRead, uartGlitchRead, jqDoneRead,
lpeEvqLoRead, lpeSymqLoRead, lpeEvqStatRead, lpeSymqStatRead, strWbovrRead, focDemRead, focAidstatRead, prmStatRead, prmIdleRead,
planOstatRead, flyEvq3Read, flyEvstatRead, flyTmrRead, reelMkamtLoRead, mirCntRead, mirEccRead, sysAccerrRead, whlCntLoRead, nvmStatRead,
sysDstshedRead, qspCntRead, setStatRead, sysUnmapRead, planEpochLoRead, bobSidxLoRead, bobCurposLoRead. -/
def Obligations.ReadsWithSideEffects : Prop := Claims.CounterReadsReturnAndClear ∧ Claims.LowWordReadsLatchTheirPartners ∧ Claims.QueueReadsReturnTheOldestEntry

/-! ### The plan, its commits and the job queue -/

namespace Sys2Proof.Claims
open Sys2Proof.Machine

/-- A job ends (R48, R51): its completion entry joins the FIFO, PLAN_IRQ.JQ is raised, the tag stays held; no other job changes. -/
def JobEnds (c0 : Core) (j : Job) (st : JobStatus) (c : Core) : Prop :=
  c.plan.doneFifo = c0.plan.doneFifo ++ [(j.cls, st.code, j.tag)] ∧ c.fld F.PLAN_IRQ.JQ = 1 ∧
  c.plan.jobs.map (·.tag) = c0.plan.jobs.map (·.tag) ∧
  (∀ k ∈ c.plan.jobs, k.tag = j.tag → k.phase = .done st.code) ∧ (∀ k, k.tag ≠ j.tag → (k ∈ c.plan.jobs ↔ k ∈ c0.plan.jobs)) ∧
  c = { c0 with regs := c.regs, plan := c.plan, mem := c.mem, prm := c.prm }

/-- The transfer whose turn it is (R51): the first in submission order of the jobs of classes 1 to 3 that have not ended. -/
def TransferTurn (c : Core) (tag : Nat) : Prop :=
  ((c.plan.jobs.filter fun j => decide (1 ≤ j.cls) && j.live).head?.map (·.tag)) = some tag

/-- The switch epoch that an ARM takes (R53): PLAN_SWEPOCH, or the first boundary at least 64 fc ahead where it is 0. -/
def armTarget (s : State) : Nat :=
  let e := s.core.fld F.PLAN_SWEPOCH_LO.SWEPOCH_LO + 2 ^ 32 * s.core.fld F.PLAN_SWEPOCH_HI.SWEPOCH_HI
  if e = 0 then (if s.clk.fc + 64 ≤ 655360 then s.clk.epoch + 1 else s.clk.epoch + 2) else e

end Sys2Proof.Claims

/-- R53, R36, R350, R354: LOAD. Refused with BUSY while a check runs or a switch is armed, with IMAGE where the inactive slot is not
VALID; otherwise the slot's image becomes the candidate, a check starts and the islands it needs are powered. A LOAD ends DOZE. -/
def Sys2Proof.Claims.PlanLoadStartsACheck : Prop :=
  ∀ s : State, s.core.coreOn = true →
    let st := s.core.fld F.PLAN_STAT.STATE
    let k := s.core.inactiveSlot
    let u := s.core.dozeEvent s.clk
    (st = 1 ∨ st = 4 → Leaves .planLoad s [(F.PLAN_STAT.CODE, 0x15), (F.PLAN_STAT.LOADERR, 1)] u) ∧
    (st ≠ 1 → st ≠ 4 → s.core.fld (slotStateFld k) ≠ 3 →
      Leaves .planLoad s [(F.PLAN_STAT.STATE, 3), (F.PLAN_STAT.CODE, 0x13), (F.PLAN_IRQ.CHK, 1)]
        { u with plan := { s.core.plan with cand := none } }) ∧
    (st ≠ 1 → st ≠ 4 → s.core.fld (slotStateFld k) = 3 →
      let img := imageOf (s.core.slotBytes k)
      let off := belowSuch 8 fun i => bitOf (planUses img) i && !bitOf (s.core.fld F.FAB_SKSTAT.PWR) i
      Leaves .planLoad s [(F.PLAN_STAT.STATE, 1)]
        { u with plan := { s.core.plan with cand := some (img, slotSrc k) }, pwr := { u.pwr with powering := off } })

/-- R34, R37, R53, R350: a check ends with the verdict of the checker on the candidate; a plan that passes is not READY before every
island it uses is. -/
def Sys2Proof.Claims.PlanCheckEndsWithItsVerdict : Prop :=
  ∀ (s : State) (img : Image) (src : ImageSrc), s.core.coreOn = true → s.core.fld F.PLAN_STAT.STATE = 1 →
    s.core.plan.cand = some (img, src) →
    let v := planCheck img
    (s.core.pwr.powering ≠ [] → v.code = 0 → Leaves .planCheckComplete s [] s.core) ∧
    (s.core.pwr.powering = [] ∨ v.code ≠ 0 →
      let prog := match v.prog with
        | some (code, slice, prog, sec, bundle) =>
          [(F.LPE_PROGERR.CODE, code), (F.LPE_PROGERR.SLICE, slice), (F.LPE_PROGERR.PROG, prog), (F.LPE_PROGERR.SEC, sec),
           (F.LPE_PROGERR.BUNDLE, bundle), (F.LPE_IRQ.PROGERR, 1)]
        | none => []
      Leaves .planCheckComplete s
        ([(F.BOB_MAPSTAT.CODE, mapCheck (img.sec .streamMap)), (F.PLAN_IDCAND.PLAN_ID, planIdOf (img.sec .plan)),
          (F.PLAN_ERRINFO.SLOT1, v.slot1), (F.PLAN_ERRINFO.SLOT2, v.slot2), (F.PLAN_ERRPHASE.EPHASE, v.ephase),
          (F.PLAN_ERRPHASE.HALF, v.half)] ++ prog ++
          [(F.PLAN_STAT.STATE, if v.code = 0 then 2 else 3), (F.PLAN_STAT.CODE, v.code), (F.PLAN_IRQ.CHK, 1)])
        { s.core with plan := { s.core.plan with other := img } })

/-- R53, R59: ARM takes effect in READY alone and refuses a switch epoch that is not in the future with LATE; DISARM takes effect in
ARMED, 64 fc or more before the switch boundary. -/
def Sys2Proof.Claims.PlanArmAndDisarm : Prop :=
  ∀ s : State, s.core.coreOn = true →
    let st := s.core.fld F.PLAN_STAT.STATE
    (st ≠ 2 → Leaves .planArm s [(F.PLAN_STAT.ARMERR, 1)] s.core) ∧
    (st = 2 → armTarget s ≤ s.clk.epoch →
      Leaves .planArm s [(F.PLAN_STAT.STATE, 3), (F.PLAN_STAT.CODE, 0x14), (F.PLAN_IRQ.CHK, 1)] s.core) ∧
    (st = 2 → s.clk.epoch < armTarget s →
      Leaves .planArm s [(F.PLAN_STAT.STATE, 4)] { s.core with plan := { s.core.plan with switchAt := some (armTarget s) } }) ∧
    (∀ e, st = 4 → s.core.plan.switchAt = some e → 655360 * s.clk.epoch + s.clk.fc + 64 ≤ 655360 * e →
      Leaves .planDisarm s [(F.PLAN_STAT.STATE, 2)] { s.core with plan := { s.core.plan with switchAt := none } }) ∧
    (st ≠ 4 ∨ s.core.plan.switchAt = none ∨
        (∃ e, s.core.plan.switchAt = some e ∧ 655360 * e < 655360 * s.clk.epoch + s.clk.fc + 64) →
      Leaves .planDisarm s [] s.core)

/-- LOAD, the check that it starts, ARM and DISARM. Commands that complete here, `exec` answering the next state told under conditions on
the state and the operands alone: planLoad, planCheckComplete, planArm, planDisarm. -/
def Obligations.PlanLoadCheckAndSwitch : Prop := Claims.PlanLoadStartsACheck ∧ Claims.PlanCheckEndsWithItsVerdict ∧ Claims.PlanArmAndDisarm

/-- R41, R42, R45: a commit makes pending and seals each requested group that is neither, for the next boundary, or the one after from
an offset past 655,296 fc on. -/
def Sys2Proof.Claims.CommitSealsItsGroups : Prop :=
  ∀ (s : State) (mask : BitVec 15), s.core.coreOn = true →
    let new := (List.range 15).filter fun g => mask.getLsbD g && !bitOf (s.core.fld F.PLAN_CMTSTAT.PEND) g &&
      !bitOf (s.core.fld F.PLAN_CMTSTAT.SEAL) g
    let at' := if s.clk.fc ≤ 655296 then s.clk.epoch + 1 else s.clk.epoch + 2
    Leaves (.planCommit mask) s
      [(F.PLAN_CMTSTAT.PEND, s.core.fld F.PLAN_CMTSTAT.PEND + (new.map (2 ^ ·)).sum),
       (F.PLAN_CMTSTAT.SEAL, s.core.fld F.PLAN_CMTSTAT.SEAL + (new.map (2 ^ ·)).sum)]
      { s.core with plan := { s.core.plan with commitAt := s.core.plan.commitAt ++ new.map fun g => (g, at') } }

/-- R42, R113: a write to a sealed group is discarded and reported; one to a group that is not sealed reaches the staging copy, and marks
the entry that it changes. The five windows of the strands, Hank's directory, the plies, the sets and the rows. -/
def Sys2Proof.Claims.StagedWritesKeepToTheSeal : Prop :=
  ∀ (s : State) (a : Nat) (w : Word), s.core.coreOn = true → a % 4 = 0 →
    (∀ g base size, (g, base, size) ∈ [(0, 0x30000000, 0x20000), (1, 0x32120000, 0x800), (2, 0x31000000, 0x10000), (3, 0x31020000, 0x800),
        (4, 0x31030000, 0x200)] → base ≤ a → a < base + size → s.core.deadIsland a = none →
      (bitOf (s.core.fld F.PLAN_CMTSTAT.SEAL) g = true →
        Leaves (.stagedWrite (BitVec.ofNat 32 a) w) s
          [(F.PLAN_CMTERR.SEALWR, 1), (F.PLAN_CMTERR.SEALGRP, g), (F.PLAN_IRQ.SEALWR, 1)] s.core) ∧
      (bitOf (s.core.fld F.PLAN_CMTSTAT.SEAL) g = false →
        Yields (.stagedWrite (BitVec.ofNat 32 a) w) s fun c =>
          c.mem.word a = w ∧ (∀ b, b < a ∨ a + 4 ≤ b → c.mem.read b = s.core.mem.read b) ∧ g ∈ c.plan.touched ∧
          (g = 0 → (a - base) / 8 ∈ c.plan.dirty) ∧ (g = 1 → (a - base) / 8 ∈ c.plan.hankChg) ∧
          (g = 2 → (a - base) / 64 ∈ c.plan.plyChg) ∧ (g = 3 → (a - base) / 32 ∈ c.plan.coefChg) ∧
          (g = 4 → (a - base) / 8 ∈ c.plan.lifeChg) ∧ c = { s.core with mem := c.mem, plan := c.plan }))

/-- R51, R52, R102: how jobs end. A cancel of a queued job, or of a Prism job between its steps, ends it at once with ABORTED; one of a
running transfer or step marks it, save a step that ends in that very cycle, which stands; one of a free tag has no effect; a transfer
that has moved everything ends with OK in its turn; a cursor whose sample is no longer held ends with OVERTAKEN. -/
def Sys2Proof.Claims.JobsEndWithTheirStatus : Prop :=
  ∀ (s : State) (tag : BitVec 8), s.core.coreOn = true →
    (s.core.job tag.toNat = none → Leaves (.jqCancel tag) s [] s.core ∧ Leaves (.transferComplete tag) s [] s.core ∧
      Leaves (.cursorOvertaken tag) s [] s.core ∧ Leaves (.cursorResume tag) s [] s.core) ∧
    ∀ j, s.core.job tag.toNat = some j →
      (j.phase = .queued → Yields (.jqCancel tag) s (JobEnds s.core j .aborted)) ∧
      (j.phase = .running → j.cls ≠ 0 → Leaves (.jqCancel tag) s [] (s.core.setJob { j with phase := .cancelling })) ∧
      (j.phase = .running → j.cls = 0 → (∀ b, s.core.prm.busy = some b → b.tag ≠ tag.toNat) →
        Yields (.jqCancel tag) s (JobEnds s.core j .aborted)) ∧
      (∀ b, j.phase = .running → j.cls = 0 → s.core.prm.busy = some b → b.tag = tag.toNat →
        (b.ends ≤ s.clk.fc → Leaves (.jqCancel tag) s [] s.core) ∧
        (s.clk.fc < b.ends → Leaves (.jqCancel tag) s [] (s.core.setJob { j with phase := .cancelling }))) ∧
      (j.cls ≠ 0 → j.live = true → j.total ≤ j.moved → TransferTurn s.core tag.toNat →
        Yields (.transferComplete tag) s fun c => JobEnds s.core j .ok c ∧ c.mem = s.core.mem) ∧
      (∀ u, j.cursor = some u → j.live = true → s.core.cursorRule s.clk u = .overtaken →
        Yields (.cursorOvertaken tag) s (JobEnds s.core j .overtaken))

/-- R102: the sample a waiting cursor needs has been written: it is delivered from there on, or its job ends. -/
def Sys2Proof.Claims.WaitingCursorGoesOn : Prop :=
  ∀ (s : State) (tag : BitVec 8) (j : Job) (u : Cursor), s.core.coreOn = true → s.core.job tag.toNat = some j →
    j.cursor = some u → u.waiting = true → j.live = true → u.next < 81920 * s.clk.epoch + s.clk.fc / 8 →
    let v : Cursor := { u with offset := ((s.core.stream u.stream).offsetOf u.next).map (·.1), waiting := false }
    (s.core.cursorRule s.clk v = .deliver → Leaves (.cursorResume tag) s [] (s.core.setJob { j with cursor := some v })) ∧
    (s.core.cursorRule s.clk v = .lost → Yields (.cursorResume tag) s (JobEnds s.core j .lost)) ∧
    (s.core.cursorRule s.clk v = .overtaken → Yields (.cursorResume tag) s (JobEnds s.core j .overtaken)) ∧
    s.core.cursorRule s.clk v ≠ .wait

/-! ### Image slots, NVM and Distaff -/

namespace Sys2Proof.Claims
open Sys2Proof.Machine

/-- The boot record queued for Spool (R71): ACTIVE and TRY. -/
def bootRec (active try_ : Nat) : SpoolReq :=
  { key := 1, batch := false, fin := false, payload := leBytes 1 active ++ leBytes 1 try_, urgent := true, ack := none }

/-- What NVM_STAT shows of the flash operations in progress, each a kind (1 program, 2 erase), a sector and a count (R398). -/
def opFields : List (Nat × Nat × Nat) → List (Fld × Nat)
  | [] => [(F.NVM_STAT.BUSY, 0), (F.NVM_STAT.OP, 0), (F.NVM_STAT.BANK, 0), (F.NVM_STAT.SECTOR, 0)]
  | (op, sec, _) :: _ => [(F.NVM_STAT.BUSY, 1), (F.NVM_STAT.OP, op), (F.NVM_STAT.BANK, sec / 16), (F.NVM_STAT.SECTOR, sec)]

/-- A flash operation of one kind ends: the next word or sector of it, or the next operation, follows. -/
def OpEnds (i : Instr) (op : Nat) : Prop :=
  ∀ s : State, s.core.coreOn = true →
    let u := fun (l : List (Nat × Nat × Nat)) => ({ s.core with nvm := { s.core.nvm with ops := l } } : Core)
    (∀ sec k r, s.core.nvm.ops = (op, sec, k) :: r →
      (2 ≤ k → let l := (op, if op = 2 then sec + 1 else sec, k - 1) :: r
               Leaves i s (opFields l) (u l)) ∧
      (k < 2 → Leaves i s (opFields r) (u r))) ∧
    (s.core.nvm.ops.head?.map (·.1) ≠ some op → Leaves i s [] s.core)

/-- No ply waits for what Distaff does after a bit synchronisation or a verification (R168, R218). -/
def NothingToFollow (c : Core) : Prop := (∀ p, p < 1024 → (c.ply p).bsFound = false) ∧ c.dst.handed = []

end Sys2Proof.Claims

/-- R63, R69: VERIFY marks the inactive slot VERIFYING, and is ignored while a verification runs; Facet's verdict makes it VALID, with
its PRODUCT, or REFUSED. -/
def Sys2Proof.Claims.ImageVerification : Prop :=
  ∀ s : State, s.core.coreOn = true →
    (s.core.fld F.NVM_IMG_STAT.BUSY = 0 →
      Leaves .verify s [(slotStateFld s.core.inactiveSlot, 2), (F.NVM_IMG_STAT.BUSY, 1)] s.core) ∧
    (s.core.fld F.NVM_IMG_STAT.BUSY ≠ 0 → Leaves .verify s [] s.core) ∧
    ∀ ecc : Bool,
      (s.core.fld (slotStateFld 0) ≠ 2 → s.core.fld (slotStateFld 1) ≠ 2 → Leaves (.imageVerifyComplete ecc) s [] s.core) ∧
      ∀ k, k < 2 → s.core.fld (slotStateFld k) = 2 → (k = 1 → s.core.fld (slotStateFld 0) ≠ 2) →
        let l := s.core.slotBytes k
        let code := verifyCode s.core.otp ecc l
        Leaves (.imageVerifyComplete ecc) s
          ([(slotStateFld k, if code = 0 then 3 else 4), (slotCodeFld k, code)] ++
            (if code = 0 then [(slotProdFld k, leAt l 16 4)] else []) ++
            [(F.NVM_IMG_STAT.CODE, code), (F.NVM_IMG_STAT.SKIP, skippedSecs code l), (F.NVM_IMG_STAT.BUSY, 0)]) s.core

/-- R71, R403: CONFIRM ends the trial; SELECT, where the inactive slot is VALID, boots it once; either records it in Spool, unless Spool is
read-only. -/
def Sys2Proof.Claims.ConfirmAndSelectWriteTheBootRecord : Prop :=
  ∀ s : State, s.core.coreOn = true →
    let recorded := fun (a t : Nat) => ({ s.core with nvm := { s.core.nvm with
      queue := if s.core.fld F.NVM_STAT.RDONLY = 0 then s.core.nvm.queue ++ [bootRec a t] else s.core.nvm.queue } } : Core)
    let a := s.core.fld F.NVM_BOOTINFO.ACTIVE
    let k := s.core.inactiveSlot
    Leaves .confirm s [(F.NVM_BOOTINFO.ACTIVE, a), (F.NVM_BOOTINFO.TRY, 0)] (recorded a 0) ∧
    (s.core.fld (slotStateFld k) = 3 → Leaves .select s [(F.NVM_BOOTINFO.ACTIVE, k), (F.NVM_BOOTINFO.TRY, 1)] (recorded k 1)) ∧
    (s.core.fld (slotStateFld k) ≠ 3 → Leaves .select s [] s.core)

/-- The verification of an image slot, CONFIRM and SELECT. Commands that complete here, `exec` answering the next state told under
conditions on the state and the operands alone: imageVerifyComplete, verify, confirm, select. -/
def Obligations.ImagesAndTheBootRecord : Prop := Claims.ImageVerification ∧ Claims.ConfirmAndSelectWriteTheBootRecord

/-- R253, R391 to R393: a scheduling frame shows the load and the use; a load over the limit raises the shed level, one below half of it
for 100 frames in a row lowers it. The limit is setting 18. While Focus has no solution nothing else happens; at its first one Distaff commits
RXBASE through group 9 (R253, log entry 177). -/
def Sys2Proof.Claims.SchedulingFrameMovesTheShedLevel : Prop :=
  ∀ (s : State) (load util : Nat), s.core.coreOn = true → NothingToFollow s.core →
    let dark := s.core.hot.foc.state ≠ 3 ∧ s.core.hot.foc.state ≠ 4
    let lim := s.core.settingNat 18
    let level := s.core.fld F.SYS_DSTLOAD.LEVEL
    let shows := fun (lv low : Nat) => dark → Leaves (.distaffFrameStart load util) s
      [(F.SYS_DSTLOAD.BACKLOG, min 0xFFFF load), (F.SYS_DSTLOAD.UTIL, min 0xFF util), (F.SYS_DSTLOAD.LEVEL, lv)]
      { s.core with dst := { s.core.dst with low := low } }
    (16 * lim < load → level < 3 → shows (level + 1) 0) ∧
    (2 * load ≤ 16 * lim → 99 ≤ s.core.dst.low → 0 < level → shows (level - 1) 0) ∧
    (2 * load ≤ 16 * lim → s.core.dst.low < 99 ∨ level = 0 → shows level (s.core.dst.low + 1)) ∧
    (16 * lim < 2 * load → load ≤ 16 * lim ∨ level = 3 → shows level 0) ∧
    (¬ dark → s.core.rxValid = false → bitOf (s.core.fld F.PLAN_CMTSTAT.SEAL) 9 = false → bitOf (s.core.fld F.PLAN_CMTSTAT.PEND) 9 = false →
      Yields (.distaffFrameStart load util) s fun c => bitOf (c.fld F.PLAN_CMTSTAT.PEND) 9 = true ∧
        bitOf (c.fld F.PLAN_CMTSTAT.SEAL) 9 = true ∧ 9 ∈ c.plan.touched ∧ c.fld F.SYS_DSTLOAD.BACKLOG = min 0xFFFF load)

/-- R395, R396: the patch area is written until the loader locks it; from then on a write is discarded and WRPROT set. -/
def Sys2Proof.Claims.PatchAreaLocks : Prop :=
  ∀ (s : State) (o : Fin 15872) (w : Word), s.core.coreOn = true →
    (s.core.dst.locked = true → Leaves (.patchAreaWrite o w) s [(F.SYS_PATCH.WRPROT, 1)] s.core) ∧
    (s.core.dst.locked = false → Yields (.patchAreaWrite o w) s fun c =>
      c.mem.word (0x10070000 + 4 * o.val) = w ∧
      (∀ b, b < 0x10070000 + 4 * o.val ∨ 0x10070000 + 4 * o.val + 4 ≤ b → c.mem.read b = s.core.mem.read b) ∧
      c = { s.core with mem := c.mem })

/-- The shed level at a frame, and the lock of the patch area. Commands that complete here, `exec` answering the next state told under
conditions on the state and the operands alone: distaffFrameStart, patchAreaWrite. -/
def Obligations.DistaffsFrame : Prop := Claims.SchedulingFrameMovesTheShedLevel ∧ Claims.PatchAreaLocks

/-- R398: word programs and sector erases end one after another, and NVM_STAT shows the one in progress. -/
def Sys2Proof.Claims.FlashOperationsEnd : Prop := OpEnds .nvmProgramDone 1 ∧ OpEnds .nvmEraseDone 2

/-- R401 to R404: the record in front of the queue is written at the tail of the active half with the next sequence number; one that fails
its verify stays queued without its commit word, and the third failure in a row makes Spool read-only, which empties the queue.
NVM_SPSEQ shows the newest committed record. -/
def Sys2Proof.Claims.SpoolWritesItsRecords : Prop :=
  ∀ (s : State) (good : Bool) (r : SpoolReq), s.core.coreOn = true → s.core.mir.reports[s.core.dst.filed]? = none →
    s.core.nvm.queue.head? = some r → s.core.fld F.SYS_DSTLOAD.LEVEL < 3 → s.core.fld F.NVM_STAT.RDONLY = 0 →
    s.core.nvm.dirty = false →
    s.core.nvm.tail + recSize r.payload.length ≤ 0x40000 →
    Yields (.spoolRecordWrite good none none) s fun c =>
      let a := 0x20200000 + 0x40000 * s.core.fld F.NVM_SPOOL.HALF + s.core.nvm.tail
      let seq := (s.core.nvm.lastSeq + 1) % 0xFFFFFFFF
      let bs := recBytes seq r.key r.batch r.fin r.payload
      let put := if good then bs else bs.take (bs.length - 4)
      let fails := if good then 0 else s.core.nvm.fails + 1
      c.mem.reads a put.length = put ∧ (∀ x, x < a ∨ a + put.length ≤ x → c.mem.read x = s.core.mem.read x) ∧
      c.reg R.NVM_SPSEQ = (if good then BitVec.ofNat 32 seq else s.core.reg R.NVM_SPSEQ) ∧ c.nvm.lastSeq = seq ∧
      c.nvm.tail = s.core.nvm.tail + bs.length ∧ c.nvm.fails = fails ∧
      c.nvm.queue = (if good then s.core.nvm.queue.erase r else if 3 ≤ fails then [] else s.core.nvm.queue) ∧
      (good = false → c.fld F.NVM_IRQ.VERIFY = 1 ∧ c.fld F.NVM_STAT.ERRCNT = min 255 (s.core.fld F.NVM_STAT.ERRCNT + 1)) ∧
      c.fld F.NVM_STAT.RDONLY = (if 3 ≤ fails then 1 else 0) ∧
      c = { s.core with regs := c.regs, mem := c.mem, nvm := c.nvm, links := c.links, qsp := c.qsp, svc := c.svc, uarts := c.uarts }

/-- R336, R389, R403: with what Distaff has to record, a week number decoded 52 weeks or more past the rollover anchor moves the anchor,
and statistics go to the log; while the half is dirty all of it waits in the queue, and a read-only Spool takes nothing. A week of GPS
LNAV has 10 bits, of CNAV and BeiDou 13, of Galileo 12; a full week known from Galileo or BeiDou resolves one of LNAV (log entries 198
and 199). -/
def Sys2Proof.Claims.SpoolQueuesWhatDistaffRecords : Prop :=
  ∀ (s : State) (good : Bool) (sys : Fin 4) (w : Nat) (st : List Byte), s.core.coreOn = true → s.core.mir.reports[s.core.dst.filed]? = none →
    s.core.fld F.SYS_DSTLOAD.LEVEL < 3 →
    let wr := s.core.dst.wroll
    let from_ := fun (w0 w b : Nat) => w0 + (w % 2 ^ b + 2 ^ b - w0 % 2 ^ b) % 2 ^ b
    let full := match sys.val with
      | 0 => match s.core.dst.week with | some g => from_ (g - 512) w 10 | none => from_ wr w 10
      | 1 => from_ wr w 13
      | 2 => from_ wr w 12
      | _ => from_ wr (w + 1356) 13
    let known := if 2 ≤ sys.val then some full else s.core.dst.week
    let q := s.core.nvm.queue
    let urgent := fun (key : Nat) (p : List Byte) =>
      ({ key := key, batch := false, fin := false, payload := p, urgent := true, ack := none } : SpoolReq)
    let log : SpoolReq := { key := 0x400, batch := false, fin := false, payload := st.take 240, urgent := false, ack := none }
    (s.core.fld F.NVM_STAT.RDONLY = 0 → s.core.nvm.dirty = true →
      (wr + 52 ≤ full → Leaves (.spoolRecordWrite good (some (sys, w)) none) s []
        { s.core with dst := { s.core.dst with wroll := full, week := known }
                      nvm := { s.core.nvm with queue := q ++ [urgent 2 (leBytes 4 full)] } }) ∧
      (full < wr + 52 → Leaves (.spoolRecordWrite good (some (sys, w)) none) s []
        { s.core with dst := { s.core.dst with week := known } }) ∧
      Leaves (.spoolRecordWrite good none (some st)) s [] { s.core with nvm := { s.core.nvm with queue := q ++ [log] } }) ∧
    (s.core.fld F.NVM_STAT.RDONLY = 1 → q = [] → Leaves (.spoolRecordWrite good none (some st)) s [] s.core)

/-- Records queued and records written. Commands that complete here, `exec` answering the next state told under conditions on the state
and the operands alone: spoolRecordWrite. -/
def Obligations.SpoolRecords : Prop := Claims.SpoolWritesItsRecords ∧ Claims.SpoolQueuesWhatDistaffRecords

/-- R408: compaction starts when it is due, and moves the live set to the other half. -/
def Sys2Proof.Claims.Compaction : Prop :=
  ∀ s : State, s.core.coreOn = true →
    let due := s.core.fld F.NVM_SPOOL.MOUNTED ≠ 0 ∧ s.core.nvm.compactTo = none ∧
      (0x40000 - s.core.nvm.tail < 32768 ∨ s.core.nvm.dirty = true)
    (¬ due → Leaves .compactionStart s [] s.core) ∧
    (due → Yields .compactionStart s fun c => c.fld F.NVM_SPOOL.COMPACT = 1 ∧
      c.nvm.compactTo = some (1 - s.core.fld F.NVM_SPOOL.HALF) ∧ c.nvm.queue = s.core.nvm.queue ∧
      c = { s.core with regs := c.regs, mem := c.mem, nvm := c.nvm }) ∧
    (s.core.nvm.compactTo = none → Leaves .compactionComplete s [] s.core) ∧
    (∀ h, s.core.nvm.compactTo = some h → Yields .compactionComplete s fun c =>
      c.fld F.NVM_SPOOL.HALF = h % 2 ∧ c.fld F.NVM_SPOOL.COMPACT = 0 ∧ c.nvm.dirty = false ∧ c.fld F.NVM_IRQ.COMPDONE = 1 ∧
      c.nvm.compactTo = none ∧
      c.nvm.tail = 32 + (s.core.spoolLive.flatMap fun r => recBytes r.seq r.key false false r.payload).length ∧
      c.nvm.queue = s.core.nvm.queue ∧ c = { s.core with regs := c.regs, mem := c.mem, nvm := c.nvm })

/-- R399: once in NVM_CACHEINT (setting 19) seconds what Distaff has learnt is written to the older copy of the cache; at shed level 3 it
waits for the next interval. That the intervals are counted from the last due instant is the model's reading (log entry 203). -/
def Sys2Proof.Claims.CacheIsWrittenToTheOlderCopy : Prop :=
  ∀ (s : State) (body : List Byte), s.core.coreOn = true →
    let now := 655360 * s.clk.epoch + s.clk.fc
    let due := ∀ w, s.core.nvm.cacheAt = some w → w + s.core.settingNat 19 * 655360000 ≤ now
    (¬ due → Leaves (.cacheWrite body) s [] s.core) ∧
    (due → s.core.fld F.SYS_DSTLOAD.LEVEL = 3 →
      Leaves (.cacheWrite body) s [] { s.core with nvm := { s.core.nvm with cacheAt := some now } }) ∧
    (due → s.core.fld F.SYS_DSTLOAD.LEVEL ≠ 3 → Yields (.cacheWrite body) s fun c =>
      let b := body.take (4 * 65536 - 16)
      let i := match newestCopy s.core.mem cacheBase cacheMost with
        | some x => 1 - x.1
        | none => 0
      c.mem.reads (0x20280000 + 0x40000 * i + 8) b.length = b ∧
      (∀ a, a < 0x20280000 + 0x40000 * i ∨ 0x20280000 + 0x40000 * (i + 1) ≤ a → c.mem.read a = s.core.mem.read a) ∧
      c.nvm.cacheAt = some now ∧
      c = { s.core with regs := c.regs, mem := c.mem, nvm := c.nvm })

/-- Flash operations, compaction and the caches. Commands that complete here, `exec` answering the next state told under conditions on the
state and the operands alone: cacheWrite, compactionStart, compactionComplete, nvmProgramDone, nvmEraseDone. -/
def Obligations.FlashCompactionAndCaches : Prop := Claims.FlashOperationsEnd ∧ Claims.Compaction ∧ Claims.CacheIsWrittenToTheOlderCopy

/-! ### Sample streams and the snapshot -/

namespace Sys2Proof.Claims
open Sys2Proof.Machine

/-- What starting the training of the streams in `want` leaves (R88): each that is enabled and not training trains and reads zeros. -/
def Trains (s : State) (want : Nat → Bool) (c : Core) : Prop :=
  ∀ n : Fin 8,
    let go := want n.val && s.core.streamEn n.val && decide (s.core.fld (F.BOB_LVDS_STAT.STATE n.val) ≠ 1)
    c.fld (F.BOB_LVDS_STAT.STATE n.val) = (if go then 1 else s.core.fld (F.BOB_LVDS_STAT.STATE n.val)) ∧
    c.fld (F.BOB_STRSTAT.ZFILL n.val) = (if go then 1 else s.core.fld (F.BOB_STRSTAT.ZFILL n.val))

/-- The registers that training writes. -/
def trainRegs : List Nat := (List.range 8).map R.BOB_LVDS_STAT ++ (List.range 8).map R.BOB_STRSTAT

/-- Training of stream `n` ends with a state, a failure code and a pair; a snapshot that was restarting is over once every stream has
settled (R83, R109). -/
def TrainingEnds (s : State) (n : Fin 8) (st code pair : Nat) (c : Core) : Prop :=
  c.fld (F.BOB_LVDS_STAT.STATE n.val) = st ∧ c.fld (F.BOB_LVDS_STAT.FCODE n.val) = code ∧
  c.fld (F.BOB_LVDS_STAT.FPAIR n.val) = pair % 8 ∧
  c.fld F.BOB_SNAP_STAT.STATE = (if s.core.fld F.BOB_SNAP_STAT.STATE = 4 ∧ c.allSettled = true ∧ s.core.bob.rxOff = false then 0
    else s.core.fld F.BOB_SNAP_STAT.STATE) ∧
  RegsBut [R.BOB_LVDS_STAT n.val, R.BOB_SNAP_STAT] s.core c ∧ c = { s.core with regs := c.regs, bob := c.bob }

end Sys2Proof.Claims

/-- R82, R83, R88: training starts on the enabled streams asked for that are not training; it ends LOCKED at the centre of each pair's eye,
or FAILED with the first cause in code order and the lowest pair that has it. -/
def Sys2Proof.Claims.TrainingStartsAndEnds : Prop :=
  (∀ (s : State) (mask : BitVec 8), s.core.coreOn = true →
    Yields (.train mask) s fun c => Trains s (fun n => mask.getLsbD n) c ∧ RegsBut trainRegs s.core c ∧ c = { s.core with regs := c.regs }) ∧
  ∀ (s : State) (n : Fin 8) (ps : List PairSweep), s.core.coreOn = true →
    let training := s.core.fld (F.BOB_LVDS_STAT.STATE n.val) = 1
    let eye := fun (p : PairSweep) => if p.transitions < 64 then 0 else p.width
    (¬ training → Leaves (.trainingComplete n ps) s [] s.core ∧ Leaves (.nostbTimeout n) s [] s.core) ∧
    (training → Yields (.nostbTimeout n) s fun c => TrainingEnds s n 3 1 4 c ∧ c.bob = s.core.bob ∧
      c.fld (F.BOB_LVDS_STAT.EYEMIN n.val) = s.core.fld (F.BOB_LVDS_STAT.EYEMIN n.val)) ∧
    (training → ∀ (k : Nat) (p : PairSweep), ps[k]? = some p → p.transitions < 64 →
      (∀ j q, j < k → ps[j]? = some q → 64 ≤ q.transitions) →
      Yields (.trainingComplete n ps) s fun c => TrainingEnds s n 3 2 k c ∧ c.bob = s.core.bob ∧
        c.fld (F.BOB_LVDS_STAT.EYEMIN n.val) = (ps.map eye).foldl min 128 % 256) ∧
    (training → (∀ p ∈ ps, 64 ≤ p.transitions) → ∀ (k : Nat) (p : PairSweep), ps[k]? = some p → p.width < 16 →
      (∀ j q, j < k → ps[j]? = some q → 16 ≤ q.width) →
      Yields (.trainingComplete n ps) s fun c => TrainingEnds s n 3 3 k c ∧ c.bob = s.core.bob ∧
        c.fld (F.BOB_LVDS_STAT.EYEMIN n.val) = (ps.map eye).foldl min 128 % 256) ∧
    (training → (∀ p ∈ ps, 64 ≤ p.transitions ∧ 16 ≤ p.width) →
      Yields (.trainingComplete n ps) s fun c => TrainingEnds s n 2 0 0 c ∧
        c.bob = { s.core.bob with streams := modAt s.core.bob.streams n.val fun x =>
          { x with taps := ps.map (fun p => p.first + p.width / 2), fifo := 4, strobeLost := false } } ∧
        c.fld (F.BOB_LVDS_STAT.EYEMIN n.val) = (ps.map eye).foldl min 128 % 256)

/-- R85 to R87: the strobe's loss and return, a slip of the elastic FIFO, the monitors' warning. -/
def Sys2Proof.Claims.StrobeEventsOfAStream : Prop :=
  ∀ (s : State) (n : Fin 8), s.core.coreOn = true →
    let locked := s.core.fld (F.BOB_LVDS_STAT.STATE n.val) = 2
    let u := fun (f : StreamSt → StreamSt) => ({ s.core with bob := { s.core.bob with streams := modAt s.core.bob.streams n.val f } } : Core)
    (s.core.streamEn n.val = true → Leaves (.strobeLoss n) s
      [(F.BOB_STRSTAT.STBLOSS n.val, 1), (F.BOB_STRSTAT.ZFILL n.val, 1)] (u fun x => { x with strobeLost := true })) ∧
    (s.core.streamEn n.val = false → Leaves (.strobeLoss n) s [] s.core) ∧
    (locked → Leaves (.strobeReturn n) s [] (u fun x => { x with strobeLost := false, fifo := 4 })) ∧
    (¬ locked → Leaves (.strobeReturn n) s [] (u fun x => { x with strobeLost := false })) ∧
    (locked → (s.core.stream n.val).strobeLost = false →
      let slips := s.core.fld F.BOB_SNAP_STAT.STATE = 2 ∧ bitOf s.core.bob.snapMask n.val = true
      let v := u fun x => { x with fifo := 4 }
      (slips → Leaves (.fifoSlip n) s [(F.BOB_STRSTAT.SLIP n.val, 1)] { v with bob := { v.bob with snapSlip := true } }) ∧
      (¬ slips → Leaves (.fifoSlip n) s [(F.BOB_STRSTAT.SLIP n.val, 1)] v)) ∧
    (¬ locked ∨ (s.core.stream n.val).strobeLost = true → Leaves (.fifoSlip n) s [] s.core) ∧
    (locked → Leaves (.eyewarn n) s [(F.BOB_STRSTAT.EYEWARN n.val, 1)] s.core) ∧
    (¬ locked → Leaves (.eyewarn n) s [] s.core)

/-- Training of a stream's pairs, and its strobe. Commands that complete here, `exec` answering the next state told under conditions on
the state and the operands alone: train, trainingComplete, nostbTimeout, strobeLoss, strobeReturn, fifoSlip, eyewarn. -/
def Obligations.StreamTrainingAndStrobes : Prop := Claims.TrainingStartsAndEnds ∧ Claims.StrobeEventsOfAStream

/-- R104, R105, R109: ARM, its refusals in order, and DISARM, which counts 64 fc or more before the start boundary. That SIZE and STREAM are
tested before LATE, and STATE before all, is the model's reading (DEDUCED). -/
def Sys2Proof.Claims.SnapshotArmAndDisarm : Prop :=
  ∀ s : State, s.core.coreOn = true →
    let mask := s.core.fld F.BOB_SNAP_CFG.MASK
    let nep := s.core.fld F.BOB_SNAP_CFG.NEP
    let start := s.core.fld F.BOB_SNAP_START_LO.START + 2 ^ 32 * s.core.fld F.BOB_SNAP_START_HI.START
    let ns := (List.range 8).filter fun n => bitOf mask n
    let idle := s.core.fld F.BOB_SNAP_STAT.STATE = 0
    let size := mask = 0 ∨ nep = 0 ∨ 76 < nep * ns.length
    let off := ∃ n ∈ ns, s.core.streamEn n = false
    let late := start ≠ 0 ∧ start ≤ s.clk.epoch
    let next := if s.clk.fc ≤ 655296 then s.clk.epoch + 1 else s.clk.epoch + 2
    let refused := fun (r : Nat) => Leaves .snapshotArm s [(F.BOB_SNAP_STAT.RCODE, r), (F.BOB_SNAP_STAT.REFUSED, 1)] s.core
    (¬ idle → refused 5) ∧ (idle → size → refused 1) ∧ (idle → ¬ size → off → refused 2) ∧
    (idle → ¬ size → ¬ off → late → refused 3) ∧
    (idle → ¬ size → ¬ off → ¬ late → Leaves .snapshotArm s [(F.BOB_SNAP_STAT.STATE, 1)]
      { s.core with bob := { s.core.bob with
          snapStart := if start = 0 then next else start, snapMask := mask, snapNep := nep
          snapFeoff := decide (s.core.fld F.BOB_SNAP_CFG.FEOFF = 1) } }) ∧
    (s.core.fld F.BOB_SNAP_STAT.STATE = 1 → next ≤ s.core.bob.snapStart → Leaves .snapshotDisarm s [(F.BOB_SNAP_STAT.STATE, 0)] s.core) ∧
    (s.core.fld F.BOB_SNAP_STAT.STATE ≠ 1 ∨ s.core.bob.snapStart < next → Leaves .snapshotDisarm s [] s.core)

/-- R106, R107, R355: the capture ends when its epochs are over; with FEOFF the front ends, SCLK_OUT and the receivers go off and the device
enters SNAPSHOT with every island gated. -/
def Sys2Proof.Claims.SnapshotCaptureEnds : Prop :=
  ∀ s : State, s.core.coreOn = true → s.core.fld F.BOB_SNAP_STAT.STATE = 2 →
    s.core.bob.snapStart + s.core.bob.snapNep ≤ s.clk.epoch →
    let flags := 1 + ofBool (s.core.flag F.BOB_SNAP_STAT.ZFILL) * 2 + ofBool s.core.bob.snapSlip * 4 + ofBool (!s.core.bob.snapTsgs.isEmpty) * 8
    Yields .captureEnd s fun c => c.fld F.BOB_SNAP_STAT.STATE = 3 ∧ c.mem.read 0x385F000D = BitVec.ofNat 8 flags ∧
      (∀ a, a ≠ 0x385F000D → c.mem.read a = s.core.mem.read a) ∧
      (s.core.bob.snapFeoff = false → c.bob = s.core.bob ∧ c = { s.core with regs := c.regs, mem := c.mem }) ∧
      (s.core.bob.snapFeoff = true →
        c.bob = { s.core.bob with fePwr := [false, false, false, false], sclk := false, rxOff := true } ∧
        (s.core.fld F.PWR_STAT.STATE < 3 → c.fld F.PWR_STAT.STATE = 3 ∧ c.fld F.PWR_IRQ.STATE = 1 ∧ c.fld F.FAB_SKSTAT.PWR = 0 ∧
          c.fld F.PWR_STAT.OFFPH = 0) ∧
        c = { s.core with regs := c.regs, mem := c.mem, bob := c.bob, hot := c.hot, ckpt := c.ckpt, pwr := c.pwr })

/-- R109: RELEASE is accepted in HELD with no job holding the snapshot; when FEWAIT has passed since the release boundary, the receivers run
again and every enabled stream trains. RESTARTING is over at once where no stream has to train. -/
def Sys2Proof.Claims.SnapshotRelease : Prop :=
  ∀ s : State, s.core.coreOn = true →
    let st := s.core.fld F.BOB_SNAP_STAT.STATE
    (st = 3 → s.core.fld F.BOB_SNAP_STAT.JOBS = 0 →
      Leaves .snapshotRelease s [] { s.core with bob := { s.core.bob with releasePending := true } }) ∧
    (st ≠ 3 ∨ s.core.fld F.BOB_SNAP_STAT.JOBS ≠ 0 →
      Leaves .snapshotRelease s [(F.BOB_SNAP_STAT.RCODE, 4), (F.BOB_SNAP_STAT.REFUSED, 1)] s.core) ∧
    let due := st = 4 ∧ ∃ e, s.core.bob.feAt = some e ∧ e ≤ s.clk.epoch
    let none_ := ∀ n, n < 8 → s.core.streamEn n = true → s.core.tsgOn n = true
    (due → Yields .fewaitExpiry s fun c => Trains s (fun _ => true) c ∧ RegsBut (R.BOB_SNAP_STAT :: trainRegs) s.core c ∧
      (none_ → c.fld F.BOB_SNAP_STAT.STATE = 0) ∧ (¬ none_ → c.fld F.BOB_SNAP_STAT.STATE = 4) ∧
      c = { s.core with regs := c.regs, bob := { s.core.bob with rxOff := false, feAt := none } }) ∧
    (¬ due → Leaves .fewaitExpiry s [] s.core)

/-- A snapshot armed and disarmed, captured, released. Commands that complete here, `exec` answering the next state told under conditions
on the state and the operands alone: snapshotArm, snapshotDisarm, captureEnd, snapshotRelease, fewaitExpiry. -/
def Obligations.Snapshots : Prop := Claims.SnapshotArmAndDisarm ∧ Claims.SnapshotCaptureEnds ∧ Claims.SnapshotRelease

/-! ### Loops and Focus -/

namespace Sys2Proof.Claims
open Sys2Proof.Machine

/-- A byte of Hank RAM lies in the range of a directory entry that is VALID in force or staged (R128). -/
def HankInUse (c : Core) (o : Nat) : Prop :=
  ∃ j, j < 256 ∧ ∃ e ∈ [(c.force.reg (0x32120000 + 8 * j), c.force.reg (0x32120000 + 8 * j + 4)),
      (c.mem.word (0x32120000 + 8 * j), c.mem.word (0x32120000 + 8 * j + 4))],
    bits e.2 31 31 = 1 ∧ bits e.1 20 0 / 8 ≤ o ∧ 8 * o < bits e.1 20 0 + bits e.2 20 0

/-- A ply command changes the ply's latches to `x`, and nothing else (R176). -/
def LatchSet (i : Instr) (p : Nat) (x : Latch → Latch) : Prop :=
  ∀ s : State, s.core.coreOn = true → Yields i s fun c =>
    c.latch p = x (s.core.latch p) ∧ (∀ q, q ≠ p → c.latch q = s.core.latch q) ∧
    c = { s.core with lpe := { s.core.lpe with latches := c.lpe.latches } }

end Sys2Proof.Claims

/-- R167, R168, R176: the ply commands set one latch each, ARM, STOP, BSOK and one shared by HCOK and HCINV, the later of which stands. -/
def Sys2Proof.Claims.PlyCommandsAreLatched : Prop :=
  ∀ p : Fin 1024,
    LatchSet (.plyArm p) p.val (fun l => { l with arm := true }) ∧
    LatchSet (.plyStop p) p.val (fun l => { l with stop := true }) ∧
    LatchSet (.hcok p) p.val (fun l => { l with hc := 1 }) ∧
    LatchSet (.hcinv p) p.val (fun l => { l with hc := 2 }) ∧
    LatchSet (.bsok p) p.val (fun l => { l with bsok := true })

/-- R128: a direct write of Hank RAM is done, or discarded with INUSE set when a byte it touches lies in a VALID entry's range. -/
def Sys2Proof.Claims.HankRamWriteSparesCodesInUse : Prop :=
  ∀ (s : State) (o : Fin 32768) (w : Word), s.core.coreOn = true →
    let used := ∃ k, k < 4 ∧ HankInUse s.core (4 * o.val + k)
    (used → Leaves (.hankRamWrite o w) s [(F.STR_CODEERR.INUSE, 1), (F.STR_IRQ.CODEERR, 1)] s.core) ∧
    (¬ used → Yields (.hankRamWrite o w) s fun c => c.mem.word (0x32100000 + 4 * o.val) = w ∧
      (∀ b, b < 0x32100000 + 4 * o.val ∨ 0x32100000 + 4 * o.val + 4 ≤ b → c.mem.read b = s.core.mem.read b) ∧
      c = { s.core with mem := c.mem })

/-- R183, R198, R200, R266: a satellite entry is published whole and takes effect later, without VALID where a Galileo satellite that failed
authentication is kept out (settings 15 and 16); a write of FOC_AIDIN7 pushes the sample, displacing the
oldest of 64; AIDLOST is set when no sample has been accepted for 50 ms. -/
def Sys2Proof.Claims.SatelliteEntriesAndAiding : Prop :=
  (∀ (s : State) (p : Fin 1024) (w : Word) (ws : List Word), s.core.coreOn = true → ws.length = 15 →
    let sig := s.core.sigOf p.val
    let barred := s.core.settingNat 15 = 1 ∧ s.core.settingNat 16 = 1 ∧ sig.1 / 16 = 2 ∧ sig.2 ∈ s.core.dst.osnFail
    Yields (.satelliteEntryPublish p (w :: ws)) s fun c =>
      c.mem.words (0x31080000 + 64 * p.val) 16 = (if barred then w &&& 0x7FFFFFFF#32 else w) :: ws ∧
      (∀ b, b < 0x31080000 + 64 * p.val ∨ 0x31080000 + 64 * p.val + 64 ≤ b → c.mem.read b = s.core.mem.read b) ∧
      c = { s.core with mem := c.mem, foc := { s.core.foc with shadow := c.foc.shadow } }) ∧
  (∀ (s : State) (w : Word), s.core.coreOn = true →
    let sample := ((List.range 7).map fun k => s.core.reg (R.FOC_AIDIN k)) ++ [w]
    let q := s.core.foc.fifo
    Yields (.aidingPush w) s fun c => c.reg (R.FOC_AIDIN 7) = w ∧
      (q.length < 64 → c.foc = { s.core.foc with fifo := q ++ [sample] } ∧ c.fld F.FOC_AIDSTAT.FILL = q.length + 1 ∧
        c.fld F.FOC_AIDSTAT.OVF = s.core.fld F.FOC_AIDSTAT.OVF ∧ RegsBut [R.FOC_AIDIN 7, R.FOC_AIDSTAT] s.core c) ∧
      (q.length = 64 → c.foc = { s.core.foc with fifo := q.tail ++ [sample] } ∧ c.fld F.FOC_AIDSTAT.FILL = 64 ∧
        c.fld F.FOC_AIDSTAT.OVF = min 255 (s.core.fld F.FOC_AIDSTAT.OVF + 1) ∧ c.fld F.FOC_IRQ.AIDREJ = 1 ∧
        RegsBut [R.FOC_AIDIN 7, R.FOC_AIDSTAT, R.FOC_IRQ] s.core c) ∧
      c = { s.core with regs := c.regs, foc := c.foc }) ∧
  ∀ s : State, s.core.coreOn = true →
    let due := s.core.inForce F.FOC_CFG.AIDEN ≠ 0 ∧ s.core.hot.foc.aidLost = false ∧
      ∀ q, s.core.hot.foc.aidAt = some q → q + 50 * 655360 ≤ 655360 * s.clk.epoch + s.clk.fc
    (due → Leaves .aidlost s [(F.FOC_IRQ.AIDLOST, 1)]
      { s.core with hot := { s.core.hot with foc := { s.core.hot.foc with aidLost := true } } }) ∧
    (¬ due → Leaves .aidlost s [] s.core)

/-- Ply commands, Hank RAM, satellite entries and aiding. Commands that complete here, `exec` answering the next state told under
conditions on the state and the operands alone: hankRamWrite, plyArm, plyStop, hcok, hcinv, bsok, satelliteEntryPublish, aidingPush,
aidlost. -/
def Obligations.LoopCommandsAndEntries : Prop := Claims.PlyCommandsAreLatched ∧ Claims.HankRamWriteSparesCodesInUse ∧ Claims.SatelliteEntriesAndAiding

/-! ### Prism, handoff and the tables that Distaff writes -/

namespace Sys2Proof.Claims
open Sys2Proof.Machine

/-- An event at an fc that lies ahead in the running half-epoch, at which the core is powered. -/
def DueAt (s : State) (fc : Nat) : Prop :=
  s.core.epochsRun = true ∧ s.clk.fc ≤ fc ∧ fc ≤ s.clk.halfLast ∧ (s.goTo fc).core.coreOn = true

/-- A command moves time to an fc and leaves what `P` says of the device as time brought it there and as the command left it. -/
def YieldsAt (i : Instr) (s : State) (fc : Nat) (P : Core → Core → Prop) : Prop :=
  ∃ c, exec i s = .next ((s.goTo fc).put c.sendDones) ∧ P (s.goTo fc).core c

/-- What Distaff writes of a verification entry, in the copies of the ply's pair (R216): a running verification starts again, and
word 0 with VEN clears the kernel's words; its reserved bits stay 0. -/
def VerifyWritten (p k : Nat) (w : Word) (h h' : Hot) : Prop :=
  let a := 0x310C0000 + 16 * p
  let clears := k = 0 ∧ w.getLsbD 31 = true
  h'.mem.word (a + 4 * k) = (if k = 0 then putBits w 28 24 0 else w) ∧ h'.mem.word (a + 4 * (1 - k)) = h.mem.word (a + 4 * (1 - k)) ∧
  (clears → h'.mem.word (a + 8) = 0 ∧ h'.mem.word (a + 12) = 0) ∧
  (¬ clears → h'.mem.word (a + 8) = h.mem.word (a + 8) ∧ h'.mem.word (a + 12) = h.mem.word (a + 12)) ∧
  (∀ b, b < a ∨ a + 16 ≤ b → h'.mem.read b = h.mem.read b) ∧
  (mapGet (fun _ => plyZero) h'.plies p = { mapGet (fun _ => plyZero) h.plies p with vsp := 0, vsn := 0, vx := [] }) ∧
  (∀ q, q ≠ p → mapGet (fun _ => plyZero) h'.plies q = mapGet (fun _ => plyZero) h.plies q) ∧
  h' = { h with mem := h'.mem, plies := h'.plies }

end Sys2Proof.Claims

/-- R48 to R50, R207: a submission is refused by its checks, by FULL or by CLASSLIM; otherwise the lowest free tag is taken. A job whose
step fits no slot ends with TOOLONG before its cursor is opened, one whose first sample is gone with OVERTAKEN or LOST. Commands that
complete here, `exec` answering the next state told under conditions on the state and the operands alone: prmSubmit. -/
def Obligations.PrismSubmission : Prop :=
  ∀ s : State, s.core.coreOn = true →
    let ws := (List.range 16).map fun k => s.core.reg (R.PRM_JD k)
    let code := s.core.prmRefusal ws
    let held := fun (t : Nat) => ∃ j ∈ s.core.plan.jobs, j.tag = t
    let refused := fun (r : Nat) =>
      Leaves .prmSubmit s [(F.PRM_SUBRES.VALID, 1), (F.PRM_SUBRES.CODE, r), (F.PRM_SUBRES.TAG, 0)] s.core
    let full := ∀ t, t < 256 → held t
    let limit := min 256 (s.core.fld F.PLAN_JQ_PRMMAX.PRMMAX) ≤ (s.core.plan.jobs.filter fun j => j.cls == 0).length
    (code ≠ 0 → Leaves .prmSubmit s
      [(F.PRM_IRQ.SUBREF, 1), (F.PRM_SUBRES.VALID, 1), (F.PRM_SUBRES.CODE, code), (F.PRM_SUBRES.TAG, 0)] s.core) ∧
    (code = 0 → full → refused 0x10) ∧
    (code = 0 → ¬ full → limit → refused 0x11) ∧
    (code = 0 → ¬ limit → ∀ tag, tag < 256 → ¬ held tag → (∀ t, t < tag → held t) →
      let d := PrmDesc.of ws
      let first := if d.sidx0 = 0 then 81920 * (s.clk.epoch + 1) else d.sidx0
      let ends := if s.core.tooLong d then some 4 else (s.core.openCursor s.clk d.stream first d.snap).2.map (·.code)
      Yields .prmSubmit s fun c =>
        c.fld F.PRM_SUBRES.VALID = 1 ∧ c.fld F.PRM_SUBRES.CODE = 0 ∧ c.fld F.PRM_SUBRES.TAG = tag ∧
        c.mem.words (0x34200000 + 64 * tag) 16 = ws ∧ c.plan.jobs.map (·.tag) = s.core.plan.jobs.map (·.tag) ++ [tag] ∧
        (∃ j, c.job tag = some j ∧ j.cls = 0 ∧ j.desc = ws ∧ j.prio = d.prio ∧
          j.phase = match ends with | some st => .done st | none => .queued) ∧
        c.plan.doneFifo = s.core.plan.doneFifo ++ (match ends with | some st => [(0, st, tag)] | none => []) ∧
        c = { s.core with regs := c.regs, mem := c.mem, plan := c.plan, pwr := c.pwr })

/-- R50, R204, R209: at a step opportunity the first ready job, in the order of R50, starts its next step where it fits the slot; where it
does not, the slot stays idle to its end. -/
def Sys2Proof.Claims.PrismStepsStartWhereTheyFit : Prop :=
  ∀ (s : State) (fc : Fin 655360) (last : Nat), DueAt s fc.val →
    let t : Clock := { epoch := s.clk.epoch, fc := fc.val }
    let c0 := (s.goTo fc.val).core
    c0.prm.slot = some last → c0.prm.busy = none → fc.val ≤ last →
    (c0.nextPrism t = none → YieldsAt (.prismStepStart fc) s fc.val fun c0 c => c.prm.busy = none ∧ c.plan = c0.plan) ∧
    (∀ j r, c0.nextPrism t = some j → j.prism = some r →
      let step := (PrmDesc.of j.desc).step r.next
      let dur := c0.stepDur (PrmDesc.of j.desc) step
      (fc.val + dur ≤ last + 1 → YieldsAt (.prismStepStart fc) s fc.val fun c0 c =>
        c.prm.busy = some { tag := j.tag, ends := fc.val + dur } ∧ c.fld F.PRM_STAT.RUN = 1 ∧
        c.fld F.PRM_STAT.STEP = (match step with | .code _ => 1 | .load _ => 2 | .search _ _ _ _ => 3) ∧
        c.fld F.PRM_STAT.TAG = j.tag % 256 ∧
        (∀ k ∈ c.plan.jobs, k.tag = j.tag → k = { j with phase := .running, prism := some { r with begun := true } }) ∧
        c = { c0 with regs := c.regs, plan := { c0.plan with jobs := c.plan.jobs }, prm := c.prm }) ∧
      (last + 1 < fc.val + dur → YieldsAt (.prismStepStart fc) s fc.val fun c0 c =>
        c.prm = { c0.prm with slot := none, seen := max (max c0.prm.seen fc.val) (last + 1) } ∧ c.plan = c0.plan))

/-- R204, R215, R334: the running step ends, the engine is free, and the errors that were corrected in it are counted; one that could not be,
in working RAM or in the samples that a LOAD reads, ends its job with FAULT and is counted too. A cancelled job ends with ABORTED, one whose
last step this was with OK, and any other goes on with its next step. -/
def Sys2Proof.Claims.PrismStepsEnd : Prop :=
  ∀ (s : State) (b : PrismBusy) (n : Nat) (lost : Option Bool), s.core.prm.busy = some b →
    let fc := min b.ends s.clk.halfLast
    let there := (s.goTo fc).core
    let ends := fun (P : Core → Core → Prop) => YieldsAt (.prismStepComplete ⟨n, lost⟩) s fc P
    DueAt s fc → there.prm.busy = some b →
    ends (fun c0 c =>
      c.prm = { c0.prm with busy := none, seen := b.ends, era := c0.prm.era + 1 } ∧ c.fld F.PRM_STAT.RUN = 0 ∧
      c.fld F.PRM_STAT.STEP = 0 ∧ c.fld F.PRM_STAT.TAG = 0 ∧ c.fld F.PRM_STAT.ECC = min 255 (c0.fld F.PRM_STAT.ECC + n) ∧
      c.fld F.MIR_ECC.CORR = min 65535 (c0.fld F.MIR_ECC.CORR + n) ∧
      c = { c0 with regs := c.regs, plan := c.plan, mem := c.mem, prm := c.prm }) ∧
    ∀ j r, there.job b.tag = some j → j.live = true → j.cls = 0 → j.prism = some r →
      let d := PrmDesc.of j.desc
      (∀ bobbin, lost = some bobbin → ends fun c0 c => JobEnds c0 j .fault c ∧ c.fld F.PRM_IRQ.FAULT = 1 ∧ c.fld F.MIR_IRQ.ECCU = 1 ∧
        c.fld F.MIR_ECC.UNCORR = min 255 (c0.fld F.MIR_ECC.UNCORR + 1) ∧
        c.fld F.MIR_ECC.MEM = if bobbin = true ∧ c0.fld F.PRM_STAT.STEP = 2 then 4 else 5) ∧
      (lost = none → j.phase = .cancelling → ends fun c0 c => JobEnds c0 j .aborted c) ∧
      (lost = none → j.phase ≠ .cancelling → d.steps ≤ r.next + 1 → ends fun c0 c => JobEnds c0 j .ok c) ∧
      (lost = none → j.phase ≠ .cancelling → r.next + 1 < d.steps → (∀ k, d.step r.next ≠ .load k) → ends fun c0 c =>
        c.plan.doneFifo = c0.plan.doneFifo ∧ ∃ x, c.job b.tag = some { j with prism := some x } ∧ x.next = r.next + 1)

/-- When a step starts and how it ends. Commands that complete here, `exec` answering the next state told under conditions on the state
and the operands alone: prismStepStart, prismStepComplete. -/
def Obligations.PrismSteps : Prop := Claims.PrismStepsStartWhereTheyFit ∧ Claims.PrismStepsEnd

/-- R216: what Distaff writes of a verification entry; its words 2 and 3 are the kernel's. -/
def Sys2Proof.Claims.VerificationEntryWrites : Prop :=
  ∀ (s : State) (p : Fin 1024) (k : Fin 4) (w : Word), s.core.coreOn = true →
    (2 ≤ k.val → Leaves (.verificationEntryWrite p k w) s [] s.core) ∧
    (k.val < 2 → Yields (.verificationEntryWrite p k w) s fun c => VerifyWritten p.val k.val w s.core.hot c.hot ∧
      VerifyWritten p.val k.val w s.core.ckpt c.ckpt ∧ c = { s.core with hot := c.hot, ckpt := c.ckpt })

/-- R218, R219: a handoff commits group 0, with group 2 where the binding changes, writes the verification entry for E_h with VEN set,
arms the ply, and sends BSOK with it where every primary period is a symbol; Distaff holds the signal that it assigned (the model's
operand for R257, R451). -/
def Sys2Proof.Claims.HandoffCommitsAndArms : Prop :=
  ∀ (s : State) (h : HandoffReq), s.core.coreOn = true → h.ply < 1024 →
    (∀ g ∈ [0, 2], bitOf (s.core.fld F.PLAN_CMTSTAT.SEAL) g = false ∧ bitOf (s.core.fld F.PLAN_CMTSTAT.PEND) g = false) →
    Yields (.handoff h) s fun c =>
      bitOf (c.fld F.PLAN_CMTSTAT.PEND) 0 = true ∧ bitOf (c.fld F.PLAN_CMTSTAT.SEAL) 0 = true ∧
      (h.binding.isSome → bitOf (c.fld F.PLAN_CMTSTAT.PEND) 2 = true ∧ bitOf (c.fld F.PLAN_CMTSTAT.SEAL) 2 = true) ∧
      c.hot.mem.word (0x310C0000 + 16 * h.ply) = putBits (putBits h.verify 31 31 1) 28 24 0 ∧
      c.hot.mem.word (0x310C0000 + 16 * h.ply + 4) = BitVec.ofNat 32 h.eh ∧
      (c.latch h.ply = { s.core.latch h.ply with arm := true } ∨
        c.latch h.ply = { s.core.latch h.ply with arm := true, bsok := true }) ∧
      mapGet (fun _ => (0xFF, 0xFF)) c.dst.sigs h.ply = (h.sigid % 256, h.svid % 256) ∧
      c = { s.core with regs := c.regs, mem := c.mem, plan := c.plan, dst := c.dst, hot := c.hot, ckpt := c.ckpt, lpe := c.lpe }

/-- A verification entry, and the handoff of a detection. Commands that complete here, `exec` answering the next state told under
conditions on the state and the operands alone: verificationEntryWrite, handoff. -/
def Obligations.VerificationAndHandoff : Prop := Claims.VerificationEntryWrites ∧ Claims.HandoffCommitsAndArms

/-- R254, R261, R264: range anchors, heading products, of which only fixed solutions are published, and the time-scale table, GPST and TAI
of which are fixed, whose UTC follows the first of GPS, Galileo and BeiDou whose parameters are decoded, and whose reserved entries are
never valid. Commands that complete here, `exec` answering the next state told under conditions on the state and the operands alone:
rangeAnchorWrite, headingSearch, timeScaleTableWrite. -/
def Obligations.TablesThatDistaffWrites : Prop :=
  (∀ (s : State) (p : Fin 1024) (sys : BitVec 3) (ea : Word) (txa : BitVec 64), s.core.coreOn = true →
    Yields (.rangeAnchorWrite p sys ea txa) s fun c =>
      let a := 0x31028000 + 16 * p.val
      c.mem.words a 4 = [BitVec.ofNat 32 (2 ^ 31 + sys.toNat * 2 ^ 28), ea, txa.setWidth 32, (txa >>> 32).setWidth 32] ∧
      (∀ b, b < a ∨ a + 16 ≤ b → c.mem.read b = s.core.mem.read b) ∧ c = { s.core with mem := c.mem }) ∧
  (∀ (s : State) (b : Fin 3), s.core.coreOn = true → Yields (.headingSearch b) s fun c =>
    let a := 0x3102D000 + 32 * b.val
    (c.mem = s.core.mem ∨ (bits (c.mem.word a) 31 31 = 1 ∧ 5 ≤ bits (c.mem.word a) 30 24)) ∧
    (∀ x, x < a ∨ a + 32 ≤ x → c.mem.read x = s.core.mem.read x) ∧
    (leAt (s.core.setting (9 + b.val)) 0 4 = 0 → c = s.core) ∧ c = { s.core with mem := c.mem, dst := c.dst }) ∧
  ∀ (s : State) (k : Fin 8) (utc : Vector (Option (Int × Int)) 3) (bcast : Option Int) (leap : Option (Nat × Bool)), s.core.coreOn = true →
    Yields (.timeScaleTableWrite k utc bcast leap) s fun c =>
      let a := 0x3102E000 + 16 * k.val
      let src := fun (n : Nat) => bits (c.mem.word a) 31 28 = 8 + n
      let ofs := signedOf 64 (c.mem.readLe (a + 8) 8)
      (k = 0 → src 3 ∧ ofs = 0) ∧ (k = 5 → src 3 ∧ ofs = 19 * 1000000000 * 65536) ∧
      (6 ≤ k.val → c.mem.word a = 0) ∧
      (∀ v, k = 1 → bcast = some v → -(2 ^ 62) ≤ v → v < 2 ^ 62 → src 1 ∧ ofs = v) ∧
      (∀ v, k = 2 → bcast = some v → -(2 ^ 62) ≤ v → v < 2 ^ 62 → src 1 ∧ ofs = v - 14 * 1000000000 * 65536) ∧
      (utc = #v[none, none, none] → k = 3 ∨ k = 4 → c.mem.word a = 0) ∧
      (∀ u, utc.toList.findSome? id = some u → k = 4 → -(2 ^ 62) ≤ u.1 * (1000000000 * 65536) + u.2 →
        u.1 * (1000000000 * 65536) + u.2 < 2 ^ 62 → src 1 ∧ ofs = -(u.1 * (1000000000 * 65536)) - u.2) ∧
      c.mem.word (a + 4) = BitVec.ofNat 32 s.clk.epoch ∧
      (∀ x, x < a ∨ a + 16 ≤ x → c.mem.read x = s.core.mem.read x) ∧
      c = { s.core with regs := c.regs, mem := c.mem, dst := { s.core.dst with leap := c.dst.leap }, fly := c.fly }

/-! ### Flywheel and Reel -/

namespace Sys2Proof.Claims
open Sys2Proof.Machine

/-- A fault as Mirror shows it (R336): MIR_FAULT, MIR_FEPOCH, the interrupt, a report to file. -/
def FaultOf (s : State) (src pair copy : Nat) (inj : Bool) (c : Core) : Prop :=
  c.reg R.MIR_FAULT = BitVec.ofNat 32 (src * 2 ^ 28 + pair * 2 ^ 24 + copy * 2 ^ 22 + (if inj then 2 ^ 21 else 0) +
    (if 327680 ≤ s.clk.fc then 2 ^ 20 else 0) + s.clk.fc) ∧
  c.reg R.MIR_FEPOCH = BitVec.ofNat 32 s.clk.epoch ∧ c.fld F.MIR_IRQ.FAULT = 1 ∧
  (s.core.mir.reports ++ [[src, pair, copy, s.clk.epoch]]) <+: c.mir.reports

/-- The same where no copy is named. -/
def FaultShown (s : State) (src pair : Nat) (inj : Bool) (c : Core) : Prop := FaultOf s src pair 0 inj c

/-- The output takes its active edge at the instant at which its grid has it placed: a change of MODE and POL that waited for it takes
effect (R281), it becomes active, for its width, and its next edge is chosen. -/
def EdgeTaken (c0 : Core) (n : Nat) (c : Core) : Prop :=
  let x := c0.tp n
  let y := if x.turn then { x with turn := false, lock := decide (x.act.mode = 2), pol := x.act.pol } else x
  let armed := ∃ q, x.step = some q ∧ q.armed = true
  c0.tpRuns n = true →
    (c0.tpSuppressed = true →
      c = { c0 with fly := { c0.fly with tps := putAt c0.fly.tps n { y with tgt := x.tgt + tpPeriod x.act.period } } }) ∧
    (c0.tpSuppressed = false →
      let mark := c0.fld F.FLY_STAT.STATE = 3 ∧ c0.inForce F.FLY_CFG.HOLDACT = 1
      let width := if mark then c0.inForce (F.FLY_TP_WID.MWID n) else c0.inForce (F.FLY_TP_WID.WIDTH n)
      let d := c0.edgeAt n
      (c.tp n).active = true ∧ (c.tp n).last = some d ∧ (c.tp n).offAt = some (d + ((width : Nat) : Rat) * 10000) ∧
      (c.tp n).first = false ∧ (c.tp n).turn = false ∧ (c.tp n).pol = y.pol ∧
      (∀ m, m < 4 → m ≠ n → { c.tp m with step := (c0.tp m).step } = c0.tp m ∧ (¬ armed → c.tp m = c0.tp m)) ∧
      (x.stepNext = true → c.fld F.FLY_IRQ.STEPDONE = 1) ∧ c = { c0 with regs := c.regs, fly := c.fly })

/-- A capture of a counter at an fc counted from epoch 0, which keeps what a read in that very cycle returns (R303 to R305). -/
def Captured (c0 : Core) (n now : Nat) (c : Core) : Prop :=
  let x := c0.rc n
  let before := match x.capAt with
    | some q => if q.1 = now then q.2 else x.cap
    | none => x.cap
  c.rc n = { x with cap := x.count (now / 8), capAt := some (now, before) } ∧
  bitOf (c.fld F.REEL_CAPSTAT.CAPF) n = true ∧ bitOf (c.fld F.REEL_IRQ.CAP) n = true ∧
  (bitOf (c0.fld F.REEL_CAPSTAT.CAPF) n = true → bitOf (c.fld F.REEL_CAPSTAT.CAPOVR) n = true ∧ c.fld F.REEL_IRQ.CAPOVR = 1)

/-- A compare is past (R301): its flag and its interrupt. -/
def PastShown (n : Nat) (past : Prop) (c0 c : Core) : Prop :=
  (past → bitOf (c.fld F.REEL_STAT.PAST) n = true ∧ c.fld F.REEL_IRQ.PAST = 1) ∧ (¬ past → c.regs = c0.regs)

end Sys2Proof.Claims

/-- R275, R276, R293: HOLDOVER from LOCKED when no record has been accepted for HOLDDLY s, LIMIT from HOLDOVER when a limit is reached
(the square of the uncertainty of R274 is compared, as FLY_UNC shows whole ns), and NOTIME with every output inactive when no two copies
agree. Commands that complete here, `exec` answering the next state told under conditions on the state and the operands alone:
holdoverEntry, limitEntry, tmrFail. -/
def Obligations.FlywheelStateEntries : Prop :=
  ∀ s : State, s.core.coreOn = true →
    let st := s.core.fld F.FLY_STAT.STATE
    let since := s.clk.epoch - s.core.fly.lastAcc.getD s.clk.epoch
    let late := s.core.inForce F.FLY_CFG.HOLDDLY * 1000 ≤ since
    let limit := s.core.inForce F.FLY_HOLDLIM.HOLDLIM ≤ since / 1000 ∨
      ((s.core.inForce F.FLY_UNCLIM.UNCLIM ^ 2 : Nat) : Rat) < s.core.uncSq s.clk.epoch
    (st = 1 → late → Yields .holdoverEntry s fun c => c.fld F.FLY_STAT.STATE = 2 ∧ c.fld F.FLY_IRQ.STATE = 1 ∧
      RegsBut [R.FLY_STAT, R.FLY_IRQ] s.core c ∧ c = { s.core with regs := c.regs, fly := { s.core.fly with consec := 0 } }) ∧
    (st ≠ 1 ∨ ¬ late → Leaves .holdoverEntry s [] s.core) ∧
    (st = 2 → limit → Yields .limitEntry s fun c => c.fld F.FLY_STAT.STATE = 3 ∧ c.fld F.FLY_IRQ.STATE = 1 ∧ c.fld F.FLY_IRQ.LIMIT = 1 ∧
      RegsBut [R.FLY_STAT, R.FLY_IRQ] s.core c ∧ c = { s.core with regs := c.regs }) ∧
    (st ≠ 2 ∨ ¬ limit → Leaves .limitEntry s [] s.core) ∧
    Yields .tmrFail s fun c => c.fld F.FLY_STAT.STATE = 0 ∧ c.fld F.FLY_STAT.TMRF = 1 ∧ c.reg R.FLY_UNC = 0xFFFFFFFF#32 ∧
      (∀ x ∈ c.fly.tps, x.on = false ∧ x.active = false ∧ x.step = none) ∧ FaultShown s 8 11 false c ∧
      c = { s.core with regs := c.regs, fly := c.fly, mir := c.mir, links := c.links }

/-- R278 to R280, R283 to R285: an output's active edge, its inactive edge one width later, and pulse k + 1 of a step. -/
def Sys2Proof.Claims.PulseEdges : Prop :=
  ∀ (s : State) (n : Fin 4),
    (∀ fc, s.core.tpRuns n.val = true → s.clk.place (s.core.edgeAt n.val) = some fc → DueAt s fc →
      YieldsAt (.tpActiveEdge n) s fc (fun c0 c => EdgeTaken c0 n.val c) ∧
      ((s.core.tp n.val).stepNext = true → YieldsAt (.stepApply n) s fc fun c0 c => EdgeTaken c0 n.val c)) ∧
    (∀ fc d, (s.core.tp n.val).offAt = some d → s.clk.place d = some fc → DueAt s fc →
      YieldsAt (.tpInactiveEdge n) s fc fun c0 c =>
        c = { c0 with fly := { c0.fly with tps := putAt c0.fly.tps n.val { c0.tp n.val with active := false, offAt := none } } })

/-- R289, R290: an edge of a kind that FLY_EVCFG chose before the Ts began is tagged: 16 fc or more after the last one it is counted, kept
in the channel's history and put in the FIFO of 256 with its time, or dropped where that is full. -/
def Sys2Proof.Claims.EventsAreTagged : Prop :=
  ∀ (s : State) (n : Fin 8) (falling : Bool), s.core.coreOn = true →
    let cfg := match s.core.fly.evWas with
      | some q => if q.1 = s.clk.sidx then q.2 else s.core.reg R.FLY_EVCFG
      | none => s.core.reg R.FLY_EVCFG
    let sel := bits cfg (2 * n.val + 1) (2 * n.val)
    let wanted := if falling then 2 ≤ sel else sel = 1 ∨ sel = 3
    let now := 655360 * s.clk.epoch + s.clk.fc
    let close := ∃ l, s.core.fly.evLast[n] = some l ∧ now < l + 16
    let count := (s.core.fly.evCount[n] + 1) % 2 ^ 32
    let word3 := fun (valid : Nat) => BitVec.ofNat 32 (valid * 2 ^ 31 + (if falling then 256 else 0) + n.val * 16 + now % 8)
    let entry := fun (valid : Nat) => [BitVec.ofNat 32 (now / 8), BitVec.ofNat 32 (now / 8 / 2 ^ 32), BitVec.ofNat 32 count, word3 valid]
    let slot := 0x3102F000 + 256 * n.val + 16 * (count % 16)
    (¬ wanted → Leaves (.eventTag n falling) s [] s.core) ∧
    (wanted → close → Leaves (.eventTag n falling) s
      [(F.FLY_EVSTAT.CLOSE, min 255 (s.core.fld F.FLY_EVSTAT.CLOSE + 1))] s.core) ∧
    (wanted → ¬ close → Yields (.eventTag n falling) s fun c =>
      c.mem.words slot 4 = entry 0 ∧ (∀ b, b < slot ∨ slot + 16 ≤ b → c.mem.read b = s.core.mem.read b) ∧
      c.fly.evCount = putAt s.core.fly.evCount n.val count ∧ c.fly.evLast = putAt s.core.fly.evLast n.val (some now) ∧
      (s.core.fly.evq.length < 256 → (∃ m, c.fly.evq = s.core.fly.evq ++ [{ words := entry 1, time := m }] ∧
          (m = none ↔ s.core.fld F.FLY_STAT.STATE = 0)) ∧
        c.fld F.FLY_EVSTAT.FILL = s.core.fly.evq.length + 1 ∧ (s.core.fly.evq = [] → c.fld F.FLY_IRQ.EVQ = 1)) ∧
      (256 ≤ s.core.fly.evq.length → c.fly.evq = s.core.fly.evq ∧ c.fld F.FLY_IRQ.EVDROP = 1 ∧
        c.fld F.FLY_EVSTAT.DROP = min 255 (s.core.fld F.FLY_EVSTAT.DROP + 1)) ∧
      c = { s.core with regs := c.regs, mem := c.mem, fly := c.fly })

/-- The edges of the time pulses, and the tags of events. Commands that complete here, `exec` answering the next state told under
conditions on the state and the operands alone: tpActiveEdge, tpInactiveEdge, stepApply, eventTag. -/
def Obligations.PulsesAndEvents : Prop := Claims.PulseEdges ∧ Claims.EventsAreTagged

/-- R295, R296: REEL_START releases every counter named in one Ts, or at the boundary, loaded or with the sample index; REEL_STOP stops
them. Counters in the other state are not affected. -/
def Sys2Proof.Claims.ReelStartAndStop : Prop :=
  ∀ (s : State) (mask : BitVec 8), s.core.coreOn = true →
    let i := 81920 * s.clk.epoch + s.clk.fc / 8
    let next := if s.clk.fc ≤ 655296 then s.clk.epoch + 1 else s.clk.epoch + 2
    (∀ atEpoch sync : Bool, Yields (.reelStart mask atEpoch sync) s fun c =>
      (∀ n : Fin 8, let x := s.core.rc n.val
        c.rc n.val = (if ¬ mask.getLsbD n.val ∨ x.run then x
        else if atEpoch then { x with release := some (next, sync) }
        else { x with run := true, since := i, base := if sync then i % 2 ^ 64 else x.base, release := none })) ∧
      RegsBut [R.REEL_STAT] s.core c ∧ (atEpoch → c.regs = s.core.regs) ∧
      c = { s.core with regs := c.regs, reel := { s.core.reel with cnts := c.reel.cnts } }) ∧
    Yields (.reelStop mask) s fun c =>
      (∀ n : Fin 8, let x := s.core.rc n.val
        c.rc n.val = (if mask.getLsbD n.val ∧ x.run then { x with base := (x.base + (i - x.since)) % 2 ^ 64, run := false } else x)) ∧
      RegsBut [R.REEL_STAT] s.core c ∧ c = { s.core with regs := c.regs, reel := { s.core.reel with cnts := c.reel.cnts } }

/-- R297, R300, R301: a write of a _LO register commits 64 bits with REEL_WHI; a running counter is not moved, and a compare at or below the
count is past. -/
def Sys2Proof.Claims.ReelWrites : Prop :=
  ∀ (s : State) (n : Fin 8) (w : Word), s.core.coreOn = true →
    let x := s.core.rc n.val
    let v := (s.core.reg R.REEL_WHI).toNat * 2 ^ 32 + w.toNat
    let armed := s.core.fld (F.REEL_CFG.ARM n.val) ≠ 0
    let put := fun (y : ReelCnt) => ({ s.core with reel := { s.core.reel with cnts := putAt s.core.reel.cnts n.val y } } : Core)
    (x.run = true → Leaves (.reelLoWrite .cnt n w) s [(F.REEL_IRQ.WRUN, 1)] s.core) ∧
    (x.run = false → Yields (.reelLoWrite .cnt n w) s fun c => PastShown n.val (armed ∧ x.cmp ≤ v) s.core c ∧
      c = { put { x with base := v } with regs := c.regs }) ∧
    (Yields (.reelLoWrite .cmp n w) s fun c =>
      PastShown n.val (armed ∧ v ≤ x.count (81920 * s.clk.epoch + s.clk.fc / 8)) s.core c ∧ c = { put { x with cmp := v } with regs := c.regs }) ∧
    Yields (.reelLoWrite .inc n w) s fun c => c.reg (R.REEL_INC_LO n.val) = w ∧ c.reg (R.REEL_INC_HI n.val) = s.core.reg R.REEL_WHI ∧
      RegsBut [R.REEL_INC_LO n.val, R.REEL_INC_HI n.val] s.core c ∧ c = { put { x with inc := v } with regs := c.regs }

/-- R304: every capture, by CAPSW and by an edge, sets CAPF and IRQ.CAP and replaces the held value, with CAPOVR where CAPF was set; a
read of REEL_CAPn_LO clears CAPF, but not in the cycle of a capture (R305). Commands that complete here, `exec` answering the next state
told under conditions on the state and the operands alone: capsw, captureEdge. -/
def Obligations.CapturesSetTheirFlags : Prop :=
  ∀ (s : State) (n : Fin 8), s.core.coreOn = true →
    let now := 655360 * s.clk.epoch + s.clk.fc
    (Yields (.capsw n) s fun c => Captured s.core n.val now c ∧ RegsBut [R.REEL_CAPSTAT, R.REEL_IRQ] s.core c ∧
      c = { s.core with regs := c.regs, reel := { s.core.reel with cnts := c.reel.cnts } }) ∧
    (∀ (ch : Fin 8) (falling : Bool), Yields (.captureEdge ch falling) s fun c =>
      let kind := s.core.fld (F.REEL_CFG.CAPEDGE n.val)
      let chosen := s.core.fld (F.REEL_CFG.CAPSRC n.val) = ch.val ∧ (if falling then 2 ≤ kind else kind = 1 ∨ kind = 3)
      (chosen → Captured s.core n.val now c) ∧
      (¬ chosen → c.rc n.val = s.core.rc n.val ∧
        bitOf (c.fld F.REEL_CAPSTAT.CAPF) n.val = bitOf (s.core.fld F.REEL_CAPSTAT.CAPF) n.val ∧
        bitOf (c.fld F.REEL_IRQ.CAP) n.val = bitOf (s.core.fld F.REEL_IRQ.CAP) n.val) ∧
      RegsBut [R.REEL_CAPSTAT, R.REEL_IRQ] s.core c ∧
      c = { s.core with regs := c.regs, reel := { s.core.reel with cnts := c.reel.cnts } }) ∧
    ((∀ q, (s.core.rc n.val).capAt = some q → q.1 ≠ now) → Yields (.reelCapLoRead n) s fun c => bitOf (c.fld F.REEL_CAPSTAT.CAPF) n.val = false ∧
      c.readData = [BitVec.ofNat 32 (s.core.rc n.val).cap] ∧ c.reel = s.core.reel)

/-- R299, R302: the next match of an armed compare comes at its Ts and sets its flag; PINSET gives the level that the output register takes
at the end of the Ts, while OE is set; of two in one Ts the later one stands. -/
def Sys2Proof.Claims.ReelMatchesAndPins : Prop :=
  ∀ (s : State) (n : Fin 8),
    (∀ m, s.core.nextMatch n.val s.core.reel.seen = some m → 81920 * s.clk.epoch ≤ m → DueAt s (8 * (m - 81920 * s.clk.epoch)) →
      YieldsAt (.compareMatch n) s (8 * (m - 81920 * s.clk.epoch)) fun c0 c => c = c0 ∧ bitOf (c.fld F.REEL_IRQ.MATCH) n.val = true) ∧
    ∀ v : BitVec 2, s.core.coreOn = true →
      let x := s.core.rc n.val
      let oe := s.core.fld (F.REEL_CFG.OE n.val) ≠ 0
      (¬ oe ∨ v = 0 ∨ v = 3 → Leaves (.pinset n v) s [] s.core) ∧
      (oe → v = 1 ∨ v = 2 → Leaves (.pinset n v) s [] { s.core with reel := { s.core.reel with
        cnts := putAt s.core.reel.cnts n.val { x with want := some (s.clk.sidx, decide (v = 1)) } } })

/-- Reel's counters started, stopped, written and compared. Commands that complete here, `exec` answering the next state told under
conditions on the state and the operands alone: reelStart, reelStop, reelLoWrite, compareMatch, pinset. -/
def Obligations.ReelCounters : Prop := Claims.ReelStartAndStop ∧ Claims.ReelWrites ∧ Claims.ReelMatchesAndPins

/-! ### Mirror -/

namespace Sys2Proof.Claims
open Sys2Proof.Machine

/-- Distaff restarts cold at the fc `now` (R333): 50 ms without service, every session closed. -/
def ColdRestart (now : Nat) (c : Core) : Prop :=
  c.mir.dstUntil = some (now + 50 * 655360) ∧ c.fld F.MIR_STAT.DSTREC = 1 ∧ c.fld F.MIR_IRQ.DSTCOLD = 1 ∧
  (∀ l ∈ c.links, l.opened = false ∧ l.waiting = [] ∧ l.memory = [])

/-- The Distaff cores disagree (R332, R333): a warm restart of 250 µs, or a cold one within 10 ms of the last. -/
def DistaffRestarts (s : State) (inj : Bool) (c : Core) : Prop :=
  let now := 655360 * s.clk.epoch + s.clk.fc
  let again := ∃ w, s.core.mir.lastWarm = some w ∧ now < w + 10 * 655360
  FaultShown s 7 10 inj c ∧ (again → ColdRestart now c) ∧
  (¬ again → c.mir.dstUntil = some (now + 163840) ∧ c.mir.lastWarm = some now ∧ c.fld F.MIR_STAT.DSTREC = 1 ∧
    c.fld F.MIR_IRQ.DSTWARM = 1 ∧ ∀ l : Fin 3, c.links[l].opened = s.core.links[l].opened) ∧
  c = { s.core with regs := c.regs, mir := c.mir, links := c.links }

/-- A replay abandoned with REFAULT (R315, R330). -/
def RefaultShown (s : State) (pair : Nat) (c : Core) : Prop :=
  FaultShown s 10 pair false c ∧ c.replay = none ∧ c.fld F.MIR_RPSTAT.REASON = 4 ∧ c.fld F.MIR_STAT.RPACT = 0 ∧
  c.fld F.MIR_CNT.ABAND = min 255 (s.core.fld F.MIR_CNT.ABAND + 1) ∧ c.fld F.MIR_IRQ.ABAND = 1 ∧
  c = { s.core with regs := c.regs, hot := c.hot, replay := none, links := c.links, mir := c.mir }

/-- The first occurrence to run again has its resource in a planned slot (R40, R325): it waits for the end of that slot. -/
def RerunWaits (s : State) (o : Occurrence) : Prop := s.core.planned s.clk o.entry.resource = true

/-- A replay abandoned because its time is over (R329). -/
def TimedOut (s : State) (c : Core) : Prop :=
  c.replay = none ∧ c.fld F.MIR_RPSTAT.REASON = 1 ∧ c.fld F.MIR_CNT.ABAND = min 255 (s.core.fld F.MIR_CNT.ABAND + 1) ∧
  c.fld F.MIR_STAT.RPACT = 0 ∧ c.fld F.MIR_IRQ.ABAND = 1 ∧ RegsBut [R.MIR_RPSTAT, R.MIR_CNT, R.MIR_STAT, R.MIR_IRQ] s.core c ∧
  c = { s.core with regs := c.regs, replay := none, links := c.links, mir := c.mir }

/-- An open window that cannot be merged starts again without accumulating (R319). -/
def Discarded (c : Core) (m : MergeItem) : Core :=
  let x := c.strand m.strand
  if m.seen ≤ x.seen then c.setStrand m.strand { x.newWindow with dead := true } else c

end Sys2Proof.Claims

/-- R322 to R330: a replay's merges, reruns and deadline, and the disagreement of its copies. A rerun runs in its resource's unplanned
time, its outputs come within 2 ms of C_b, it never touches the live state, and one whose overlay is full ends the replay. Commands that
complete here, `exec` answering the next state told under conditions on the state and the operands alone: replayCorrelationComplete,
rerunStart, rerunComplete, replayDeadline. -/
def Obligations.ReplayGoesOn : Prop :=
  ∀ (s : State) (r : Replay) (bad : Option (Fin 8)) (stop : BitVec 8) (differ : Bool), s.core.coreOn = true →
    let now := 655360 * s.clk.epoch + s.clk.fc
    (s.core.replay = none → Leaves (.replayCorrelationComplete bad stop) s [] s.core ∧ Leaves .rerunStart s [] s.core ∧
      Leaves (.rerunComplete differ) s [] s.core ∧ Leaves .replayDeadline s [] s.core) ∧
    (s.core.replay = some r →
      (now ≤ r.cb + 172032 → r.corr = true → Yields (.replayCorrelationComplete none stop) s fun c =>
        c.replay = (if r.reruns = [] then none else some { r with corr := false, merges := [] }) ∧ (r.reruns = [] → c.fld F.MIR_STAT.RPACT = 0) ∧
        RegsBut ([R.MIR_STAT] ++ if stop = 0 then [] else [R.MIR_RPSTAT, R.MIR_ECC, R.MIR_IRQ]) s.core c ∧
        (∀ n : Fin 8, stop[n] = true → bitOf (c.fld F.MIR_RPSTAT.NOREP) n.val = true) ∧
        (∀ m, r.merges = [m] → c.hot = (if bitOf stop.toNat (s.core.live m.strand).stream then Discarded s.core m
          else s.core.mergeOne m).hot) ∧
        c = { s.core with regs := c.regs, hot := c.hot, replay := c.replay }) ∧
      (∀ k, bad = some k → now ≤ r.cb + 172032 → r.corr = true → Yields (.replayCorrelationComplete bad stop) s fun c =>
        RefaultShown s k.val c ∧ c.hot = (r.merges.foldl Discarded s.core).hot) ∧
      (r.cb + 172032 < now ∨ r.corr = false → Leaves (.replayCorrelationComplete bad stop) s [] s.core) ∧
      (r.reruns = [] → Leaves .rerunStart s [] s.core) ∧
      (r.reruns = [] ∨ r.running = false → Leaves (.rerunComplete differ) s [] s.core) ∧
      (∀ o rest, r.reruns = o :: rest →
        (r.cb + 512 ≤ now → r.running = false → ¬ RerunWaits s o →
          Leaves .rerunStart s [] { s.core with replay := some { r with running := true } }) ∧
        (now < r.cb + 512 ∨ r.running = true ∨ RerunWaits s o → Leaves .rerunStart s [] s.core) ∧
        (r.running = true → r.cb + 2 * 655360 < now → Yields (.rerunComplete differ) s (TimedOut s)) ∧
        (r.running = true → now ≤ r.cb + 2 * 655360 → RerunWaits s o → Leaves (.rerunComplete differ) s [] s.core) ∧
        (r.running = true → now ≤ r.cb + 2 * 655360 → ¬ RerunWaits s o → Yields (.rerunComplete true) s fun c =>
          RefaultShown s (pairOf o.entry) c ∧ c.hot = (r.merges.foldl Discarded s.core).hot) ∧
        (r.running = true → now ≤ r.cb + 2 * 655360 → ¬ RerunWaits s o → Yields (.rerunComplete false) s fun c =>
          let writes := o.entry.kind = kRecord ∨ o.entry.kind = kSolution
          c.hot = s.core.hot ∧ c.force = s.core.force ∧ c.foc = s.core.foc ∧
          (o.supp = false → writes → c = { s.core with regs := c.regs, replay := c.replay } ∧ RegsBut [R.MIR_STAT] s.core c) ∧
          (¬ writes → c = { s.core with regs := c.regs, replay := c.replay, links := c.links, mir := c.mir }) ∧
          (¬ writes ∧ c.replay = none ∧ c.fld F.MIR_RPSTAT.REASON = 3 ∧ c.fld F.MIR_IRQ.ABAND = 1 ∨
            r.corr = false ∧ rest = [] ∧ c.replay = none ∧ c.fld F.MIR_STAT.RPACT = 0 ∨
            (r.corr = true ∨ rest ≠ []) ∧ ∃ b f, c.replay = some { r with base := b, foc := f, reruns := rest, running := false }))) ∧
      (r.cb + 2 * 655360 ≤ now → r.reruns ≠ [] → Yields .replayDeadline s (TimedOut s)) ∧
      (now < r.cb + 2 * 655360 ∨ r.reruns = [] → Leaves .replayDeadline s [] s.core))

/-- R332, R333, R337: DSTCMP restarts Distaff; MIR_INJ injects one fault, with its key and in service mode only. -/
def Sys2Proof.Claims.DistaffDisagreementAndInjection : Prop :=
  ∀ (s : State) (w : Word), s.core.coreOn = true →
    let pair := bits w 11 8
    let ok := bits w 31 16 = 0x4D49 ∧ bits w 0 0 = 1 ∧ s.core.fld F.SVC_STAT.SVCMODE ≠ 0 ∧ pair ≤ 9
    let u := fun (m : MirSt) => ({ s.core with mir := m } : Core)
    Yields .dstcmp s (DistaffRestarts s false) ∧
    (¬ ok ∨ bits w 5 4 = 3 → Leaves (.mirInj w) s [] s.core) ∧
    (ok → bits w 5 4 = 0 → Leaves (.mirInj w) s [] (u { s.core.mir with inj := some (pair, 1) })) ∧
    (ok → bits w 5 4 = 1 → Leaves (.mirInj w) s [] (u { s.core.mir with injOut := some pair })) ∧
    (ok → bits w 5 4 = 2 → Yields (.mirInj w) s (DistaffRestarts s true))

/-- R315, R334, R335, R396: the scrubber counts what it corrects; an uncorrectable error is a lockstep fault of its pair, takes its staged
doubleword or entry out of its commit, restarts Distaff cold, turns the patch comparators off, zeroes its queue entry, or is reported
alone, by the memory it lies in. Which entry it meets is the model's operand. -/
def Sys2Proof.Claims.ScrubberErrors : Prop :=
  ∀ (s : State) (row : Fin 16) (pair : Fin 12) (alt : Bool) (n : Nat), s.core.coreOn = true →
    let counted := [(F.MIR_ECC.UNCORR, min 255 (s.core.fld F.MIR_ECC.UNCORR + 1)), (F.MIR_ECC.MEM, row.val), (F.MIR_IRQ.ECCU, 1)]
    let p := s.core.plan
    let plan := fun (q : PlanSt) => ({ s.core with plan := q } : Core)
    let lpe := fun (l : LpeSt) => ({ s.core with lpe := l } : Core)
    let cut := fun (l : List Nat) => l.filter (· != n)
    let fill := (s.core.fld F.PLAN_OWR.OWR + 4096 - s.core.fld F.PLAN_ORD.ORD) % 4096
    let entry := 0x310D0000 + 40 * ((s.core.fld F.PLAN_ORD.ORD + n) % 4096)
    Leaves (.scrub row pair false alt n) s [(F.MIR_ECC.CORR, min 65535 (s.core.fld F.MIR_ECC.CORR + 1))] s.core ∧
    (row = 3 → alt = true → Leaves (.scrub row pair true alt n) s (counted ++ [(F.SYS_PATCH.LOST, 1), (F.SYS_PATCH.NSLOT, 0)])
      { s.core with dst := { s.core.dst with patches := [] } }) ∧
    (row ≠ 1 → row ≠ 2 → row ≠ 3 → row ≠ 7 → Leaves (.scrub row pair true alt n) s counted s.core) ∧
    (row = 2 →
      (pair = 0 → Leaves (.scrub row pair true alt n) s counted (plan { p with dirty := cut p.dirty })) ∧
      (pair = 1 → Leaves (.scrub row pair true alt n) s counted (plan { p with hankChg := cut p.hankChg })) ∧
      (pair = 2 → Leaves (.scrub row pair true alt n) s counted (plan { p with plyChg := cut p.plyChg })) ∧
      (pair = 3 → Leaves (.scrub row pair true alt n) s counted (plan { p with coefChg := cut p.coefChg })) ∧
      (pair = 4 → Leaves (.scrub row pair true alt n) s counted (plan { p with lifeChg := cut p.lifeChg })) ∧
      (4 < pair.val → Leaves (.scrub row pair true alt n) s counted s.core)) ∧
    (row = 7 →
      (pair = 0 → Yields (.scrub row pair true alt n) s fun c => FieldsSet counted s.core c ∧
        c = { s.core with regs := c.regs, mem := c.mem } ∧ ∀ a, c.mem.read a =
          if n < fill ∧ entry ≤ a ∧ a < entry + 40 then 0 else s.core.mem.read a) ∧
      (pair = 1 → Leaves (.scrub row pair true alt n) s counted (lpe { s.core.lpe with evq := s.core.lpe.evq.set n (0, 0) })) ∧
      (pair = 2 → Leaves (.scrub row pair true alt n) s counted (lpe { s.core.lpe with symq := s.core.lpe.symq.set n (0, 0) })) ∧
      (pair = 3 → Leaves (.scrub row pair true alt n) s counted
        (plan { p with doneFifo := p.doneFifo.modify n fun e => (16, e.2.1, e.2.2) })) ∧
      (3 < pair.val → Leaves (.scrub row pair true alt n) s counted s.core)) ∧
    (row = 1 → Yields (.scrub row pair true alt n) s fun c => FaultOf s (if alt then 4 else 5) pair.val (if n ≤ 2 then n else 0) false c ∧
      c.mir.lost = true ∧
      c.fld F.MIR_STAT.SUPP = 1 ∧ c.fld F.MIR_STAT.REC = 1 ∧ c.fld F.MIR_IRQ.ECCU = 1 ∧ c.fld F.MIR_ECC.MEM = 1 ∧
      c = { s.core with regs := c.regs, mir := c.mir, links := c.links, plan := { p with recs := [] } }) ∧
    (row = 3 → alt = false → Yields (.scrub row pair true alt n) s fun c => ColdRestart (655360 * s.clk.epoch + s.clk.fc) c ∧
      c.fld F.MIR_IRQ.ECCU = 1 ∧ c.fld F.MIR_ECC.MEM = 3 ∧ c = { s.core with regs := c.regs, mir := c.mir, links := c.links })

/-- Distaff's disagreement, injection, and the scrubber. Commands that complete here, `exec` answering the next state told under
conditions on the state and the operands alone: mirInj, scrub, dstcmp. -/
def Obligations.DistaffFaultsAndScrubbing : Prop := Claims.DistaffDisagreementAndInjection ∧ Claims.ScrubberErrors

/-! ### Power states and supplies -/

namespace Sys2Proof.Claims
open Sys2Proof.Machine

/-- A register of the Whorl block. -/
def InWhorl (a : Nat) : Prop := 0x4000B000 ≤ a ∧ a < 0x4000B100

/-- A register of Whorl or of the always-on domain: the power controller and the strap latches (R11). -/
def InWhorlOrAlwaysOn (a : Nat) : Prop := InWhorl a ∨ 0x4000A000 ≤ a ∧ a < 0x4000A100 ∨ a = R.SET_STRAP

/-- The core-side copies of the Whorl registers, which read the values in force once the core starts (R372). -/
def whorlCopies (w : WhlSt) : List (Nat × Nat) :=
  [(R.WHL_DAYPHASE, w.phase), (R.WHL_CFG, w.lbth), (R.WHL_CHG, w.chg), (R.WHL_OFFSET, unsignedOf 16 w.offset),
    (R.WHL_CORR, unsignedOf 32 w.k), (R.WHL_ACC, unsignedOf 32 w.acc)]

/-- Every domain but those that `keep` names has been reset (R345, R347, R368): time starts again; the registers named keep their values but
for those in `as` and the copies; NVM, backup RAM, fuses and the Whorl domain stay; everything else is as in `u`, the device after a reset. -/
def Restarted (s : State) (keep : Nat → Prop) (as : List Nat) (u : Core) (t : State) : Prop :=
  let copies := whorlCopies s.core.whl
  t.pending = s.pending ∧ t.held = [] ∧ t.clk = { epoch := 0, fc := 0 } ∧
  (∀ a, a ∉ R.WHL_STAT :: as → a ∉ copies.map (·.1) → (keep a → t.core.reg a = s.core.reg a) ∧ (¬ keep a → t.core.reg a = coreReset.reg a)) ∧
  (∀ x ∈ copies, t.core.reg x.1 = BitVec.ofNat 32 x.2) ∧ t.core.fld F.WHL_STAT.WPEND = 0 ∧
  (∀ b, t.core.mem.read b = if 0x20000000 ≤ b ∧ b < 0x20400000 ∨ 0x4000B100 ≤ b ∧ b < 0x4000B200 then s.core.mem.read b
    else memDefault b) ∧
  t.core = { u with regs := t.core.regs, mem := t.core.mem }

/-- The device after a reset, with what a reset does not reach. -/
def resetKeeping (c : Core) : Core :=
  { coreReset with whl := { c.whl with pend := [] }, otp := c.otp, svc := { coreReset.svc with pins := c.svc.pins }, free := c.free }

/-- One of the comparators of PWR_SUPSTAT, and its interrupt where it changes (R345). -/
def supplyFields (c : Core) (rail : Nat) (good : Bool) : List (Fld × Nat) :=
  let v := c.fld F.PWR_SUPSTAT.OK
  if bitOf v rail = good then []
  else [(F.PWR_SUPSTAT.OK, if good then v ||| 2 ^ rail else v &&& (127 - 2 ^ rail)), (F.PWR_IRQ.SUPPLY, 1)]

/-- Activity (R354, R356): PWR_IDLECNT restarts, and DOZE ends at the first boundary at least 200 µs ahead. -/
def active (s : State) : Core :=
  let leave := if 131072 ≤ 655360 - s.clk.fc then s.clk.epoch + 1 else s.clk.epoch + 2
  { s.core with pwr := { s.core.pwr with
      actAt := 655360 * s.clk.epoch + s.clk.fc,
      dozeExit := if s.core.fld F.PWR_STAT.STATE = 2 ∧ s.core.pwr.dozeExit = none then some leave else s.core.pwr.dozeExit } }

/-- PER and DOZEON in their ranges, and COASTLIM over the off phase (R354, R367). -/
def DozeFits (c : Core) : Prop :=
  let per := c.fld F.PWR_DOZECFG.PER
  let on := c.fld F.PWR_DOZECFG.DOZEON
  5 ≤ on ∧ on ≤ 100 ∧ 100 ≤ per ∧ per ≤ 10000 ∧ on < per ∧ per - on ≤ c.inForce F.FOC_LIM1.COASTLIM

/-- The codes that R367 gives the conditions of R354, tested in its order; 0 lets DOZE begin. -/
def dozeCode (c : Core) (code : Nat) : Prop :=
  let locked := c.fld F.PWR_CFG.DOZEEN = 0 ∨ c.fld F.SVC_STAT.SVCMODE ≠ 0
  let free := ¬ locked ∧ c.hot.foc.state = 3 ∧ c.plan.jobs = []
  let idle := free ∧ c.fld F.BOB_SNAP_STAT.STATE = 0 ∧ c.fld F.PLAN_STAT.STATE = 0
  (code = 1 ∧ locked) ∨ (code = 2 ∧ ¬ locked ∧ c.hot.foc.state ≠ 3) ∨
  (code = 3 ∧ ¬ locked ∧ c.hot.foc.state = 3 ∧ c.plan.jobs ≠ []) ∨ (code = 4 ∧ free ∧ c.fld F.BOB_SNAP_STAT.STATE ≠ 0) ∨
  (code = 5 ∧ free ∧ c.fld F.BOB_SNAP_STAT.STATE = 0 ∧ c.fld F.PLAN_STAT.STATE ≠ 0) ∨ (code = 6 ∧ idle ∧ ¬ DozeFits c) ∨
  (code = 0 ∧ idle ∧ DozeFits c)

/-- A command that asks for DOZE, `u` being the device it finds: refused with its code, or obeyed; only RUN and TRIM hear it. -/
def AsksDoze (i : Instr) (s : State) (u : Core) : Prop :=
  let st := s.core.fld F.PWR_STAT.STATE
  (st ≠ 0 → st ≠ 1 → Leaves i s [] u) ∧
  (st = 0 ∨ st = 1 → ∀ code, dozeCode s.core code →
    (code ≠ 0 → Leaves i s [(F.PWR_STAT.RCODE, code), (F.PWR_STAT.REFUSED, 1), (F.PWR_IRQ.REFUSED, 1)] u) ∧
    (code = 0 → Leaves i s [(F.PWR_STAT.STATE, 2), (F.PWR_IRQ.STATE, 1)]
      { u with pwr := { u.pwr with dozeAt := s.clk.epoch, offAt := 0, dozeExit := none, projected := false } }))

/-- A command that asks for HIBERNATE (R358): every held job ends, and each open session is told once NVM is idle. -/
def AsksHib (i : Instr) (s : State) (u : Core) : Prop :=
  let st := s.core.fld F.PWR_STAT.STATE
  let locked := s.core.fld F.PWR_CFG.HIBEN = 0 ∨ s.core.fld F.SVC_STAT.SVCMODE ≠ 0
  let busy := 1 < s.core.fld F.BOB_SNAP_STAT.STATE
  let refused := fun code => Leaves i s [(F.PWR_STAT.RCODE, code), (F.PWR_STAT.REFUSED, 1), (F.PWR_IRQ.REFUSED, 1)] u
  (2 < st → Leaves i s [] u) ∧ (st ≤ 2 → locked → refused 1) ∧ (st ≤ 2 → ¬ locked → busy → refused 4) ∧
  (st ≤ 2 → ¬ locked → ¬ busy → Yields i s fun c =>
    let idle := s.core.nvm.queue.isEmpty && s.core.nvm.ops.isEmpty && s.core.nvm.compactTo.isNone
    let told := s.core.pwr.hib == 0 && idle
    c.pwr = { u.pwr with hib := if told then 2 else max 1 u.pwr.hib } ∧
    (∀ a, a ∉ [R.PLAN_IRQ, R.PLAN_JQ_STAT, R.BOB_SNAP_STAT, R.PRM_IRQ, R.PRM_STAT] → c.reg a = s.core.reg a) ∧
    c.plan.jobs.map (·.tag) = s.core.plan.jobs.map (·.tag) ∧
    (s.core.plan.jobs = [] → c.plan = s.core.plan ∧ c.mem = s.core.mem ∧ c.regs = s.core.regs) ∧
    (∀ j, s.core.plan.jobs = [j] → j.live = true → ∀ k ∈ c.plan.jobs, k.phase = .done JobStatus.aborted.code) ∧
    c.links = vecMap s.core.links (fun l => if l.opened && told then
      { l with notices := l.notices ++ [(1, leBytes 8 (s.core.reg R.PWR_WAKEEN).toNat)] } else l))

/-- What PWR_IDLECNT reads (R356): whole seconds since the last activity. -/
def idleSeconds (s : State) : Nat := min 0xFFFFFFFF ((655360 * s.clk.epoch + s.clk.fc - s.core.pwr.actAt) / 655360000)

end Sys2Proof.Claims

/-- R11, R345 to R347, R372, R490: VMAIN lost puts the device in BACKUP from any state, VCORE, VPLL and RST_N reset it, and VMAIN's return
resets it out of BACKUP; each leaves Whorl as it is, but for writes that had not reached it, and VCORE and VPLL leave the always-on domain
too. HIBERNATE does not watch VCORE and VPLL. -/
def Sys2Proof.Claims.ResetsKeepWhorl : Prop :=
  ∀ s : State,
    let vbat := s.core.fld F.WHL_STAT.SRC ≠ 0
    let r := resetKeeping s.core
    let moved := [R.WHL_TRUST, R.WHL_IRQ, R.PWR_SUPSTAT, R.PWR_RSTCAUSE]
    let rail : Core := { r with pwr := { PwrSt.reset with tick := s.core.pwr.tick } }
    (vbat → exec .vmainLow s = .next s) ∧
    (¬ vbat → ∃ t, exec .vmainLow s = .next t ∧
      Restarted s InWhorl (R.PWR_STAT :: moved)
        { r with pwr := { r.pwr with coreEn := false }, bob := { r.bob with fePwr := List.replicate 4 false } } t ∧
      t.core.fld F.PWR_STAT.STATE = 5 ∧ t.core.fld F.PWR_RSTCAUSE.CAUSE = s.core.fld F.PWR_RSTCAUSE.CAUSE ∧
      t.core.fld F.WHL_STAT.SRC = 1 ∧ t.core.fld F.WHL_TRUST.SWO = 1 ∧ bitOf (t.core.fld F.PWR_SUPSTAT.OK) 0 = false) ∧
    (¬ vbat → exec .vmainReturn s = .next s) ∧
    (vbat → ∃ t, exec .vmainReturn s = .next t ∧ Restarted s InWhorl moved r t ∧ t.core.fld F.PWR_RSTCAUSE.CAUSE = 2 ∧
      t.core.fld F.WHL_STAT.SRC = 0 ∧ t.core.fld F.WHL_TRUST.SWO = 1 ∧ bitOf (t.core.fld F.PWR_SUPSTAT.OK) 0 = true) ∧
    (vbat → exec .rstNAssert s = .next s) ∧
    (¬ vbat → ∃ t, exec .rstNAssert s = .next t ∧ Restarted s InWhorl [R.PWR_SUPSTAT, R.PWR_RSTCAUSE] r t ∧
      t.core.reg R.PWR_SUPSTAT = s.core.reg R.PWR_SUPSTAT ∧ t.core.fld F.PWR_RSTCAUSE.CAUSE = 1) ∧
    ∀ x ∈ [((.vcoreLow : Instr), 1, 3), (.vpllLow, 2, 4)],
      (vbat ∨ s.core.fld F.PWR_STAT.STATE = 4 → exec x.1 s = .next s) ∧
      (¬ vbat → s.core.fld F.PWR_STAT.STATE ≠ 4 → ∃ t, exec x.1 s = .next t ∧
        Restarted s InWhorlOrAlwaysOn [R.PWR_SUPSTAT, R.PWR_IRQ, R.PWR_STAT, R.PWR_RSTCAUSE] rail t ∧ t.core.fld F.PWR_STAT.STATE = 0 ∧
        bitOf (t.core.fld F.PWR_SUPSTAT.OK) x.2.1 = false ∧ t.core.fld F.PWR_RSTCAUSE.CAUSE = x.2.2)

/-- R345, R462: the other rails show in PWR_SUPSTAT; a bank that loses its supply loses its overrides. -/
def Sys2Proof.Claims.SupplyMonitors : Prop :=
  ∀ (s : State) (b : Bool) (rail : Fin 7),
    LeavesAlways .vsampLow s (supplyFields s.core 3 false) s.core ∧
    (let n := if b then 5 else 4
     ∃ c, exec (.vioLow b) s = .next (s.put c) ∧ bitOf (c.fld F.PWR_SUPSTAT.OK) n = false ∧
      c.pinOver = s.core.pinOver.filter (fun o => pinBank o.1 ≠ some n) ∧ RegsBut [R.PWR_SUPSTAT, R.PWR_IRQ, R.SVC_STAT] s.core c ∧
      c = { s.core with regs := c.regs, pinOver := c.pinOver }) ∧
    LeavesAlways (.supplyReturn rail) s (if rail = 0 then [] else supplyFields s.core rail.val true) s.core

/-- Resets, and the supply monitors. Commands that complete here, `exec` answering the next state told under conditions on the state and
the operands alone: vioLow, supplyReturn, vmainLow, vmainReturn, vcoreLow, vpllLow, vsampLow, rstNAssert. -/
def Obligations.ResetsAndSupplies : Prop := Claims.ResetsKeepWhorl ∧ Claims.SupplyMonitors

/-- R354, R356, R358: PWR_CTRL and the idle timers. A write of PWR_CTRL is activity itself. -/
def Sys2Proof.Claims.PowerCommandsAndIdleTimers : Prop :=
  ∀ s : State, s.core.coreOn = true →
    let dl := (s.core.reg R.PWR_DOZEIDLE).toNat
    let hl := (s.core.reg R.PWR_HIBIDLE).toNat
    let svc := s.core.fld F.SVC_STAT.SVCMODE ≠ 0
    let dozeUp := dl ≠ 0 ∧ dl ≤ idleSeconds s ∧ ¬ svc
    let hibUp := hl ≠ 0 ∧ hl ≤ idleSeconds s ∧ ¬ svc ∧ s.core.plan.jobs = []
    Leaves .pwrRun s [] (active s) ∧ Leaves .wakeNFallingEdge s [] (active s) ∧
    AsksDoze .pwrDoze s (active s) ∧ AsksHib .pwrHib s (active s) ∧
    (dozeUp → AsksDoze .dozeIdleExpiry s s.core) ∧ (¬ dozeUp → Leaves .dozeIdleExpiry s [] s.core) ∧
    (hibUp → AsksHib .hibIdleExpiry s s.core) ∧ (¬ hibUp → Leaves .hibIdleExpiry s [] s.core)

/-- R351, R352, R354: the burst, the off phase and the exit of DOZE. -/
def Sys2Proof.Claims.DozePhases : Prop :=
  ∀ s : State, s.core.coreOn = true →
    let p := s.core.pwr
    let at_ := fun e => (e - p.dozeAt) % max 1 (s.core.fld F.PWR_DOZECFG.PER)
    let doze := s.core.fld F.PWR_STAT.STATE = 2
    let off := s.core.fld F.PWR_STAT.OFFPH ≠ 0
    let leaves := fun e => doze ∧ ∃ x, p.dozeExit = some x ∧ x ≤ e
    let next := s.clk.epoch + 1
    let burst := off ∧ (leaves next ∨ doze ∧ at_ next = 0) ∧ 327680 ≤ s.clk.fc
    let sleep := doze ∧ ¬ off ∧ ¬ leaves s.clk.epoch ∧ s.core.fld F.PWR_DOZECFG.DOZEON ≤ at_ s.clk.epoch
    let exit_ := leaves s.clk.epoch ∧ ¬ off
    (¬ burst ∨ p.projected = true → Leaves .dozeBurstStart s [] s.core) ∧
    (burst → p.projected = false → Yields .dozeBurstStart s fun c => c.pwr = { p with projected := true } ∧
      (∀ x ∈ c.hot.plies, x.2.resumed = true) ∧ c.regs = s.core.regs ∧ c = { s.core with hot := c.hot, pwr := c.pwr }) ∧
    (¬ sleep → Leaves .dozeOffPhase s [] s.core) ∧
    (sleep → Leaves .dozeOffPhase s [(F.PWR_STAT.OFFPH, 1)]
      { s.core with hot := { s.core.hot with strands := s.core.hot.strands.map fun x => (x.1, x.2.newWindow) }
                    pwr := { p with offAt := s.clk.epoch, projected := false } }) ∧
    (¬ exit_ → Leaves .dozeExit s [] s.core) ∧
    (exit_ → Leaves .dozeExit s [(F.PWR_STAT.STATE, if s.core.fld F.FAB_SKSTAT.USED = 255 then 0 else 1), (F.PWR_IRQ.STATE, 1)]
      { s.core with pwr := { p with dozeExit := none } })

/-- The power commands, the idle timers, and the phases of DOZE. Commands that complete here, `exec` answering the next state told under
conditions on the state and the operands alone: pwrDoze, pwrRun, pwrHib, dozeIdleExpiry, hibIdleExpiry, dozeBurstStart, dozeOffPhase,
dozeExit, wakeNFallingEdge. -/
def Obligations.PowerCommandsAndDoze : Prop := Claims.PowerCommandsAndIdleTimers ∧ Claims.DozePhases

/-- R358 to R364: HIBERNATE is entered once NVM is idle and keeps Whorl, NVM, the sessions, the sample index and the state of Flywheel; an
enabled wake source cancels an entry under way or restarts the device, which still holds that state when start-up begins. Commands that
complete here, `exec` answering the next state told under conditions on the state and the operands alone: wake, hibernateSave. -/
def Obligations.HibernateAndWake : Prop :=
  (∀ s : State,
    let ready := s.core.pwr.hib = 3 ∧ s.core.nvm.queue = [] ∧ s.core.nvm.ops = [] ∧ s.core.nvm.compactTo = none
    (¬ ready → exec .hibernateSave s = .next s) ∧
    (ready → ∃ t, exec .hibernateSave s = .next t ∧ t.pending = s.pending ∧ t.held = [] ∧ t.clk = s.clk ∧
      t.core.fld F.PWR_STAT.STATE = 4 ∧ t.core.fld F.FLY_STAT.STATE = s.core.fld F.FLY_STAT.STATE ∧
      (∃ v, t.core.saved = some v ∧ v.tick = s.core.whl.count ∧ v.sidx = s.clk.sidx) ∧
      t.core.pwr.coreEn = decide (s.core.fld F.PWR_CFG.COREOFF = 0) ∧ t.core.bob.fePwr = List.replicate 4 false ∧
      t.core.whl = { s.core.whl with pend := [] } ∧ t.core.otp = s.core.otp ∧ (∀ l : Fin 3, t.core.links[l].opened = s.core.links[l].opened) ∧
      t.core.hot = Hot.reset ∧ t.core.plan = PlanSt.reset ∧
      ∀ b, 0x20000000 ≤ b → b < 0x20400000 → t.core.mem.read b = s.core.mem.read b)) ∧
  ∀ (s : State) (mask : BitVec 6) (env : BootEnv) (wait : Nat) (fail : Bool),
    let tick := if s.core.pwr.tick = some s.core.whl.count then 32 else 0
    let src := (mask.toNat &&& (31 + tick)) &&& s.core.fld F.PWR_WAKEEN.SRC
    let go := exec (.wake mask env wait fail) s
    let sleeping := s.core.fld F.PWR_STAT.STATE = 4
    (src = 0 → go = .next s) ∧
    (src ≠ 0 → ¬ sleeping → s.core.pwr.hib = 0 → go = .next s) ∧
    (src ≠ 0 → ¬ sleeping → s.core.pwr.hib ≠ 0 → ∃ t, go = .next t ∧ t = { s with core := { s.core with pwr := { s.core.pwr with hib := 0 } } }) ∧
    (src ≠ 0 → sleeping → s.core.saved = none → go = .next s) ∧
    ∀ v, src ≠ 0 → sleeping → s.core.saved = some v →
      (fail = true → ∃ c : Core, go = .next (s.began (c.bootRun env)) ∧ c.fld F.PWR_RSTCAUSE.CAUSE = 5 ∧
        c.whl = { s.core.whl with pend := [] } ∧ c.fld F.FLY_STAT.STATE = 0 ∧ c.pwr = { PwrSt.reset with tick := s.core.pwr.tick } ∧
        c.saved = none) ∧
      (fail = false → ∃ c : Core, go = .next (s.began (c.bootRun env)) ∧ c.fld F.PWR_STAT.STATE = 0 ∧ c.fld F.PWR_RSTCAUSE.CAUSE = 6 ∧
        c.fld F.PWR_WAKE.SRC = src % 64 ∧ c.fld F.PWR_IRQ.WAKE = 1 ∧ c.pwr.coreEn = true ∧ c.whl = s.core.whl ∧
        c.saved = some v ∧ c.boot.wait = max 1 wait ∧ c.fld F.FLY_STAT.STATE = s.core.fld F.FLY_STAT.STATE)

/-- R350, R366: an island that becomes ready is powered; RUN-high follows the die temperature, with 5 °C of hysteresis. Commands that
complete here, `exec` answering the next state told under conditions on the state and the operands alone: biasChange, islandReady. -/
def Obligations.IslandsAndBias : Prop :=
  ∀ (s : State) (k : Nat) (r : List Nat) (temp : Int), s.core.coreOn = true →
    let st := s.core.fld F.PWR_STAT.STATE
    let was := s.core.fld F.PWR_STAT.RUNHI
    let high := if 1 < st then 0 else if s.core.fld F.PWR_CFG.BBMODE = 1 then 1 else if temp < 0 then 1 else if 500 < temp then 0 else was
    (s.core.pwr.powering = [] → Leaves .islandReady s [] s.core) ∧
    (s.core.pwr.powering = k :: r → k < 8 → Leaves .islandReady s [(F.FAB_SKSTAT.PWR, s.core.fld F.FAB_SKSTAT.PWR ||| 2 ^ k)]
      { s.core with pwr := { s.core.pwr with powering := r } }) ∧
    (high = was → Leaves (.biasChange temp) s [] s.core) ∧
    (high ≠ was → Leaves (.biasChange temp) s [(F.PWR_STAT.RUNHI, high), (F.PWR_IRQ.BIAS, 1)] s.core)

/-! ### UARTs and QSPI -/

namespace Sys2Proof.Claims
open Sys2Proof.Machine

/-- UARTn_STAT's counts as they follow a UART's state (R418, R422, R424). -/
def uartShown (n : Nat) (u : UartSt) : List (Fld × Nat) :=
  [(F.UART_STAT.TXCNT n, u.tx.length), (F.UART_STAT.RXCNT n, u.rx.length), (F.UART_STAT.RATEPEND n, if u.rxPend || u.txPend then 1 else 0),
    (F.UART_STAT.TXBUSY n, if u.shift.isSome then 1 else 0)]

/-- A command on UART `n` that sets these fields and leaves the UART at `u`. -/
def UartLeaves (i : Instr) (s : State) (n : Nat) (ps : List (Fld × Nat)) (u : UartSt) : Prop :=
  Leaves i s (uartShown n u ++ ps) { s.core with uarts := putAt s.core.uarts n u }

/-- The rate is one that the clock in use does not serve (R417): the fast oscillator, above 230,400 baud. -/
def rateWaits (c : Core) (n r : Nat) : Prop := c.fld (F.UART_STAT.CLKSRC n) ≠ 0 ∧ 230400 < r

/-- The entry of a sampled character (R421, R422): its bits, 7 or 8, with PE, FE and BRK. -/
def entryOf (c : Core) (n : Nat) (x : LineSample) : Nat :=
  let cfg := c.reg (R.UART_CFG n)
  let ch := if cfg.getLsbD 1 then x.data.toNat % 128 else x.data.toNat
  let par := bits cfg 3 2
  let ones := ((List.range 8).filter ch.testBit).length + (if x.parity then 1 else 0)
  let pe := par = 1 ∧ ones % 2 = 1 ∨ par = 2 ∧ ones % 2 = 0
  let brk := x.stop = false ∧ ch = 0 ∧ (par = 0 ∨ x.parity = false)
  ch + (if pe then 256 else 0) + (if x.stop then 0 else 512) + if brk then 1024 else 0

/-- A function of the QSPI slave (R429, R430): nothing while it is disabled, counted and ignored where the lane bits break the rule,
and otherwise as `P` says. -/
def QspiFunction (i : Fin 4 → Instr) (P : State → Core → Prop) : Prop :=
  ∀ (s : State) (lanes : Fin 4), s.core.coreOn = true →
    let bad := lanes = 3 ∨ s.core.fld F.QSP_FLAGS.QPI ≠ 0 ∧ lanes ≠ 2
    (s.core.fld F.QSP_CFG.EN = 0 → Leaves (i lanes) s [] s.core) ∧
    (s.core.fld F.QSP_CFG.EN ≠ 0 → bad → Leaves (i lanes) s
      [(F.QSP_CNT.BADCMD, min 65535 (s.core.fld F.QSP_CNT.BADCMD + 1)), (F.QSP_IRQ.BADCMD, 1)] s.core) ∧
    (s.core.fld F.QSP_CFG.EN ≠ 0 → ¬ bad → Yields (i lanes) s (P s))

/-- What a read function drives: its bytes, or 0xFF in each while the interface is not ready (R431). -/
def Drives (c0 : Core) (bs : List Byte) (c : Core) : Prop :=
  c.qsp.resp = if c0.fld F.QSP_FLAGS.READY ≠ 0 then bs else List.replicate bs.length 0xFF#8

/-- Nothing but the bytes driven changes. -/
def OnlyDrives (c0 : Core) (c : Core) : Prop := c = { c0 with qsp := { c0.qsp with resp := c.qsp.resp } }

/-- The code of a window request that does nothing (R433), 0 for one that starts. -/
def windowCode (c : Core) (addr : Word) (len : BitVec 16) (rsv : Bool) : Nat :=
  if c.fld F.QSP_FLAGS.WBUSY ≠ 0 then 2 else if rsv then 3
  else if addr.toNat % 4 ≠ 0 ∨ len.toNat % 4 ≠ 0 ∨ len.toNat < 4 ∨ 4096 < len.toNat then 1 else 0

/-- A window request (R433, R434): refused with its code, BUSY leaving the running operation as it is, or started. -/
def WindowRequest (i : Fin 4 → Instr) (addr : Word) (len : BitVec 16) (rsv : Bool) (starts : State → Core → Prop) : Prop :=
  QspiFunction i fun s c =>
    let code := windowCode s.core addr len rsv
    (s.core.fld F.QSP_FLAGS.READY = 0 → c = s.core) ∧
    (s.core.fld F.QSP_FLAGS.READY ≠ 0 → code ≠ 0 →
      FieldsSet ([(F.QSP_FLAGS.WCODE, code), (F.QSP_FLAGS.WERR, 1)] ++
        if code = 2 then [] else [(F.QSP_FLAGS.WDONE, 1), (F.QSP_IRQ.WOP, 1)]) s.core c ∧ c = { s.core with regs := c.regs }) ∧
    (s.core.fld F.QSP_FLAGS.READY ≠ 0 → code = 0 → starts s c)

end Sys2Proof.Claims

/-- R418, R422 to R424: writes of the UART registers. A rate or framing outside its range is discarded with BADW; a FIFO of 64 takes a
character or refuses it with TXOVF; once SCLK_OUT runs, PLL-B lock moves the UARTs to the Distaff clock (R20). -/
def Sys2Proof.Claims.UartWrites : Prop :=
  (∀ (s : State) (n : Fin 2) (w : Word) (b : Byte), s.core.coreOn = true →
    let u := s.core.uart n
    let r := bits w 22 0
    let badRate := r < 1200 ∨ (if n = 0 then 6000000 else 921600) < r
    let thr := s.core.fld (F.UART_FIFOCTL.TXTHR n)
    (badRate → Leaves (.uartRateWrite n w) s [(F.UART_STAT.BADW n, 1)] s.core) ∧
    (¬ badRate → ∀ waits, (waits = 1 ↔ rateWaits s.core n r) → waits < 2 →
      UartLeaves (.uartRateWrite n w) s n [(F.UART_RATE.RATE n, r), (F.UART_STAT.CLKWAIT n, waits)]
        { u with rxPend := true, txPend := true }) ∧
    (bits w 3 2 = 3 → Leaves (.uartCfgWrite n w) s [(F.UART_STAT.BADW n, 1)] s.core) ∧
    (bits w 3 2 ≠ 3 → UartLeaves (.uartCfgWrite n w) s n [(⟨R.UART_CFG n, 31, 0⟩, w.toNat % 64)]
      { u with rxPend := true, txPend := true }) ∧
    (u.tx.length < 64 → UartLeaves (.uartDataWrite n b) s n [] { u with tx := u.tx ++ [b] }) ∧
    (64 ≤ u.tx.length → Leaves (.uartDataWrite n b) s [(F.UART_STAT.TXOVF n, 1), (F.UART_IRQ.TXOVF n, 1)] s.core) ∧
    UartLeaves (.txflush n) s n (if thr < u.tx.length then [(F.UART_IRQ.TXTHR n, 1)] else []) { u with tx := [] } ∧
    UartLeaves (.rxflush n) s n [] { u with rx := [] } ∧
    Leaves (.rxTimeout n) s (if s.core.fld (F.UART_TOUT.CHARS n) ≠ 0 ∧ u.rx ≠ [] then [(F.UART_IRQ.TOUT n, 1)] else []) s.core) ∧
  ∀ s : State, s.core.coreOn = true → Leaves .pllLock s (if s.core.bob.sclk then
    [(F.UART_STAT.CLKSRC 0, 0), (F.UART_STAT.CLKWAIT 0, 0), (F.UART_STAT.CLKSRC 1, 0), (F.UART_STAT.CLKWAIT 1, 0)] else []) s.core

/-- R417, R419 to R424, R426: a character received, sent, taken, or kept by the wake receiver. A full FIFO keeps its older entries; a start
bit that is not held is a glitch. A character on UART1 is activity (R356). -/
def Sys2Proof.Claims.UartCharacters : Prop :=
  ∀ (s : State) (n : Fin 2) (x : LineSample),
    let u := s.core.uart n
    let rate := s.core.fld (F.UART_RATE.RATE n)
    let idle := s.core.fld (F.UART_CFG.EN n) = 0 ∨ rateWaits s.core n rate
    let deaf := idle ∨ s.core.fld (F.UART_CFG.LOOP n) ≠ 0
    let e := entryOf s.core n x
    let send := fun (i : Instr) => ∀ (b : Byte) (r : List Byte), s.core.coreOn = true →
      (idle → Leaves i s [] s.core) ∧
      (¬ idle → s.core.fld (F.UART_CFG.LOOP n) = 0 →
        (u.shift = none → u.tx = [] → Leaves i s [] s.core) ∧
        (u.shift.isSome = true → u.tx = [] → UartLeaves i s n [(F.UART_IRQ.TXDONE n, 1)] { u with shift := none }) ∧
        (u.tx = b :: r → Yields i s fun c =>
          (c.uart n).shift = some b ∧ r <+: (c.uart n).tx ∧ (c.uart n).rx = u.rx ∧ c.fld (F.UART_RATEACT.RATE n) = rate ∧
          (s.core.fld (F.UART_FIFOCTL.TXTHR n) = r.length → c.fld (F.UART_IRQ.TXTHR n) = 1) ∧
          c = { s.core with regs := c.regs, uarts := c.uarts, links := c.links }))
    (s.core.coreOn = true → deaf → Leaves (.uartCharacterReceived n x) s [] s.core) ∧
    (s.core.coreOn = true → ¬ deaf → x.start = true → Yields (.uartCharacterReceived n x) s fun c =>
      (c.uart n).rx = u.rx ∧ c.fld (F.UART_GLITCH.COUNT n) = min 65535 (s.core.fld (F.UART_GLITCH.COUNT n) + 1) ∧
      c.fld (F.UART_IRQ.GLITCH n) = 1 ∧ c.pwr = s.core.pwr ∧ c = { s.core with regs := c.regs, uarts := c.uarts }) ∧
    (s.core.coreOn = true → ¬ deaf → x.start = false → Yields (.uartCharacterReceived n x) s fun c =>
      let full := 64 ≤ u.rx.length
      (¬ full → (c.uart n).rx = u.rx ++ [e]) ∧
      (full → (c.uart n).rx = u.rx.dropLast ++ [e] ∧ c.fld (F.UART_STAT.OVR n) = 1 ∧ c.fld (F.UART_IRQ.OVR n) = 1) ∧
      (bitOf e 8 = true → c.fld (F.UART_STAT.PE n) = 1) ∧ (bitOf e 9 = true → c.fld (F.UART_STAT.FE n) = 1) ∧
      (bitOf e 10 = true → c.fld (F.UART_STAT.BRK n) = 1) ∧ c.fld (F.UART_RATEACT.RATE n) = rate ∧
      c.pwr = (if n = 1 then (active s).pwr else s.core.pwr) ∧ c = { s.core with regs := c.regs, uarts := c.uarts, pwr := c.pwr }) ∧
    send (.uartTransmitCharacter n) ∧
    (s.core.coreOn = true → u.rx = [] → Reads (.uartDataRead n) s 0 fun c => c = { s.core with readData := c.readData }) ∧
    (∀ e r, s.core.coreOn = true → u.rx = e :: r → Reads (.uartDataRead n) s (BitVec.ofNat 32 (2 ^ 31 + e)) fun c =>
      (c.uart n).rx = r ∧ (n = 0 → e < 4096 → (c.link 0).rx = (s.core.link 0).rx ++ [BitVec.ofNat 8 e])) ∧
    let wakes := s.core.fld F.PWR_STAT.STATE = 4 ∧ bitOf (s.core.fld F.PWR_WAKEEN.SRC) n = true ∧ s.core.fld (F.UART_CFG.EN n) ≠ 0 ∧
      rate ≤ 230400
    let kept := fun (u' : UartSt) (ps : List (Fld × Nat)) =>
      LeavesAlways (.wakeCharacter n x) s ps { s.core with uarts := putAt s.core.uarts n u' }
    (¬ wakes → exec (.wakeCharacter n x) s = .next s) ∧
    (wakes → x.start = true → kept { u with glitches := u.glitches + 1 } []) ∧
    (wakes → x.start = false → u.wake.length < 32 → kept { u with wake := u.wake ++ [e + 2048] } []) ∧
    (wakes → x.start = false → 32 ≤ u.wake.length →
      kept { u with wake := u.wake.dropLast ++ [e + 2048] } [(F.UART_STAT.OVR n, 1), (F.UART_IRQ.OVR n, 1)])

/-- Writes of the UARTs, and their characters. Commands that complete here, `exec` answering the next state told under conditions on the
state and the operands alone: uartCharacterReceived, uartTransmitCharacter, uartDataWrite, uartDataRead, uartRateWrite, uartCfgWrite,
txflush, rxflush, rxTimeout, wakeCharacter, pllLock. -/
def Obligations.Uarts : Prop := Claims.UartWrites ∧ Claims.UartCharacters

/-- R429 to R432: the read and write functions of the QSPI slave but the window's operations. -/
def Sys2Proof.Claims.QspiStreamAndBuffer : Prop :=
  let ready := fun (s : State) => s.core.fld F.QSP_FLAGS.READY ≠ 0
  let sticky := [(F.QSP_FLAGS.OUTLOSS, 0), (F.QSP_FLAGS.INOVF, 0), (F.QSP_FLAGS.WDONE, 0), (F.QSP_FLAGS.WERR, 0)]
  (QspiFunction .rdsr fun s c =>
    (∃ b1, Drives s.core (leBytes 1 0x5A ++ leBytes 1 b1 ++ leBytes 2 s.core.qsp.out.length ++
        leBytes 2 (8192 - (s.core.link 1).rx.length) ++ leBytes 1 (s.core.fld F.QSP_FLAGS.WCODE) ++
        leBytes 1 (s.core.fld F.QSP_FLAGS.IMGCODE)) c ∧
      b1 = s.core.fld F.QSP_FLAGS.QPI + 2 * s.core.fld F.QSP_FLAGS.WBUSY + 4 * s.core.fld F.QSP_FLAGS.WDONE +
        8 * s.core.fld F.QSP_FLAGS.WERR + 16 * s.core.fld F.QSP_FLAGS.INOVF + 32 * s.core.fld F.QSP_FLAGS.OUTLOSS +
        64 * s.core.fld F.QSP_FLAGS.IMGDONE) ∧
    (ready s → FieldsSet sticky s.core c) ∧ (¬ ready s → c.regs = s.core.regs) ∧
    c = { s.core with regs := c.regs, qsp := { s.core.qsp with resp := c.qsp.resp } }) ∧
  (∀ n, QspiFunction (fun l => .rdstm l n) fun s c =>
    let k := min 65535 s.core.qsp.out.length
    let taken := s.core.qsp.out.take (min n k)
    Drives s.core (leBytes 2 k ++ taken ++ List.replicate (n - taken.length) 0) c ∧
    c = { s.core with qsp := { s.core.qsp with
      resp := c.qsp.resp, out := if ready s then s.core.qsp.out.drop taken.length else s.core.qsp.out,
      waited := if ready s then false else s.core.qsp.waited } }) ∧
  (∀ bs, QspiFunction (fun l => .wrstm l bs) fun s c =>
    let room := 8192 - (s.core.link 1).rx.length
    (¬ ready s → c = s.core) ∧
    (ready s → bs ≠ [] → bs.length ≤ room →
      (c.link 1).rx = (s.core.link 1).rx ++ bs ∧ (c.link 1).skip = false ∧ FieldsSet [(F.QSP_IRQ.INDATA, 1)] s.core c ∧
      c = { s.core with regs := c.regs, links := c.links }) ∧
    (ready s → room < bs.length → (c.link 1).skip = true ∧
      FieldsSet ((if room = 0 then [] else [(F.QSP_IRQ.INDATA, 1)]) ++ [(F.QSP_FLAGS.INOVF, 1), (F.QSP_IRQ.INOVF, 1)]) s.core c ∧
      c = { s.core with regs := c.regs, links := c.links })) ∧
  (∀ (ofs : BitVec 16) (n : Nat), QspiFunction (fun l => .rdwin l ofs n) fun s c =>
    Drives s.core ((List.range n).map fun i => if ofs.toNat + i < 4096 then s.core.qsp.win.read (ofs.toNat + i) else 0#8) c ∧
    OnlyDrives s.core c) ∧
  (∀ (ofs : BitVec 16) (bs : List Byte), QspiFunction (fun l => .wrwin l ofs bs) fun s c =>
    let busy := s.core.fld F.QSP_FLAGS.WBUSY ≠ 0
    (¬ ready s → c = s.core) ∧
    (ready s → busy → FieldsSet [(F.QSP_FLAGS.WCODE, 2), (F.QSP_FLAGS.WERR, 1)] s.core c ∧ c = { s.core with regs := c.regs }) ∧
    (ready s → ¬ busy → c = { s.core with qsp := { s.core.qsp with win := c.qsp.win } } ∧
      ∀ a, c.qsp.win.read a = if ofs.toNat ≤ a ∧ a < 4096 ∧ a < ofs.toNat + bs.length then bs.getD (a - ofs.toNat) 0
        else s.core.qsp.win.read a)) ∧
  (∀ (s : State) (lanes : Fin 4) (ofs : BitVec 16) (n : Nat), s.core.coreOn = false →
    ∀ x ∈ [((.rdsr lanes : Instr), 8), (.rdstm lanes n, 2 + n), (.rdwin lanes ofs n, n), (.rdid lanes, 4)],
      exec x.1 s = .next (s.put { s.core with qsp := { s.core.qsp with resp := List.replicate x.2 0xFF } })) ∧
  (QspiFunction .rdid fun s c => Drives s.core [0xB0#8, 0x00#8, 0x72#8, 0x94#8] c ∧ OnlyDrives s.core c) ∧
  (∀ p ∈ ([(.eqpi, [(F.QSP_FLAGS.QPI, 1)]), (.xqpi, [(F.QSP_FLAGS.QPI, 0)]), (.ifrst, (F.QSP_FLAGS.QPI, 0) :: sticky)] :
      List ((Fin 4 → Instr) × List (Fld × Nat))), QspiFunction p.1 fun s c =>
    (ready s → FieldsSet p.2 s.core c ∧ c = { s.core with regs := c.regs }) ∧ (¬ ready s → c = s.core)) ∧
  ∀ s : State, s.core.coreOn = true →
    Leaves .badcmd s (if s.core.fld F.QSP_CFG.EN = 0 then [] else
      [(F.QSP_CNT.BADCMD, min 65535 (s.core.fld F.QSP_CNT.BADCMD + 1)), (F.QSP_IRQ.BADCMD, 1)]) s.core ∧
    Leaves .outputByteWait s [] (if s.core.qsp.out = [] then s.core else { s.core with qsp := { s.core.qsp with waited := true } })

/-- R433, R434: window operations. A started one makes its accesses and stays busy up to its end, which sets WDONE with its code. -/
def Sys2Proof.Claims.QspiWindowOperations : Prop :=
  (∀ (addr : Word) (len : BitVec 16) (rsv : Bool) (bad : Nat),
    WindowRequest (fun l => .wsetupRead l addr len rsv bad) addr len rsv (fun _ c =>
      c.fld F.QSP_FLAGS.WBUSY = 1 ∧ c.readData.length = len.toNat / 4 ∧ c.qsp.win.words 0 (len.toNat / 4) = c.readData ∧
      ∃ code, c.qsp.op = some code ∧ (code = 0 ∨ code = 6)) ∧
    WindowRequest (fun l => .wsetupWrite l addr len rsv) addr len rsv (fun _ c =>
      c.fld F.QSP_FLAGS.WBUSY = 1 ∧ ∃ code, c.qsp.op = some code ∧ (code = 0 ∨ code = 6))) ∧
  ∀ s : State, s.core.coreOn = true →
    (∀ (lanes : Fin 4) (addr : Word) (len : BitVec 16) (rsv : Bool),
      let bad := lanes = 3 ∨ s.core.fld F.QSP_FLAGS.QPI ≠ 0 ∧ lanes ≠ 2
      let waits := s.core.qsp.awaiting = true
      let code := windowCode s.core addr len rsv
      let final := if code ≠ 0 then code else if waits then 4 else 5
      let go := exec (.wsetupImage lanes addr len rsv) s
      (∃ t, go = .next t ∧ t.pending = s.pending ∧ t.held = s.held) ∧
      (s.core.fld F.QSP_CFG.EN ≠ 0 → ¬ bad → s.core.fld F.QSP_FLAGS.READY ≠ 0 →
        (code ≠ 0 ∨ ¬ waits ∨ addr.toNat ≠ 0 ∧ addr.toNat ≠ s.core.qsp.image.length → ∃ t, go = .next t ∧
          t.core.fld F.QSP_FLAGS.WCODE = final ∧ t.core.fld F.QSP_FLAGS.WERR = 1 ∧ t.clk = s.clk ∧ t.core.qsp = s.core.qsp) ∧
        (code = 0 → waits → addr.toNat = s.core.qsp.image.length →
          let l := s.core.qsp.image ++ s.core.qsp.win.reads 0 len.toNat
          l.length < 12 ∨ l.length < leAt l 8 4 → ∃ t, go = .next t ∧ t.core.qsp.image = l ∧ t.clk = s.clk ∧
            t.core.fld F.QSP_FLAGS.WBUSY = 1 ∧ t.core.qsp.op = some 0))) ∧
    (s.core.qsp.op = none → Leaves .windowOpComplete s [] s.core) ∧
    ∀ code, s.core.qsp.op = some code → Leaves .windowOpComplete s ([(F.QSP_FLAGS.WBUSY, 0), (F.QSP_FLAGS.WCODE, code),
      (F.QSP_FLAGS.WDONE, 1), (F.QSP_IRQ.WOP, 1)] ++ if code = 0 then [] else [(F.QSP_FLAGS.WERR, 1)])
      { s.core with qsp := { s.core.qsp with op := none } }

/-- The QSPI stream, its buffer and its window. Commands that complete here, `exec` answering the next state told under conditions on the
state and the operands alone: rdsr, rdstm, wrstm, rdwin, wrwin, wsetupRead, wsetupWrite, wsetupImage, rdid, eqpi, xqpi, ifrst,
windowOpComplete, badcmd, outputByteWait. -/
def Obligations.QspiPort : Prop := Claims.QspiStreamAndBuffer ∧ Claims.QspiWindowOperations

/-! ### Twine -/

namespace Sys2Proof.Claims
open Sys2Proof.Machine

/-- The device once a link's receiver has taken a request's frame: its bytes are gone, and the frame is activity (R356, R437). -/
def taken (s : State) (h : TwineHead) (crc : Word) (cls id : Nat) : Core :=
  let k := s.core.link h.link.val
  { active s with
      links := putAt s.core.links h.link.val { k with rx := (huntFrame cls id h.seq.toNat crc k.rx).getD k.rx } }

/-- A request's answer on its way (R445, R446): a NAK frame, which is not kept, or the response, kept among the link's last four. -/
def answered (h : TwineHead) (crc : Word) (cls id : Nat) (c : Core) : Answer → Core
  | .nak code => if cls = 5 then c else c.sendFrame h.link.val (nakFrame h.seq.toNat cls id code)
  | a => c.answer h.link.val h.seq.toNat crc cls id a

/-- Distaff serves requests (R333, R474): the core is powered, start-up has reached step 8, and no restart is under way. -/
def Hears (s : State) : Prop := s.core.coreOn = true ∧ 8 ≤ s.core.fld F.SYS_BOOT.STAGE ∧ s.core.mir.dstUntil = none

/-- The request is new to its link (R446), which has room for it (R445): fewer than four wait. -/
def NewRequest (s : State) (h : TwineHead) (crc : Word) : Prop :=
  let k := s.core.link h.link.val
  (∀ m ∈ k.memory, ¬ (m.1 = h.seq.toNat ∧ m.2.1 = crc)) ∧ (∀ w ∈ k.waiting, ¬ (w.seq = h.seq.toNat ∧ w.crc = crc)) ∧ k.waiting.length < 4

/-- A request of the session's own catalogue, its payload in the layout that the catalogue gives (R443, R444). -/
def InCatalogue (s : State) (h : TwineHead) (cls id : Nat) (p : List Byte) : Prop :=
  let k := s.core.link h.link.val
  h.old = none ∧ p.length ≤ 4096 ∧ ∃ m, k.entry h cls id = some m ∧ m.lengthOk k.version p.length = true ∧ m.expand k.version p = p

/-- What a session's new request of a class and ID does and answers: from the device that took its frame to `c1`, with answer `a`. -/
def Request (mk : TwineHead → List Byte → Instr) (cls id : Nat) (Q : State → TwineHead → List Byte → Core → Core → Answer → Prop) : Prop :=
  ∀ (s : State) (h : TwineHead) (p : List Byte), let crc := frameCrc cls id h.seq.toNat p
    Hears s → NewRequest s h crc → (s.core.link h.link.val).opened = true → InCatalogue s h cls id p →
    Yields (mk h p) s fun c => ∃ c1 a, Q s h p (taken s h crc cls id) c1 a ∧ c = answered h crc cls id c1 a

/-- The same of a request whose payload's layout the source does not state (log entry 17): its content is an operand, with its CRC. -/
def BareRequest (mk : TwineHead → Word → Instr) (cls id : Nat) (Q : State → TwineHead → Word → Core → Core → Answer → Prop) : Prop :=
  ∀ (s : State) (h : TwineHead) (crc : Word), Hears s → NewRequest s h crc → (s.core.link h.link.val).opened = true →
    h.old = none → ((s.core.link h.link.val).entry h cls id).isSome = true →
    Yields (mk h crc) s fun c => ∃ c1 a, Q s h crc (taken s h crc cls id) c1 a ∧ c = answered h crc cls id c1 a

/-- The requests whose payload is given as bytes, with class and ID (R448). -/
def payloadRequests : List ((TwineHead → List Byte → Instr) × Nat × Nat) :=
  [(.bye, 0, 3), (.ping, 0, 6), (fun h p => .regRd h p 0, 1, 1), (.regWr, 1, 3), (.aidImu, 5, 1), (.acqSubmit, 6, 1), (.acqCancel, 6, 2),
    (.cfgSet, 7, 1), (.cfgGet, 7, 2), (.store, 7, 4), (.factory, 7, 5), (.imgWr, 8, 1), (.spoolWr, 8, 2), (.spoolRd, 8, 3),
    (.readout, 9, 1)]

/-- Bytes that go out whole on a link, in order after what waits there (R432, R447). -/
def GoesOut (c0 : Core) (l : Nat) (bs : List Byte) (c : Core) : Prop :=
  if l = 1 then c.qsp.out = c0.qsp.out ++ bs
  else (c.uart 0).tx ++ (c.link 0).outq = (c0.uart 0).tx ++ (c0.link 0).outq ++ bs

end Sys2Proof.Claims

/-- R437, R438, R445 to R447: a frame's layout; a frame that fits its queue goes out whole and one that does not is counted; an executed
request's response is kept among the last four. -/
def Sys2Proof.Claims.TwineFrames : Prop :=
  (∀ (cls id seq : Nat) (p : List Byte), cls < 256 → id < 256 → seq < 65536 → p.length ≤ 4096 →
    let f := frameOf cls id seq p
    f.length = p.length + 12 ∧ frameLen f = some f.length ∧ f.take 2 = [0xC5#8, 0x3A#8] ∧ (f.drop 8).take p.length = p ∧
    leAt f 2 1 = cls ∧ leAt f 3 1 = id ∧ leAt f 4 2 = p.length ∧ leAt f 6 2 = seq ∧
    leAt f (p.length + 8) 4 = (crc32 ((f.drop 2).take (p.length + 6))).toNat) ∧
  ∀ (c : Core) (l : Fin 2) (bs : List Byte) (seq : Nat) (crc : Word),
    let room := if l = 1 then c.qsp.out.length + bs.length ≤ 32768 else (c.link 0).outq.length + bs.length ≤ 16384
    (room → GoesOut c l bs (c.sendFrame l bs) ∧ ((c.sendFrame l bs).link l).lost = (c.link l).lost) ∧
    (¬ room → ((c.sendFrame l bs).link l).lost = (c.link l).lost + 1 ∧ (c.sendFrame l bs).qsp = c.qsp ∧
      (c.sendFrame l bs).uarts = c.uarts ∧ (l = 1 → (c.sendFrame l bs).fld F.QSP_FLAGS.OUTLOSS = 1)) ∧
    (let m := ((c.respond l seq crc bs).link l).memory
     m.length ≤ 4 ∧ m.getLast? = some (seq, crc, bs) ∧ m <:+ (c.link l).memory ++ [(seq, crc, bs)])

/-- R439, R440, R444 to R446: a discarded frame is counted; a request without a session is answered NOSESSION, a repeated one with the
response kept, and neither is done; so is one too many with BUSY, one the session does not know with UNKMSG, and one of a wrong length
with LENGTH. -/
def Sys2Proof.Claims.TwineRequestRules : Prop :=
  (∀ (s : State) (l : Fin 2), Hears s →
    let k := s.core.link l
    let u := fun (i : Nat) (k : LinkSt) => ({ s.core with links := putAt s.core.links i k } : Core)
    Leaves (.badFrame l) s [] (u l { k with rx := huntPast k.rx, crcErr := k.crcErr + 1 }) ∧
    (let k := s.core.link 0
     Leaves .frameTimeout s [] (u 0 { k with rx := huntPast k.rx, crcErr := k.crcErr + 1 }))) ∧
  ∀ x ∈ payloadRequests, x.2 ≠ (0, 3) → ∀ (s : State) (h : TwineHead) (p : List Byte), Hears s → h.old = none → p.length ≤ 4096 →
    let crc := frameCrc x.2.1 x.2.2 h.seq.toNat p
    let k := s.core.link h.link.val
    let c0 := taken s h crc x.2.1 x.2.2
    let refused := fun code => Yields (x.1 h p) s (· = answered h crc x.2.1 x.2.2 c0 (.nak code))
    (∀ m, k.memory.find? (fun m => m.1 == h.seq.toNat && m.2.1 == crc) = some m →
      Yields (x.1 h p) s (· = c0.sendFrame h.link.val m.2.2)) ∧
    (NewRequest s h crc → k.opened = false → refused 1) ∧
    (NewRequest s h crc → k.opened = true → k.entry h x.2.1 x.2.2 = none → refused 3) ∧
    (NewRequest s h crc → k.opened = true → ∀ m, k.entry h x.2.1 x.2.2 = some m → m.lengthOk k.version p.length = false → refused 4) ∧
    ((∀ m ∈ k.memory, ¬ (m.1 = h.seq.toNat ∧ m.2.1 = crc)) → (∀ w ∈ k.waiting, ¬ (w.seq = h.seq.toNat ∧ w.crc = crc)) →
      k.opened = true → 4 ≤ k.waiting.length → refused 6)

/-- The frames of Twine, and the rules that every request is held to. Commands that complete here, `exec` answering the next state told
under conditions on the state and the operands alone: badFrame, frameTimeout. -/
def Obligations.TwineFramesAndRules : Prop := Claims.TwineFrames ∧ Claims.TwineRequestRules

/-- R74, R440, R441: HELLO opens a session at the version negotiated, a session that was open closing first, or is refused; BYE is
acknowledged and closes it, with its retry memory. Commands that complete here, `exec` answering the next state told under conditions on
the state and the operands alone: hello, bye. -/
def Obligations.TwineSessions : Prop :=
  ∀ (s : State) (h : TwineHead) (p : List Byte), Hears s → h.old = none →
    let l := h.link.val
    let k := s.core.link l
    let crc := frameCrc 0 1 h.seq.toNat p
    let c0 := taken s h crc 0 1
    let cat := match c0.helloCat.1 with | some b => catOf b | none => stdCat
    let version := cat.negotiate (leAt p 0 1) (leAt p 2 1)
    let fields := zeroAt p 8 8 = true ∧ leAt p 0 1 * 256 + leAt p 1 1 ≤ leAt p 2 1 * 256 + leAt p 3 1
    let shut := if k.opened then c0.onLink l LinkSt.close else c0
    let refused := fun c0 code => Yields (.hello h p) s (· = answered h crc 0 1 c0 (.nak code))
    (NewRequest s h crc → p.length ≠ 16 → refused c0 4) ∧
    (NewRequest s h crc → p.length = 16 → ¬ fields → refused shut 5) ∧
    (NewRequest s h crc → p.length = 16 → fields → version = none → refused shut 2) ∧
    (∀ v, NewRequest s h crc → p.length = 16 → fields → version = some v → Yields (.hello h p) s fun c => ∃ ack : List Byte,
      ack.take 2 = [BitVec.ofNat 8 v.1, BitVec.ofNat 8 v.2] ∧ ack.length = 28 ∧ (c.link l).opened = true ∧ (c.link l).major = v.1 ∧
      (c.link l).minor = v.2 ∧ (c.link l).hostId = leAt p 4 4 ∧ (c.link l).waiting = [] ∧
      (c.link l).memory = [(h.seq.toNat, crc, frameOf 0 2 h.seq.toNat ack)]) ∧
    (NewRequest s h (frameCrc 0 3 h.seq.toNat p) → k.opened = true → InCatalogue s h 0 3 p → Yields (.bye h p) s fun c =>
      (c.link l).opened = false ∧ (c.link l).memory = [] ∧ (c.link l).waiting = [] ∧ (c.link l).notices = [] ∧
      c = { s.core with regs := c.regs, uarts := c.uarts, links := c.links, qsp := c.qsp, pwr := c.pwr })

/-- R448, R449, R456: PING, the register requests, aiding samples and Prism jobs. Commands that complete here, `exec` answering the next
state told under conditions on the state and the operands alone: ping, regRd, regWr, aidImu, acqSubmit, acqCancel, readout. -/
def Obligations.TwineRegisterAndJobRequests : Prop :=
  let fieldsOk := fun (p : List Byte) => leAt p 0 4 % 4 = 0 ∧ 1 ≤ leAt p 4 2 ∧ leAt p 4 2 ≤ 1022 ∧ zeroAt p 6 2 = true
  Request .ping 0 6 (fun _ _ _ c0 c1 a => c1 = c0 ∧ a = .ack 0 0) ∧
  (∀ bad, Request (fun h p => .regRd h p bad) 1 1 fun s _ p c0 c1 a =>
    (¬ fieldsOk p → c1 = c0 ∧ a = .nak 5) ∧
    (fieldsOk p → let r := c0.busReads s.clk (leAt p 0 4) bad (leAt p 4 2)
      c1 = r.1 ∧ a = .reply 1 2 (leBytes 1 (if r.2.2 then 6 else 0) ++ leBytes 3 0 ++ p.take 4 ++ wordBytes r.2.1))) ∧
  Request .regWr 1 3 (fun s _ p c0 c1 a =>
    (¬ fieldsOk p → c1 = c0 ∧ a = .nak 5) ∧
    (fieldsOk p → (p.drop 8).length ≠ 4 * leAt p 4 2 → c1 = c0 ∧ a = .nak 4) ∧
    (fieldsOk p → (p.drop 8).length = 4 * leAt p 4 2 → let r := c0.busWrites s.clk (leAt p 0 4) (wordsOf (p.drop 8))
      c1 = r.1 ∧ a = .ack (if r.2 then 6 else 0) 0)) ∧
  Request .aidImu 5 1 (fun _ _ p c0 c1 a => a = .silent ∧
    (c0.inForce F.FOC_CFG.AIDEN = 0 ∨ leAt p 0 1 = 0 ∨ 16 < leAt p 0 1 ∨ p.length ≠ 4 + 32 * leAt p 0 1 → c1 = c0) ∧
    (c0.inForce F.FOC_CFG.AIDEN ≠ 0 → leAt p 0 1 = 1 → zeroAt p 1 3 = true → p.length = 36 → c0.foc.fifo = [] →
      c1.foc.fifo = [wordsOf (p.drop 4)] ∧ c1 = { c0 with regs := c1.regs, foc := c1.foc })) ∧
  Request .acqSubmit 6 1 (fun s _ p _ c1 a => p.length = 64 → ∃ c2 : Core, (∀ k : Fin 16, c2.reg (R.PRM_JD k) = BitVec.ofNat 32 (leAt p (4 * k) 4)) ∧
    c1 = c2.prmGo s.clk ∧ a = .ack (c1.fld F.PRM_SUBRES.CODE) (c1.fld F.PRM_SUBRES.TAG)) ∧
  Request .acqCancel 6 2 (fun s _ p c0 c1 a =>
    (255 < leAt p 0 4 → c1 = c0 ∧ a = .nak 5) ∧
    (leAt p 0 4 ≤ 255 → c1 = c0.cancelJob s.clk (leAt p 0 4) ∧ a = .ack 0 0)) ∧
  Request .readout 9 1 fun _ _ p c0 c1 a =>
    let bad := 1 < leAt p 0 1 ∨ 7 < leAt p 1 1 ∨ 1 < leAt p 2 1 ∨ zeroAt p 3 1 = false
    (bad → c1 = c0 ∧ a = .nak 5) ∧
    (¬ bad → (c1 = c0 ∧ (a = .ack 6 0 ∨ a = .ack 7 0)) ∨
      ∃ tag, tag < 256 ∧ a = .ack 0 tag ∧ (∀ j ∈ c0.plan.jobs, j.tag ≠ tag) ∧ ∃ j ∈ c1.plan.jobs, j.tag = tag ∧ j.cls = 1 + leAt p 0 1)

/-- R387, R388, R399, R407, R409, R411, R413, R448, R64, R69: settings, storage, images, fuses and the calendar. Commands that complete
here, `exec` answering the next state told under conditions on the state and the operands alone: cfgSet, cfgGet, store, factory, calSet,
calGet, imgWr, spoolWr, spoolRd, provWr, fuseArm, fuseProg. -/
def Obligations.TwineStorageRequests : Prop :=
  Request .cfgSet 7 1 (fun s _ p c0 c1 a =>
    let r := c0.setKey s.clk (leAt p 0 2) (p.drop 4)
    (zeroAt p 2 2 = false ∨ r.2 = false → c1 = c0 ∧ a = .nak 5) ∧ (zeroAt p 2 2 = true → r.2 = true → c1 = r.1 ∧ a = .ack 0 0)) ∧
  Request .cfgGet 7 2 (fun _ _ p c0 c1 a => c1 = c0 ∧
    (zeroAt p 2 2 = false ∨ (∀ x ∈ c0.persistItems, x.1 ≠ leAt p 0 2) → a = .nak 5) ∧
    (∀ x, zeroAt p 2 2 = true → c0.persistItems.find? (fun x => x.1 == leAt p 0 2) = some x →
      a = .reply 7 3 (leBytes 2 x.1 ++ leBytes 2 0 ++ x.2))) ∧
  Request .store 7 4 (fun _ h p c0 c1 a => (c1, a) = batchAnswer (c0.store (some (h.ackFor 7 4 p)))) ∧
  Request .factory 7 5 (fun _ h p c0 c1 a => (c1, a) = batchAnswer (c0.factory (some (h.ackFor 7 5 p)))) ∧
  Request .imgWr 8 1 (fun _ _ p c0 c1 a =>
    let o := leAt p 0 4
    let n := (p.drop 4).length
    let bad := o % 4 ≠ 0 ∨ n = 0 ∨ 4088 < n ∨ 0x200000 < o + n ∨ o / 0x100000 ≠ (o + n - 1) / 0x100000
    (bad → c1 = c0 ∧ a = .nak 5) ∧
    (¬ bad → c1 = (c0.imgWrite o (p.drop 4)).1 ∧ a = .ack (c0.imgWrite o (p.drop 4)).2 0)) ∧
  Request .spoolWr 8 2 (fun _ h p c0 c1 a =>
    let bad := leAt p 0 2 < 0x8000 ∨ zeroAt p 2 2 = false ∨ 256 < (p.drop 4).length
    (bad → c1 = c0 ∧ a = .nak 5) ∧
    (¬ bad → c0.fld F.NVM_STAT.RDONLY ≠ 0 → c1 = c0 ∧ a = .ack 3 0) ∧
    (¬ bad → c0.fld F.NVM_STAT.RDONLY = 0 →
      (c1.fld F.NVM_IRQ.FULL = 1 ∧ c1.nvm = c0.nvm ∧ a = .ack 2 0) ∨
      (3 ≤ c0.fld F.SYS_DSTLOAD.LEVEL ∧ c1.fld F.NVM_IRQ.DEFDROP = 1 ∧ c1.nvm = c0.nvm ∧ a = .ack 2 0) ∨
      (a = .later ∧ ∃ r ∈ c1.nvm.queue, r.key = leAt p 0 2 ∧ r.payload = p.drop 4 ∧ r.ack = some (h.ackFor 8 2 p)))) ∧
  Request .spoolRd 8 3 (fun _ _ p c0 c1 a => c1 = c0 ∧ (4 ≤ p.length → ∃ body : List Byte, a = .reply 8 4 (p.take 4 ++ body) ∧
    (body = [] ∨ ∃ r ∈ c0.spoolLive, r.key = leAt p 0 2 ∧ r.payload = body))) ∧
  (∀ d scale unc, BareRequest (fun h crc => .calSet h crc d scale unc) 7 6 fun _ _ _ c0 c1 a =>
    (c0.dateOk d scale = false → c1 = c0 ∧ a = .ack 1 0) ∧
    (c0.dateOk d scale = true → c0.scaleOfs scale = none → c1 = c0 ∧ a = .ack 2 0) ∧
    (c0.dateOk d scale = true → c0.scaleOfs scale ≠ none → c0.fld F.FLY_STAT.STATE = 1 → c1 = c0 ∧ a = .ack 3 0) ∧
    (c0.dateOk d scale = true → c0.scaleOfs scale ≠ none → c0.fld F.FLY_STAT.STATE ≠ 1 →
      a = .ack 0 0 ∧ c1.fld F.WHL_TRUST.BOR = 0 ∧ c1.fld F.WHL_STAT.WPEND = 1)) ∧
  (∀ (tick : BitVec 48) (scale : Nat), BareRequest (fun h crc => .calGet h crc tick scale) 7 7 fun _ _ _ c0 c1 a => c1 = c0 ∧
    (∀ d w u, c0.calGet (c0.settingNat 17) tick.toNat scale = .ok (d, w, u) → a = .reply 7 8 (Config.calVal d w scale u)) ∧
    (c0.validAnchor = none → a = .ack 4 0) ∧ (c0.validAnchor ≠ none → c0.scaleOfs scale = none → a = .ack 2 0)) ∧
  (∀ (kind : Fin 3) (data : List Byte), BareRequest (fun h crc => .provWr h crc kind data) 8 5 fun _ _ _ c0 c1 a =>
    c1 = c0.provWrite kind.val data ∧ a = .ack 0 0) ∧
  (∀ op, fuseOk op false = true → BareRequest (fun h crc => .fuseArm h crc op) 8 6 fun s h _ c0 c1 a =>
    ∃ nonce, nonce < 65536 ∧ a = .ack 0 nonce ∧ (c1.link h.link.val).nonce = some (nonce, 655360 * s.clk.epoch + s.clk.fc) ∧
      c1 = { c0 with links := c1.links, free := c0.free + 1 }) ∧
  ∀ (n : BitVec 16) (op : FuseOp), fuseOk op true = true → BareRequest (fun h crc => .fuseProg h crc n op) 8 7 fun s h _ c0 c1 a =>
    let good := ∃ at', (c0.link h.link.val).nonce = some (n.toNat, at') ∧ 655360 * s.clk.epoch + s.clk.fc ≤ at' + 655360000
    (¬ good → c1 = c0 ∧ a = .ack 2 0) ∧
    (good → let c2 : Core := c0.onLink h.link.val fun k => { k with nonce := none }
      c1 = (c2.fuse op).1 ∧ a = .ack (c2.fuse op).2 0)

/-! ### Messages of the device -/

namespace Sys2Proof.Claims
open Sys2Proof.Machine

/-- A message of the device goes to each link's session, from the device `c0`, and nothing else happens (R447, R448). -/
def Sends (i : Instr) (s : State) (cls id : Nat) (c0 : Core) (full : Nat → List Byte) : Prop :=
  Yields i s (· = c0.broadcast cls id full)

/-- The events that have Distaff build a message. -/
def ownMessages : List Instr :=
  [.meas, .pvt, .time, .event, .sym, .plyev] ++ ([0, 1, 2, 3] : List (Fin 4)).map .tp ++ ([0, 1] : List (Fin 2)).map .notice

/-- Distaff sends nothing while it does not serve (R333, R474). -/
def Silent (s : State) : Prop := s.core.distaffServes = false

/-- Whether a Twine session is open. -/
def AnySession (s : State) : Prop := (s.core.link 0).opened = true ∨ (s.core.link 1).opened = true

end Sys2Proof.Claims

/-- R392, R393, R447: a message of the device on a link. None without a session, nor where the session has no form of it; at shed level 2
only those that the catalogue marks MAND or that are never shed; the others go out with the link's SEQ, which counts a dropped one too. -/
def Sys2Proof.Claims.DeviceMessagesOnALink : Prop :=
  ∀ (c : Core) (l : Fin 2) (cls id : Nat) (full : List Byte) (always : Bool),
    let k := c.link l
    let sent := c.tell l cls id full always
    (k.opened = false ∨ k.outgoing cls id full = none → sent = c) ∧
    (∀ cc ci p mand, k.opened = true → k.outgoing cls id full = some (cc, ci, p, mand) →
      (2 ≤ c.fld F.SYS_DSTLOAD.LEVEL → mand = false → always = false →
        FieldsSet [(F.SYS_DSTSHED.OPT, min 255 (c.fld F.SYS_DSTSHED.OPT + 1))] c sent ∧ sent = { c with regs := sent.regs }) ∧
      (c.fld F.SYS_DSTLOAD.LEVEL < 2 ∨ mand = true ∨ always = true →
        let room := if l = 1 then c.qsp.out.length + (p.length + 12) ≤ 32768 else (c.link 0).outq.length + (p.length + 12) ≤ 16384
        (sent.link l).seq = (k.seq + 1) % 65536 ∧ (room → GoesOut c l (frameOf cc ci k.seq p) sent) ∧
        (¬ room → (sent.link l).lost = k.lost + 1 ∧ sent.qsp = c.qsp ∧ sent.uarts = c.uarts)))

/-- R448, R450, R452 to R455: when each message goes out, and with what; the fields of the longer payloads are those of the model's
functions named. PVT's dilutions of precision are a free value (log entry 5). -/
def Sys2Proof.Claims.DeviceMessagesWhenDue : Prop :=
  ∀ s : State, s.core.coreOn = true →
    (Silent s → (∀ i ∈ ownMessages, Leaves i s [] s.core) ∧ (∀ o, Leaves (.status o) s [] s.core) ∧
      (∀ tag, Leaves (.acqResult tag) s [] s.core) ∧ ∀ b, Leaves (.head b) s [] s.core) ∧
    (s.core.epochsRun = false → Leaves .time s [] s.core ∧ ∀ o, Leaves (.status o) s [] s.core) ∧
    (¬ AnySession s → ∀ i ∈ ([.meas, .event, .sym, .plyev] : List Instr), Leaves i s [] s.core) ∧
    (¬ Silent s →
      let sols := s.core.out.sols
      let epoch := s.clk.epoch
      let second := s.core.epochsRun = true ∧ (0 < epoch → s.core.gpsSecond epoch ≠ s.core.gpsSecond (epoch - 1))
      (AnySession s → s.core.outFill = 0 → Leaves .meas s [] s.core) ∧
      (AnySession s → s.core.outFill ≠ 0 → Yields .meas s fun c =>
        let n := bits (wordOf (s.core.outWords (s.core.fld F.PLAN_ORD.ORD)) 0) 31 16 + 1
        c.fld F.PLAN_ORD.ORD = (s.core.fld F.PLAN_ORD.ORD + n) % 4096 ∧ c.mem = s.core.mem ∧
        c = { s.core with regs := c.regs, uarts := c.uarts, links := c.links, qsp := c.qsp }) ∧
      (sols = [] → Leaves .pvt s [] s.core) ∧
      (∀ x rest, sols = x :: rest → ∃ p : List Byte, p.take 5 = x.1.take 5 ∧
        Sends .pvt s 3 1 { s.core with free := s.core.free + 1, out := { s.core.out with sols := rest, lastSol := some x.1 } } fun _ => p) ∧
      (¬ second → Leaves .time s [] s.core) ∧
      (second → ∃ p : List Byte, p.take 4 = leBytes 4 epoch ∧ (p.drop 4).take 96 = s.core.mem.reads 0x3102E000 96 ∧
        Sends .time s 3 2 s.core fun _ => p) ∧
      (∀ n : Fin 4, let x := s.core.tp n
        let due := s.core.tpRuns n = true ∧ s.core.inForce (F.FLY_TP_CFG.MSG n) ≠ 0 ∧ 100000000 ≤ tpPeriod x.act.period
        (¬ due → Leaves (.tp n) s [] s.core) ∧
        (due → ∃ p : List Byte, p.take 1 = [BitVec.ofNat 8 n] ∧ p.length = 32 ∧
          Yields (.tp n) s (· = s.core.broadcast 3 3 (fun _ => p) (decide (leAt p 1 1 % 4 ≠ 0))))) ∧
      (AnySession s → s.core.fly.evq = [] → Leaves .event s [] s.core) ∧
      (∀ e r, AnySession s → s.core.fly.evq = e :: r → ∃ p : List Byte, p.length = 28 ∧ ∃ c0 : Core, c0.fly.evq = r ∧
        RegsBut [R.FLY_EVQ0, R.FLY_EVQ1, R.FLY_EVQ2, R.FLY_EVSTAT] s.core c0 ∧
        c0 = { s.core with regs := c0.regs, fly := { s.core.fly with evq := r } } ∧ Sends .event s 3 4 c0 fun _ => p) ∧
      (s.core.epochsRun = true → ∀ osnma : List OsnmaSat, ∃ p : Nat → List Byte,
        (∀ l, (p l).length = 28 + 2 * osnma.length ∧ (p l).drop 28 = osnma.flatMap fun o => [o.sv, s.core.osnStatus o]) ∧
        Sends (.status osnma) s 4 1 (osnma.foldl Core.judgeOsnma s.core) p) ∧
      (∀ b : Fin 3, Sends (.head b) s 2 3 s.core fun _ => s.core.mem.reads (headProduct b) 32) ∧
      ∀ tag : BitVec 8, (s.core.job tag.toNat = none → Leaves (.acqResult tag) s [] s.core) ∧
        ∀ j, s.core.job tag.toNat = some j → let d := PrmDesc.of j.desc
          (j.cls ≠ 0 ∨ j.live = true → Leaves (.acqResult tag) s [] s.core) ∧
          (j.cls = 0 → j.live = false → Sends (.acqResult tag) s 6 3 s.core fun _ => s.core.mem.reads (resultBuf d.rbuf) (32 + 32 * d.k)))

/-- The device's messages on a link, and when each goes out. Commands that complete here, `exec` answering the next state told under
conditions on the state and the operands alone: tp, status, acqResult, head, meas, pvt, time, event. -/
def Obligations.DeviceMessages : Prop := Claims.DeviceMessagesOnALink ∧ Claims.DeviceMessagesWhenDue

/-- R171, R174, R448: while a session is open, SYM and PLYEV carry away the entries of their queues. -/
def Sys2Proof.Claims.QueuesAreForwarded : Prop :=
  ∀ s : State, s.core.coreOn = true → s.core.distaffServes = true → AnySession s →
    (s.core.lpe.symq = [] → Leaves .sym s [] s.core) ∧ (s.core.lpe.evq = [] → Leaves .plyev s [] s.core) ∧
    (s.core.lpe.symq ≠ [] → Yields .sym s fun c =>
      c.lpe = { s.core.lpe with symq := s.core.lpe.symq.drop 512 } ∧ c.mem = s.core.mem) ∧
    (s.core.lpe.evq ≠ [] → Yields .plyev s fun c =>
      c.lpe = { s.core.lpe with evq := s.core.lpe.evq.drop 512 } ∧ c.mem = s.core.mem)

/-- R455, R267 to R269, R393: a notice leaves its link's queue, DROPPED first, at every shed level; the sentences of a kind that fall due
are skipped and counted at shed level 1, and else go to their port, as an enabled RTCM message does. -/
def Sys2Proof.Claims.NoticesSentencesAndRtcm : Prop :=
  ∀ s : State, s.core.coreOn = true → s.core.distaffServes = true →
    (∀ l : Fin 2, let k := s.core.link l
      let put := fun (k : LinkSt) => ({ s.core with links := putAt s.core.links l k } : Core)
      let room := if l = 1 then s.core.qsp.out.length + 28 ≤ 32768 else k.outq.length + 28 ≤ 16384
      (k.opened = false → Leaves (.notice l) s [] s.core) ∧
      (k.opened = true → k.lost = 0 → k.notices = [] → Leaves (.notice l) s [] s.core) ∧
      (∀ n r, k.opened = true → k.lost = 0 → k.notices = n :: r → Yields (.notice l) s
        (· = (put { k with notices := r }).tell l 4 2 (noticeBytes s.clk.epoch n.1 n.2) true)) ∧
      (k.opened = true → 0 < k.lost → ¬ room → Leaves (.notice l) s [] s.core) ∧
      (k.opened = true → 0 < k.lost → room → Yields (.notice l) s
        (· = (put { k with lost := 0 }).tell l 4 2 (noticeBytes s.clk.epoch 7 (leBytes 8 k.lost)) true))) ∧
    (∀ kind : Fin 7, let on := bitOf (s.core.settingNat 0) kind = true
      let level := s.core.fld F.SYS_DSTLOAD.LEVEL
      (¬ on ∨ s.core.newestSol = none → Leaves (.nmeaSentence kind) s [] s.core) ∧
      (∀ r, on → s.core.newestSol = some r →
        let tu := fullEpoch s.clk.epoch (leAt r 0 4)
        let told : DstSt := { s.core.dst with nmeaAt := putAt s.core.dst.nmeaAt kind (some tu) }
        (s.core.nmeaDue kind tu = false → Leaves (.nmeaSentence kind) s [] s.core) ∧
        (s.core.nmeaDue kind tu = true → 1 ≤ level → Leaves (.nmeaSentence kind) s
          [(F.SYS_DSTSHED.NMEA, min 65535 (s.core.fld F.SYS_DSTSHED.NMEA + 1))] { s.core with dst := told }) ∧
        (s.core.nmeaDue kind tu = true → level = 0 → Yields (.nmeaSentence kind) s fun c =>
          c = { s.core with regs := c.regs, uarts := c.uarts, links := c.links, qsp := c.qsp, dst := told }))) ∧
    ∀ kind : Fin 7, let on := bitOf (s.core.settingNat 3) kind = true ∧ (kind = 5 → leAt (s.core.setting 8) 28 4 ≠ 0)
      (¬ on → Leaves (.rtcmMessage kind) s [] s.core) ∧
      (on → Yields (.rtcmMessage kind) s fun c =>
        c = { s.core with
          regs := c.regs, uarts := c.uarts, links := c.links, qsp := c.qsp, dst := { s.core.dst with msmSlips := c.dst.msmSlips } })

/-- Queues forwarded to sessions, notices, sentences and RTCM. Commands that complete here, `exec` answering the next state told under
conditions on the state and the operands alone: notice, nmeaSentence, rtcmMessage, sym, plyev. -/
def Obligations.QueuesNoticesAndSentences : Prop := Claims.QueuesAreForwarded ∧ Claims.NoticesSentencesAndRtcm

/-! ### The Eddeug console -/

namespace Sys2Proof.Claims
open Sys2Proof.Machine

/-- Now, in fc since epoch 0. -/
def now (s : State) : Nat := 655360 * s.clk.epoch + s.clk.fc

/-- The device once a console line has come in: the idle and service timers restart (R356, R460). -/
def heard (s : State) : Core := { active s with svc := { s.core.svc with lastInput := now s } }

/-- The console replies (R458): the command's number, its error code or 0, its readings. -/
def answers (c : Core) (cmd err : Nat) (vals : List Nat) : Core :=
  { c with svc := { c.svc with out := c.svc.out ++ [{ cmd := cmd, err := err, vals := vals }] } }

/-- The console serves from step 3 of the start-up on (R474). -/
def ConsoleUp (s : State) : Prop := s.core.coreOn = true ∧ 3 ≤ s.core.fld F.SYS_BOOT.STAGE

/-- A console line (R459): it waits while a command runs; one that needs service mode is refused outside it with ERR 3; else `Q`. -/
def ConsoleLine (i : Instr) (cmd : Nat) (service : Bool) (Q : State → Core → Core → Prop) : Prop :=
  ∀ s : State, ConsoleUp s →
    let open' := service = false ∨ s.core.fld F.SVC_STAT.SVCMODE ≠ 0
    (s.core.conBusy = true → exec i s = .next { s with held := s.held ++ [i] }) ∧
    (s.core.conBusy = false → ¬ open' → Yields i s (· = answers (heard s) cmd 3 [])) ∧
    (s.core.conBusy = false → open' → Yields i s (Q s (heard s)))

/-- A self-test that takes no time (R465) answers PASS, 1, or FAIL, 0, with its readings. -/
def QuickTest (i : Instr) (cmd : Nat) (service : Bool) (pass : State → Prop) (reads : List Nat) : Prop :=
  ConsoleLine i cmd service fun s c0 c => ∃ r more, c = answers c0 cmd 0 (r :: (reads ++ more)) ∧ r < 2 ∧ (r = 1 ↔ pass s)

/-- The running self-test of a kind ends (R465): `found` says whether it is over, its verdict and readings. Nothing happens where none of
the kind and argument runs, or it is not over. -/
def TestEnds (i : Instr) (kind arg : Nat) (over' : State → RunTest → Prop) (pass : State → RunTest → Prop) : Prop :=
  ∀ s : State, s.core.coreOn = true →
    ((∀ r, s.core.svc.test = some r → r.kind ≠ kind ∨ r.arg ≠ arg) → Leaves i s [] s.core) ∧
    ∀ r, s.core.svc.test = some r → r.kind = kind → r.arg = arg →
      (¬ over' s r → Leaves i s [] s.core) ∧
      (over' s r → Yields i s fun c => c.svc.test = none ∧ ∃ v vals, c.svc.out = s.core.svc.out ++ [{ cmd := kind, err := 0, vals := v :: vals }] ∧
        v < 2 ∧ (v = 1 ↔ pass s r) ∧ vals.getLast? = some (now s - r.start))

/-- A self-test that runs begins. -/
def began (c : Core) (s : State) (kind arg base : Nat) (tag : Option Nat) : Core :=
  { c with svc := { c.svc with test := some { kind := kind, arg := arg, start := now s, base := base, tag := tag, kept := c.tsgForce } } }

/-- Group 13 is left committed with an empty mask (R460), and no entry enabled (log entry 201). -/
def TsgLeft (c : Core) : Prop :=
  c.fld F.TSG_SUB.MASK = 0 ∧ (∀ i : Fin 16, c.fld (F.TSG_SIG_W0.EN i) = 0) ∧ bitOf (c.fld F.PLAN_CMTSTAT.PEND) 13 = true

/-- A ball that no override may take in a mode (R463). -/
def ballDenied (n mode : Nat) : Prop :=
  pinBank n = none ∨ n < 40 ∨ n = 96 ∨ n = 97 ∨ n = 99 ∨ 102 ≤ n ∨ ((n = 40 ∨ n = 41) ∧ mode = 3)

/-- What an override line does: its error code, and the overrides after it (R459, R462, R463). -/
def OverrideLine (i : Instr) (n mode : Nat) : Prop :=
  ConsoleLine i 8 true fun _ c0 c =>
    let counted := fun (l : List (Nat × Nat)) => c.pinOver = l ∧ c.fld F.SVC_STAT.OVRCNT = l.length % 16
    let others := c0.pinOver.filter fun o => o.1 ≠ n
    let refused := fun (code : Nat) (ps : List (Fld × Nat)) => c.pinOver = c0.pinOver ∧ FieldsSet ps c0 c ∧
      c.svc.out = c0.svc.out ++ [{ cmd := 8, err := code, vals := [] }]
    let done := c.svc.out = c0.svc.out ++ [{ cmd := 8, err := 0, vals := [] }]
    (pinBank n = none → c = answers c0 8 2 []) ∧
    (pinBank n ≠ none → mode = 0 → counted others ∧ done) ∧
    (pinBank n ≠ none → mode ≠ 0 → ballDenied n mode → refused 7 [(F.SVC_STAT.DENIED, 1)]) ∧
    (mode ≠ 0 → ¬ ballDenied n mode → c0.pinPowered n = false → refused 5 [(F.SVC_STAT.NOBANK, 1)]) ∧
    (mode ≠ 0 → ¬ ballDenied n mode → c0.pinPowered n = true → (∀ o ∈ c0.pinOver, o.1 ≠ n) → 8 ≤ c0.pinOver.length →
      refused 4 [(F.SVC_STAT.DENIED, 1)]) ∧
    (mode ≠ 0 → ¬ ballDenied n mode → c0.pinPowered n = true → (∃ o ∈ c0.pinOver, o.1 = n) ∨ c0.pinOver.length < 8 →
      counted (others ++ [(n, mode)]) ∧ done)

end Sys2Proof.Claims

/-- R458, R461: the lines that report. HELP, SYS, STREAM and TRACK reply with their readings, FAULTS with the newest records, MON with its
source, RD with the words read; WR writes one. -/
def Sys2Proof.Claims.ConsoleReports : Prop :=
  ConsoleLine .help 1 false (fun _ c0 c => c = answers c0 1 0 (List.range 15)) ∧
  ConsoleLine .sys 2 false (fun _ c0 c => ∃ v : List Nat, v.length = 10 ∧ c = answers c0 2 0 v) ∧
  ConsoleLine .stream 3 false (fun _ c0 c => ∃ v : List Nat, v.length = 16 ∧ c = answers c0 3 0 v) ∧
  ConsoleLine .track 4 false (fun _ c0 c => ∃ v : List Nat, v.length = 17 ∧ c = answers c0 4 0 v) ∧
  (∀ n, ConsoleLine (.faults n) 5 false fun _ c0 c =>
    (n = 0 ∨ 64 < n → c = answers c0 5 4 []) ∧ (1 ≤ n → n ≤ 64 → ∃ v, c = answers c0 5 0 v)) ∧
  (∀ (src : Nat) (mv : Int), ConsoleLine (.mon src mv) 6 false fun _ c0 c =>
    (31 < src → c = answers c0 6 2 []) ∧
    (src ≤ 31 → FieldsSet [(F.SVC_MONSEL.SRC, src),
        (F.SVC_STAT.MONCLIP, if src ≠ 0 ∧ src < 12 ∧ (mv < 0 ∨ 1200 < mv) then 1 else 0)] c0 c ∧
      c = { answers c0 6 0 [] with regs := c.regs })) ∧
  (∀ (a : Word) (n bad : Nat), ConsoleLine (.rd a n bad) 9 false fun s c0 c =>
    (n = 0 ∨ 64 < n → c = answers c0 9 4 []) ∧
    (1 ≤ n → n ≤ 64 → let r := c0.busReads s.clk a.toNat bad n
      c = answers { r.1 with readData := r.2.1 } 9 0 (r.2.1.map (·.toNat)) ∧ r.2.1.length = n)) ∧
  ∀ a w : Word, ConsoleLine (.wr a w) 10 true fun s c0 c => c = answers (c0.busWrite s.clk a.toNat w) 10 0 []

/-- R459, R462 to R464: meter mode. A ball read, its overrides set and released, by the console and by SVC_PINCTL and SVC_CTRL.RELALL. -/
def Sys2Proof.Claims.MeterMode : Prop :=
  (∀ (n : Nat) (board : Bool), ConsoleLine (.pinRead n board) 7 false fun _ c0 c =>
    (pinBank n = none → c = answers c0 7 2 []) ∧
    (pinBank n ≠ none → ∃ v, v < 2 ∧ c.svc.out = c0.svc.out ++ [{ cmd := 7, err := 0, vals := [v] }] ∧ c.regs = c0.regs ∧
      (c0.pinPowered n = false → v = 0) ∧
      (c0.pinPowered n = true → c0.overMode n = some 1 → v = 0) ∧ (c0.pinPowered n = true → c0.overMode n = some 2 → v = 1) ∧
      (c0.pinPowered n = true → c0.overMode n = none → n < 64 → v = if board then 1 else 0))) ∧
  (∀ n, OverrideLine (.pinLo n) n 1) ∧ (∀ n, OverrideLine (.pinHi n) n 2) ∧ (∀ n, OverrideLine (.pinZ n) n 3) ∧
  (∀ n, OverrideLine (.pinRel n) n 0) ∧
  ∀ (s : State) (w : Word), s.core.coreOn = true →
    (s.core.fld F.SVC_STAT.SVCMODE = 0 → Leaves (.svcPinctlWrite w) s [(F.SVC_STAT.NOSVC, 1)] s.core) ∧
    (s.core.fld F.SVC_STAT.SVCMODE ≠ 0 → Yields (.svcPinctlWrite w) s fun c =>
      c.fld ⟨R.SVC_PINCTL, 31, 0⟩ = w.toNat % 4 ∧ RegsBut [R.SVC_PINCTL, R.SVC_STAT] s.core c ∧
      c = { s.core with regs := c.regs, pinOver := c.pinOver } ∧
      (w.toNat % 4 = 0 → pinBank (s.core.fld F.SVC_PINSEL.PIN) ≠ none →
        c.pinOver = s.core.pinOver.filter fun o => o.1 ≠ s.core.fld F.SVC_PINSEL.PIN)) ∧
    Leaves .relall s [(F.SVC_STAT.OVRCNT, 0)] { s.core with pinOver := [] }

/-- The console's reports, and the meter. Commands that complete here, `exec` answering the next state told under conditions on the state
and the operands alone: faults, mon, pinRead, pinHi, pinLo, pinZ, pinRel, rd, wr, svcPinctlWrite, help, sys, stream, track, relall. -/
def Obligations.ConsoleReportsAndMeter : Prop := Claims.ConsoleReports ∧ Claims.MeterMode

/-- R411, R458 to R460: service mode, STORE, the reboot, Ctrl-C and a line that is too long. Commands that complete here, `exec` answering
the next state told under conditions on the state and the operands alone: eddeugStore, serviceOn, serviceConfirm, serviceOff,
serviceTimeout, reboot, ctrlC, longLine. -/
def Obligations.ServiceModeAndConsoleControl : Prop :=
  ConsoleLine .serviceOn 14 false (fun s c0 c => c = answers { c0 with svc := { c0.svc with armed := some (now s) } } 14 0 []) ∧
  ConsoleLine .serviceConfirm 14 false (fun s c0 c =>
    let inTime := ∃ a, c0.svc.armed = some a ∧ now s ≤ a + 6553600000
    (inTime → c.fld F.SVC_STAT.SVCMODE = 1 ∧ RegsBut [R.SVC_STAT] c0 c ∧ c.svc.armed = none ∧
      c.svc.out = c0.svc.out ++ [{ cmd := 14, err := 0, vals := [] }]) ∧
    (¬ inTime → c = answers { c0 with svc := { c0.svc with armed := none } } 14 7 [])) ∧
  ConsoleLine .serviceOff 14 false (fun _ c0 c =>
    (c0.fld F.SVC_STAT.SVCMODE = 0 → c = answers c0 14 0 []) ∧
    (c0.fld F.SVC_STAT.SVCMODE ≠ 0 → c.fld F.SVC_STAT.SVCMODE = 0 ∧ c.pinOver = [] ∧ TsgLeft c ∧
      c.svc.out = c0.svc.out ++ [{ cmd := 14, err := 0, vals := [] }])) ∧
  ConsoleLine .eddeugStore 13 false (fun _ c0 c =>
    let r := c0.store (some { link := 2, seq := 0, crc := 0, cls := 0, id := 13 })
    (r.2.2 = true → c = answers r.1 13 0 [r.2.1]) ∧ (r.2.2 = false → c = r.1)) ∧
  (∀ s : State, ConsoleUp s →
    (s.core.fld F.SVC_STAT.SVCMODE ≠ 0 → s.core.conBusy = false → ∃ t, exec .reboot s = .next t ∧
      Restarted s InWhorl [R.PWR_SUPSTAT, R.PWR_RSTCAUSE] (resetKeeping s.core) t ∧ t.core.fld F.PWR_RSTCAUSE.CAUSE = 1) ∧
    (s.core.fld F.SVC_STAT.SVCMODE = 0 → s.core.conBusy = false → Yields .reboot s (· = answers (heard s) 15 3 [])) ∧
    (s.core.conBusy = true → exec .reboot s = .next { s with held := s.held ++ [.reboot] }) ∧
    (s.core.svc.test = none → Yields .ctrlC s (· = heard s)) ∧
    (∀ r, s.core.svc.test = some r → Yields .ctrlC s fun c => c.svc.test = none ∧
      c.svc.out = s.core.svc.out ++ [{ cmd := r.kind, err := 6, vals := [] }]) ∧
    Yields .longLine s (· = answers { heard s with svc := { (heard s).svc with line := [], tooLong := false } } 0 1 [])) ∧
  ∀ s : State, s.core.coreOn = true →
    let off := s.core.svc.lastInput + 1179648000000 ≤ now s ∧ s.core.fld F.SVC_STAT.SVCMODE ≠ 0
    (¬ off → Leaves .serviceTimeout s [] s.core) ∧
    (off → Yields .serviceTimeout s fun c => c.fld F.SVC_STAT.SVCMODE = 0 ∧ c.pinOver = [] ∧ TsgLeft c)

/-- R465: the self-tests that take no time, by what the device meets. -/
def Sys2Proof.Claims.QuickSelfTests : Prop :=
  (∀ mv : List Nat, mv.length = 7 → QuickTest (.testSupply mv) 32 false (fun _ =>
    ∀ x ∈ mv.zip [(760, 880), (1700, 3600), (1100, 3600), (1710, 1890), (1710, 1890), (1700, 3600), (1700, 3600)],
      x.2.1 ≤ x.1 ∧ x.1 ≤ x.2.2) mv) ∧
  (∀ (lockA lockB : Bool) (a b : Nat) (ppm : Int), QuickTest (.testPll lockA lockB a b ppm) 33 false (fun _ =>
    lockA = true ∧ lockB = true ∧ 300 ≤ a ∧ a ≤ 900 ∧ 300 ≤ b ∧ b ≤ 900 ∧ -15000 ≤ ppm ∧ ppm ≤ 15000) [a, b, unsignedOf 32 ppm]) ∧
  (∀ same : Bool, QuickTest (.testHank same) 38 false (fun _ => same = true) []) ∧
  (∀ corr unc, QuickTest (.testNvm corr unc) 39 false (fun s => unc = 0 ∧ s.core.fld F.NVM_SPOOL.MOUNTED ≠ 0) [corr, unc]) ∧
  (∀ sha ecdsa : Bool, QuickTest (.testFacet sha ecdsa) 40 false (fun _ => sha = true ∧ ecdsa = true) []) ∧
  ∀ (got : Nat) (errs : Bool), QuickTest (.testUart0 got errs) 43 true (fun _ => got = 256 ∧ errs = false) [got]

/-- R465, R466: the self-tests that run begin on their line and end at an end of their own, which frees the console. -/
def Sys2Proof.Claims.RunningSelfTests : Prop :=
  let any := fun (_ : State) (_ : RunTest) => True
  (∀ n : Fin 8, ConsoleLine (.testLvds n false) 34 true (fun s c0 c => c = began (c0.train (2 ^ n.val)) s 34 n 0 none) ∧
    TestEnds (.testLvds n true) 34 n (fun s _ => s.core.fld (F.BOB_LVDS_STAT.STATE n) ≠ 1)
      (fun s _ => s.core.fld (F.BOB_LVDS_STAT.STATE n) = 2 ∧ 32 ≤ s.core.fld (F.BOB_LVDS_STAT.EYEMIN n))) ∧
  (∀ (k : Fin 8) (good : Bool), ConsoleLine (.testSkein k false good) 35 true (fun s c0 c => c = began c0 s 35 k 0 none) ∧
    TestEnds (.testSkein k true good) 35 k any (fun _ _ => good = true)) ∧
  (∀ good : Bool, ConsoleLine (.testLoupe false good) 36 true (fun s c0 c => c = began c0 s 36 0 0 none) ∧
    TestEnds (.testLoupe true good) 36 0 any (fun _ _ => good = true)) ∧
  (∀ (pidx : Nat) (pk : Int) (peak second : Nat), ConsoleLine (.testPrism false pidx pk peak second) 37 false (fun s c0 c =>
      let none' := s.core.longestPrism = 0 ∨ (s.core.submitRefusal 0).isSome = true
      (none' → c = answers c0 37 7 []) ∧
      (¬ none' → c.svc.test = some
        { kind := 37, arg := 0, start := now s, base := 0, tag := s.core.freeTag, kept := s.core.tsgForce })) ∧
    TestEnds (.testPrism true pidx pk peak second) 37 0 any (fun _ _ => pidx = 1234 ∧ pk = 0 ∧ 20 * second ≤ peak)) ∧
  (∀ good : Bool, ConsoleLine (.testWhorl false good) 41 false (fun s c0 c => c = began c0 s 41 0 s.core.whl.count none) ∧
    TestEnds (.testWhorl true good) 41 0 (fun s r => r.start + 6553600000 ≤ now s)
      (fun s _ => good = true ∧ s.core.fld F.WHL_TRUST.SUM = 0 ∧ 1100 ≤ s.core.whl.vbat)) ∧
  (∀ n : Fin 8, ConsoleLine (.testReel n false) 42 true (fun s c0 c => c = began c0 s 42 n s.core.fly.evCount[n] none) ∧
    ∀ s : State, s.core.coreOn = true → ∀ r, s.core.svc.test = some r → r.kind = 42 → r.arg = n →
      (now s < r.start + 655360000 → Leaves (.testReel n true) s [] s.core) ∧
      (r.start + 655360000 ≤ now s → Yields (.testReel n true) s fun c => c.svc.test = none ∧
        c.reg R.FLY_EVCFG = s.core.reg R.FLY_EVCFG)) ∧
  (∀ k, ConsoleLine (.testMirror k false) 44 true (fun s c0 c =>
      (9 < k → c = answers c0 44 4 []) ∧
      (k ≤ 9 → c = began { c0 with mir := { c0.mir with inj := some (k, 1) } } s 44 k (s.core.fld F.MIR_CNT.ROLLBACK) none)) ∧
    TestEnds (.testMirror k true) 44 k (fun s _ => s.core.mir.inj = none ∧ s.core.fld F.MIR_STAT.REC = 0)
      (fun s r => s.core.fld F.MIR_CNT.ROLLBACK = r.base + 1 ∧ (s.core.reg R.MIR_FAULT).toNat / 2 ^ 28 = 1 ∧
        s.core.fld F.MIR_IRQ.RECOV ≠ 0)) ∧
  (∀ (n : Fin 8) (good : Bool), ConsoleLine (.testTsg n false good) 45 true (fun s c0 c =>
      let sealed := bitOf (c0.fld F.PLAN_CMTSTAT.SEAL) 13 = true
      (sealed → c = answers c0 45 7 []) ∧
      (¬ sealed → c.reg R.TSG_SUB = BitVec.ofNat 32 (2 ^ n.val) ∧
        c.svc.test = some { kind := 45, arg := n, start := now s, base := 0, tag := none, kept := s.core.tsgForce })) ∧
    TestEnds (.testTsg n true good) 45 n any (fun _ _ => good = true)) ∧
  ∀ (mask i : Nat) (ws : List Word), ConsoleLine (.tsg mask i ws) 12 true fun _ c0 c =>
    let bad := 15 < i ∨ 255 < mask ∨ ws.length ≠ 8
    let sealed := bitOf (c0.fld F.PLAN_CMTSTAT.SEAL) 13 = true
    (bad → c = answers c0 12 4 []) ∧ (¬ bad → sealed → c = answers c0 12 7 []) ∧
    (¬ bad → ¬ sealed → c.reg R.TSG_SUB = BitVec.ofNat 32 mask ∧ c.reg (R.TSG_SIG_W0 i) = wordOf ws 0 ∧
      c.reg (R.TSG_SIG_W7 i) = wordOf ws 7 ∧ 13 ∈ c.plan.touched ∧
      c.svc.out = c0.svc.out ++ [{ cmd := 12, err := 0, vals := [] }])

/-- The self-tests that end at once, and those that run. Commands that complete here, `exec` answering the next state told under
conditions on the state and the operands alone: testSupply, testPll, testLvds, testSkein, testLoupe, testPrism, testHank, testNvm,
testFacet, testWhorl, testReel, testUart0, testMirror, testTsg, tsg. -/
def Obligations.SelfTests : Prop := Claims.QuickSelfTests ∧ Claims.RunningSelfTests

/-! ### Whorl -/

namespace Sys2Proof.Claims
open Sys2Proof.Machine

/-- SUM follows the trust flags, and its change raises TRUST (R375). -/
def TrustFollows (c0 c : Core) : Prop :=
  let f := fun (x : Fld) => c.fld x ≠ 0
  (f F.WHL_TRUST.OSF ∨ f F.WHL_TRUST.BOR → c.fld F.WHL_TRUST.SUM = 2) ∧
  (¬ f F.WHL_TRUST.OSF → ¬ f F.WHL_TRUST.BOR → c.fld F.WHL_TRUST.SUM = if f F.WHL_TRUST.LBV then 1 else 0) ∧
  (c.fld F.WHL_TRUST.SUM = c0.fld F.WHL_TRUST.SUM ∨ c.fld F.WHL_IRQ.TRUST = 1)

/-- An event of the Whorl domain: it comes in every power state, and nothing follows it. -/
def WhorlEvent (i : Instr) (s : State) (P : Core → Prop) : Prop := ∃ c, exec i s = .next (s.put c) ∧ P c

/-- OSF is set, no crystal edge having come since (R373). -/
def OsfSet (c0 c : Core) : Prop :=
  c.fld F.WHL_TRUST.OSF = 1 ∧ c.whl = { c0.whl with alive := false } ∧ TrustFollows c0 c ∧
  (∀ f ∈ [F.WHL_TRUST.SWO, F.WHL_TRUST.BOR, F.WHL_TRUST.LBV], c.fld f = c0.fld f) ∧
  RegsBut [R.WHL_TRUST, R.WHL_IRQ] c0 c ∧ c = { c0 with regs := c.regs, whl := c.whl }

/-- The count an edge works from, with the bits of its two copies that have flipped, and whether it is invalid (R370). -/
def edgeBase (w : WhlSt) (hitA hitB : BitVec 48) : Nat × Prop :=
  let a := w.cntA ^^^ hitA.toNat
  let b := w.cntB ^^^ hitB.toNat
  let odd := fun (x : BitVec 48) => ((List.range 48).filter x.toNat.testBit).length % 2 = 1
  (if odd hitA ∧ ¬ odd hitB then b else if odd hitB ∧ ¬ odd hitA then a else max a b,
   (odd hitA ∧ odd hitB) ∨ (¬ odd hitA ∧ ¬ odd hitB ∧ a ≠ b))

/-- How far an edge moves the count, and ACC after it (R377). -/
def edgeStep (acc : Int) : Nat × Int :=
  if 65536 ≤ acc then (2, acc - 65536) else if acc ≤ -65536 then (0, acc + 65536) else (1, acc)

/-- The edge is a day boundary (R380): the count reaches or passes the day phase. -/
def DayEdge (w : WhlSt) (hitA hitB : BitVec 48) : Prop :=
  ∃ i, i < (edgeStep w.acc).1 ∧ ((edgeBase w hitA hitB).1 + i + 1) % 2 ^ 48 % 2831155200 = w.phase

/-- The crystal's error in 0.01 ppm at a temperature in 0.1 °C (R376). -/
def crystalError (curve : List Int) (offset temp : Int) : Rat :=
  let t := max (-400) (min 1200 temp)
  let i := min 31 ((t + 400) / 50).toNat
  let p := curve.getD i 0
  (p : Rat) + ((curve.getD (i + 1) 0 - p : Int) : Rat) * (((t + 400 - 50 * (i : Int) : Int) : Rat) / 50) + (offset : Rat)

end Sys2Proof.Claims

/-- R369 to R372, R377, R380: a crystal edge. The count moves by one, or by two or none as ACC says; one damaged copy is mended from the
other, and an invalid count sets OSF and CNTERR and goes on from the higher copy; the shadow follows; a waiting write arrives at its
second edge; a day boundary moves the weekday. -/
def Sys2Proof.Claims.CrystalEdges : Prop :=
  ∀ (s : State) (hitA hitB : BitVec 48),
    let w := s.core.whl
    let base := edgeBase w hitA hitB
    let n := (base.1 + (edgeStep w.acc).1) % 2 ^ 48
    let day := DayEdge w hitA hitB
    WhorlEvent (.whorlTick hitA hitB) s (fun c =>
      c.whl.cntA = n ∧ c.whl.cntB = n ∧ c.whl.acc = (edgeStep w.acc).2 ∧ c.whl.edges = w.edges + 1 ∧
      (base.2 → c.fld F.WHL_TRUST.OSF = 1 ∧ c.fld F.WHL_STAT.CNTERR = 1 ∧ c.fld F.WHL_IRQ.CNTERR = 1 ∧ c.whl.alive = false ∧
        (s.core.coreOn = true → c.fld F.MIR_ECC.MEM = 9 ∧ c.fld F.MIR_IRQ.ECCU = 1 ∧
          c.fld F.MIR_ECC.UNCORR = min 255 (s.core.fld F.MIR_ECC.UNCORR + 1))) ∧
      (¬ base.2 → c.whl.alive = true ∧ c.reg R.WHL_TRUST = s.core.reg R.WHL_TRUST) ∧
      (day → c.fld F.WHL_IRQ.DAY = 1) ∧
      (w.pend = [] → (day → c.whl.wday = (w.wday + 1) % 7) ∧ (¬ day → c.whl.wday = w.wday) ∧ c.fld F.WHL_STAT.WPEND = 0) ∧
      (∀ v, w.pend = [(R.WHL_WDAY, v, 1)] → c.whl.wday = v ∧ c.whl.pend = [] ∧ c.fld F.WHL_STAT.WPEND = 0) ∧
      (∀ v, w.pend = [(R.WHL_OFFSET, v, 1)] → c.whl.offset = signedOf 16 v ∧ c.whl.pend = []) ∧
      (∀ a v, w.pend = [(a, v, 2)] → c.whl.pend = [(a, v, 1)] ∧ c.fld F.WHL_STAT.WPEND = 1) ∧
      (s.core.coreOn = true → c.whl.shCnt = n ∧ c.whl.shWday = c.whl.wday ∧
        c.whl.shTs = if 6 ≤ s.core.fld F.SYS_BOOT.STAGE then 81920 * s.clk.epoch + s.clk.fc / 8 else 0) ∧
      RegsBut ([R.WHL_ACC, R.WHL_STAT, R.WHL_IRQ, R.WHL_TRUST] ++ if s.core.coreOn then [R.MIR_ECC, R.MIR_IRQ] else []) s.core c ∧
      c = { s.core with regs := c.regs, whl := c.whl }) ∧
    (¬ day → exec (.dayBoundary hitA hitB) s = .next s) ∧
    (day → exec (.dayBoundary hitA hitB) s = exec (.whorlTick hitA hitB) s)

/-- R373 to R375, R384, R385: the crystal's stop and SETOSF set OSF; a brown-out loses the domain; a clear of a trust flag is refused
where its cause still stands; the charger stops at CLAMP. -/
def Sys2Proof.Claims.WhorlTrust : Prop :=
  (∀ s : State, WhorlEvent .oscillatorStop s (OsfSet s.core) ∧ (s.core.coreOn = true → Yields .setosf s (OsfSet s.core)) ∧
    WhorlEvent .whorlBrownOut s (fun c =>
      (c.whl.cntA = 0 ∧ c.whl.cntB = 0 ∧ c.whl.acc = 0 ∧ c.whl.wday = 0 ∧ c.whl.phase = 0 ∧ c.whl.offset = 0 ∧ c.whl.chg = 0 ∧
        c.whl.curve = List.replicate 33 0 ∧ c.whl.alive = false) ∧
      c.fld F.WHL_TRUST.BOR = 1 ∧ c.fld F.WHL_TRUST.OSF = 1 ∧ c.fld F.WHL_TRUST.SUM = 2 ∧ c.fld F.WHL_STAT.SRC = s.core.fld F.WHL_STAT.SRC ∧
      (∀ a, a ∉ [R.WHL_STAT, R.WHL_TRUST, R.WHL_IRQ] → c.reg a = if 0x4000B000 ≤ a ∧ a < 0x4000B100 then coreReset.reg a else s.core.reg a) ∧
      (∀ b, 0x4000B100 ≤ b → b < 0x4000B200 → c.mem.read b = 0) ∧
      (∀ b, b < 0x4000B100 ∨ 0x4000B200 ≤ b → c.mem.read b = s.core.mem.read b) ∧
      c = { s.core with regs := c.regs, whl := c.whl, mem := c.mem }) ∧
    (let r := s.core.whl.chg % 8
     let clamp := match s.core.whl.chg / 16 % 4 with | 0 => 2500 | 1 => 3000 | _ => 3300
     let on := s.core.fld F.WHL_STAT.SRC = 0 ∧ 1 ≤ r ∧ r ≤ 4 ∧ s.core.whl.vbat < clamp
     LeavesAlways .chargerClamp s [] (if on then { s.core with whl := { s.core.whl with vbat := clamp } } else s.core))) ∧
  ∀ (s : State) (w : Word), s.core.coreOn = true →
    let limit := match s.core.whl.lbth % 4 with | 0 => 1300 | 1 => 1500 | 2 => 1800 | _ => 2200
    let low := s.core.fld F.WHL_STAT.SRC ≠ 0 ∧ s.core.whl.vbat < limit
    let cleared := fun (f : Fld) (ok : Prop) (c : Core) =>
      (w.getLsbD f.lo = true ∧ ok → c.fld f = 0) ∧ (¬ (w.getLsbD f.lo = true ∧ ok) → c.fld f = s.core.fld f)
    Yields (.whlTrustClear w) s fun c =>
      cleared F.WHL_TRUST.SWO True c ∧ cleared F.WHL_TRUST.BOR True c ∧ cleared F.WHL_TRUST.LBV (¬ low) c ∧
      cleared F.WHL_TRUST.OSF (s.core.whl.alive = true) c ∧ TrustFollows s.core c ∧ RegsBut [R.WHL_TRUST, R.WHL_IRQ] s.core c ∧
      c = { s.core with regs := c.regs }

/-- R372, R378, R380, R384: writes into the Whorl domain wait for their second edge; a malformed one is discarded with BADW; a curve goes
whole with CURVLD. -/
def Sys2Proof.Claims.WhorlWrites : Prop :=
  ∀ (s : State) (w : Word) (day : BitVec 3), s.core.coreOn = true →
    let sent := fun (a v : Nat) => ({ s.core with whl := { s.core.whl with pend := s.core.whl.pend.filter (·.1 ≠ a) ++ [(a, v, 2)] } } : Core)
    let v := w.toNat % 8 + 16 * (w.toNat / 16 % 8)
    (day = 7 → Leaves (.whlWdaySet day) s [(F.WHL_STAT.BADW, 1)] s.core) ∧
    (day ≠ 7 → Leaves (.whlWdaySet day) s [(F.WHL_STAT.WPEND, 1)] (sent R.WHL_WDAY day.toNat)) ∧
    (w.toNat / 2 ^ 24 ≠ 0xC4 → Leaves (.whlChgWrite w) s [(F.WHL_STAT.BADW, 1)] s.core) ∧
    (w.toNat / 2 ^ 24 = 0xC4 → Leaves (.whlChgWrite w) s [(⟨R.WHL_CHG, 31, 0⟩, v), (F.WHL_STAT.WPEND, 1)] (sent R.WHL_CHG v)) ∧
    Yields .curvld s fun c => ∃ pts : List Int, pts.length = 33 ∧
      (∀ i : Fin 33, pts[i.val]? = some (if i.val % 2 = 0 then ((s.core.reg (R.WHL_CURVE (i / 2))).extractLsb' 0 16).toInt
        else ((s.core.reg (R.WHL_CURVE (i / 2))).extractLsb' 16 16).toInt)) ∧
      FieldsSet [(F.WHL_STAT.CURVPEND, 1)] s.core c ∧
      c = { s.core with regs := c.regs, whl := { s.core.whl with curveNext := some pts } }

/-- The trust flags, the loss of the domain, and writes into it. Commands that complete here, `exec` answering the next state told under
conditions on the state and the operands alone: whlTrustClear, whlWdaySet, whlChgWrite, oscillatorStop, whorlBrownOut, setosf, curvld,
chargerClamp. -/
def Obligations.WhorlTrustAndWrites : Prop := Claims.WhorlTrust ∧ Claims.WhorlWrites

/-- R376: a compensation update, once per 32,768 edges on VMAIN and 262,144 on VBAT: it takes a waiting curve, forms K from the error at
the temperature, adds K × S to ACC, and tests VBAT. -/
def Sys2Proof.Claims.RateCompensation : Prop :=
  ∀ (s : State) (temp : Int) (vbat : Nat),
    let w := s.core.whl
    let vb := s.core.fld F.WHL_STAT.SRC ≠ 0
    let due := (if vb then 262144 else 32768) ≤ w.edges
    let curve := w.curveNext.getD w.curve
    let k := roundRat (-(crystalError curve w.offset temp) * 2147483648 / 100000000)
    let limit := match w.lbth % 4 with | 0 => 1300 | 1 => 1500 | 2 => 1800 | _ => 2200
    (¬ due → exec (.compensationUpdate temp vbat) s = .next s) ∧
    (due → WhorlEvent (.compensationUpdate temp vbat) s fun c =>
      c.whl = { w with curve := curve, curveNext := none, k := k, edges := 0, vbat := vbat,
                       acc := w.acc + roundRat ((k : Rat) * ((w.edges : Rat) / 32768)) } ∧
      c.fld F.WHL_STAT.CURVPEND = 0 ∧ c.fld F.WHL_TEMP.TEMP = unsignedOf 16 temp ∧
      (vb ∧ vbat < limit → c.fld F.WHL_TRUST.LBV = 1 ∧ TrustFollows s.core c) ∧
      (¬ (vb ∧ vbat < limit) → c.reg R.WHL_TRUST = s.core.reg R.WHL_TRUST) ∧
      RegsBut [R.WHL_STAT, R.WHL_TEMP, R.WHL_CORR, R.WHL_ACC, R.WHL_TRUST, R.WHL_IRQ] s.core c ∧
      c = { s.core with regs := c.regs, whl := c.whl })

/-- A crystal edge, and the compensation of its rate. Commands that complete here, `exec` answering the next state told under conditions
on the state and the operands alone: whorlTick, compensationUpdate, dayBoundary. -/
def Obligations.WhorlCountsAndRate : Prop := Claims.CrystalEdges ∧ Claims.RateCompensation

/-- R381, R382: backup RAM, and the anchor record that Distaff writes while LOCKED with an uncertainty under 1,000 ns, once an hour: the
older one, or the one that is not valid, with the next sequence number. Commands that complete here, `exec` answering the next state told
under conditions on the state and the operands alone: backupRamAccess, anchorWrite. -/
def Obligations.BackupRamAndAnchors : Prop :=
  ∀ s : State, s.core.coreOn = true →
    (∀ (n : Fin 64) (w : Word) (bad : Bool),
      let a := 0x4000B100 + 4 * n.val
      Yields (.backupRamAccess n (some w) bad) s (fun c => c.mem.word a = w ∧
        (∀ b, b < a ∨ a + 4 ≤ b → c.mem.read b = s.core.mem.read b) ∧ c = { s.core with mem := c.mem }) ∧
      Reads (.backupRamAccess n none false) s (s.core.mem.word a) (fun c => c = { s.core with readData := c.readData }) ∧
      Reads (.backupRamAccess n none true) s (s.core.mem.word a) fun c =>
        FieldsSet [(F.WHL_STAT.BRERR, 1), (F.WHL_IRQ.BRERR, 1)] s.core c ∧ c = { s.core with regs := c.regs, readData := c.readData }) ∧
    (let now := 655360 * s.clk.epoch + s.clk.fc
     let locked := s.core.fld F.FLY_STAT.STATE = 1 ∧ s.core.fld F.FLY_UNC.UNC < 1000 ∧
       ∀ w, s.core.fly.anchored = some w → w + 3600 * 655360000 ≤ now
     let i := match s.core.validAnchor with | some k => 1 - k | none => 0
     let seq := match s.core.validAnchor with | some k => (anchorSeq (s.core.anchor k) + 1) % 65536 | none => 0
     let a := 0x4000B100 + 32 * i
     (¬ locked → Leaves .anchorWrite s [] s.core) ∧
     (locked → Yields .anchorWrite s fun c => c.mem.readLe a 6 = s.core.whl.shCnt % 2 ^ 48 ∧ c.mem.readLe (a + 6) 2 = seq ∧
       c.mem.readLe (a + 16) 4 = s.core.fld F.FLY_UNC.UNC ∧
       c.mem.readLe (a + 28) 4 = (crc32 (c.mem.reads a 28)).toNat ∧
       (∀ b, b < a ∨ a + 32 ≤ b → c.mem.read b = s.core.mem.read b) ∧
       c = { s.core with mem := c.mem, fly := { s.core.fly with anchored := some now } }))

/-! ### Start-up, sets and the register bus -/

namespace Sys2Proof.Claims
open Sys2Proof.Machine

/-- Start-up holds at a step, with a code (R469, R472, R473), and no epoch begins. -/
def HoldsAt (i : Instr) (s : State) (stage code : Nat) : Prop :=
  ∃ c, exec i s = .next (s.put c) ∧ c.fld F.SYS_BOOT.STAGE = stage ∧ c.fld F.SYS_BOOT.CODE = code

/-- Start-up reaches its first epoch, at the epoch set for it; one after a wake resumes its index first (R361). -/
def Begins (i : Instr) (s : State) : Prop :=
  ∃ t, exec i s = .next t ∧ t.clk.fc = 0 ∧ (s.core.saved = none → t.clk.epoch = s.core.boot.first) ∧ t.pending = s.pending

/-- The state of the set that a frame leaves (R478, R482), and its count of losses. -/
def SetMoves (s : State) (st : Nat) (c : Core) : Prop :=
  c.fld F.SET_STAT.STATE = st ∧ c.fld F.SET_IRQ.STATE = 1 ∧
  (st = 5 → c.fld F.SET_STAT.LOSS = min 255 (s.core.fld F.SET_STAT.LOSS + 1) ∧ c.fld F.SET_IRQ.SYNCLOST = 1) ∧
  (st = 6 → c.fld F.SET_IRQ.MISMATCH = 1)

end Sys2Proof.Claims

/-- R469, R471 to R473, R76: the start-up of a device on its own that boots the ROM default image: its first epoch begins, or it holds
with NOREF or NOLOCK until a retry succeeds. Host download waits for its image. Commands that complete here, `exec` answering the next
state told under conditions on the state and the operands alone: startUp, refclkDetectRetry, pllLockRetry. -/
def Obligations.StartUpReachesItsFirstEpoch : Prop :=
  (∀ (s : State) (env : BootEnv),
    let ready := s.core.fld F.SYS_BOOT.STAGE = 2 ∧ s.core.coreOn = true ∧ s.core.fld F.PWR_SUPSTAT.OK % 8 = 7
    let straps := if s.core.fld F.PWR_RSTCAUSE.CAUSE ≤ 2 then env.straps else (s.core.reg R.SET_STRAP).toNat
    let rom := bitOf straps 3 = true
    let alone := straps % 4 = 0
    let known := straps / 16 % 8 ≤ 4 ∨ env.ref ≠ none
    let locks := env.lockA = true ∧ env.lock = true
    (¬ ready → exec (.startUp env) s = .next s) ∧
    (ready → rom → ¬ known → HoldsAt (.startUp env) s 4 1) ∧
    (ready → rom → known → ¬ locks → HoldsAt (.startUp env) s 5 2) ∧
    (ready → straps / 4 % 4 = 1 → HoldsAt (.startUp env) s 4 3) ∧
    (ready → rom → known → locks → ¬ alone → ∃ c, exec (.startUp env) s = .next (s.put c) ∧
      c.fld F.SYS_BOOT.STAGE = 9 ∧ c.fld F.SET_STAT.STATE = 2) ∧
    (ready → rom → known → locks → alone → Begins (.startUp env) s)) ∧
  ∀ (s : State) (f : Option Nat) (ok : Bool) (img : Image) (src : ImageSrc), s.core.coreOn = true →
    (s.core.fld F.SYS_BOOT.CODE ≠ 1 → exec (.refclkDetectRetry f) s = .next s) ∧
    (s.core.fld F.SYS_BOOT.CODE ≠ 2 → exec (.pllLockRetry ok) s = .next s) ∧
    (s.core.fld F.SYS_BOOT.CODE = 1 → s.core.boot.cand = some (img, src) → 5 ≤ s.core.fld F.SET_STRAP.REFSEL → img.has .syscfg = false →
      (f = none → HoldsAt (.refclkDetectRetry f) s 4 1) ∧
      (∀ k, f = some k → k < 8 → s.core.boot.env.lockA = false ∨ s.core.boot.env.lock = false →
        ∃ c, exec (.refclkDetectRetry f) s = .next (s.put c) ∧
        c.fld F.SYS_BOOT.REFACT = k ∧ c.fld F.SYS_BOOT.REFDET = 1 ∧ c.fld F.SYS_BOOT.STAGE = 5 ∧ c.fld F.SYS_BOOT.CODE = 2)) ∧
    (s.core.fld F.SYS_BOOT.CODE = 2 →
      (ok = false → HoldsAt (.pllLockRetry ok) s 5 2) ∧
      (ok = true → s.core.boot.cand = some (img, src) → s.core.fld F.SET_STRAP.SET_ID = 0 → Begins (.pllLockRetry ok) s) ∧
      (ok = true → s.core.boot.cand = some (img, src) → s.core.fld F.SET_STRAP.SET_ID ≠ 0 → ∃ c,
        exec (.pllLockRetry ok) s = .next (s.put c) ∧ c.fld F.SYS_BOOT.STAGE = 9 ∧ c.fld F.SET_STAT.STATE = 2 ∧ c.bob.sclk = true))

/-- R476 to R482: a follower joins a set at two good frames in a row, checks every later frame against its own count and never steps it; a
loss, a disagreement, a drift and a late join are shown. Commands that complete here, `exec` answering the next state told under
conditions on the state and the operands alone: epochSyncFrame, lateJoin, syncLoss. -/
def Obligations.FollowersOfASet : Prop :=
  ∀ (s : State) (count : BitVec 48) (crcOk training : Bool) (phase : Int), s.core.coreOn = true →
    let st := s.core.fld F.SET_STAT.STATE
    let go := exec (.epochSyncFrame count crcOk phase training) s
    let own := if 327680 ≤ s.clk.fc then s.clk.epoch + 1 else s.clk.epoch
    let agrees := count.toNat = own
    let far := 1525 < phase.natAbs
    let member := s.core.fld F.SET_STRAP.SET_ID ≠ 0
    let frame := fun (P : Core → Prop) => ∃ c, go = .next (s.put c) ∧ P c
    let begins := st = 3 ∧ s.core.boot.frames = 2
    (¬ member ∨ st < 2 → go = .next s) ∧
    (member → 2 ≤ st → ¬ begins → crcOk = false → frame fun c =>
      c.fld F.SET_STAT.CRCERR = min 255 (s.core.fld F.SET_STAT.CRCERR + 1) ∧ c.fld F.SET_STAT.STATE = st ∧ c.boot = s.core.boot) ∧
    (member → st = 2 → crcOk = true → frame fun c => SetMoves s 3 c ∧ c.boot = { s.core.boot with frames := 0 }) ∧
    (member → st = 3 → ¬ begins → crcOk = true → training = true → frame fun c => c.boot = s.core.boot ∧ c.fld F.SET_STAT.STATE = 3) ∧
    (member → st = 3 → ¬ begins → crcOk = true → training = false → frame fun c =>
      let good := phase.natAbs ≤ 381 ∧ (s.core.boot.frames = 0 ∨ count.toNat = s.core.boot.expect)
      (good → c.boot = { s.core.boot with frames := s.core.boot.frames + 1, expect := (count.toNat + 1) % 2 ^ 48 } ∧
        c.fld F.SET_STAT.STATE = 3) ∧
      (¬ good → SetMoves s 2 c ∧ c.boot.frames = 0)) ∧
    (∀ img src, member → begins → s.core.boot.cand = some (img, src) → ∃ t, go = .next t ∧
      t.clk = { epoch := s.core.boot.expect, fc := 0 } ∧ t.pending = s.pending) ∧
    (member → 3 ≤ st → ¬ begins → frame fun c =>
      c.reg R.SET_PHASE = BitVec.ofNat 32 (unsignedOf 32 phase) ∧ (far → c.fld F.SET_STAT.PHERR = 1 ∧ c.fld F.SET_IRQ.PHERR = 1)) ∧
    (member → 4 ≤ st → crcOk = true → frame fun c =>
      (st = 4 → agrees → c.boot = { s.core.boot with heard := true } ∧ c.fld F.SET_STAT.STATE = 4) ∧
      (st = 4 → ¬ agrees → SetMoves s 5 c) ∧
      (st = 5 → agrees → ¬ far → SetMoves s 4 c ∧ c.boot = { s.core.boot with heard := true, miss := 0 }) ∧
      (st = 5 → ¬ agrees ∨ far → SetMoves s 6 c) ∧ (st = 6 → c.fld F.SET_STAT.STATE = 6)) ∧
    (let late := member ∧ st < 4
     Leaves .lateJoin s (if late then [(F.SET_STAT.LATE, 1), (F.SET_IRQ.LATE, 1)] else []) s.core) ∧
    (let lost := st = 4 ∧ s.core.inForce F.SET_CFG.LOSSLIM ≤ s.core.boot.miss
     (¬ lost → Leaves .syncLoss s [] s.core) ∧
     (lost → Leaves .syncLoss s [(F.SET_STAT.STATE, 5), (F.SET_IRQ.STATE, 1), (F.SET_STAT.LOSS, min 255 (s.core.fld F.SET_STAT.LOSS + 1)),
       (F.SET_IRQ.SYNCLOST, 1)] s.core))

/-- R7, R42, R498, R499: writes on the register bus, by the type of the register's fields: RW takes the value, W1C clears the bits written
1, RO discards it, ST stages it where its group is not sealed; an address in no range is recorded. Commands that complete here, `exec`
answering the next state told under conditions on the state and the operands alone: registerWrite. -/
def Obligations.RegisterWritesByFieldType : Prop :=
  ∀ (s : State) (a w : Word), s.core.coreOn = true →
    let go := Instr.registerWrite a w
    (∀ x ∈ [(R.PLAN_IRQEN, 8), (R.MIR_IRQEN, 7)], a.toNat = x.1 →
      Leaves go s [(⟨x.1, x.2 - 1, 0⟩, w.toNat)] s.core) ∧
    (∀ x ∈ [(R.PLAN_IRQ, 8), (R.MIR_IRQ, 7)], a.toNat = x.1 → Yields go s fun c =>
      (∀ b, b < x.2 → (c.reg x.1).getLsbD b = ((s.core.reg x.1).getLsbD b && !w.getLsbD b)) ∧ RegsBut [x.1] s.core c ∧
      c = { s.core with regs := c.regs }) ∧
    (a.toNat = R.SYS_ID → Leaves go s [] s.core) ∧
    (∀ r ∈ [R.FLY_UNCLIM, R.FLY_SLEW], a.toNat = r →
      (bitOf (s.core.fld F.PLAN_CMTSTAT.SEAL) 12 = true → Leaves go s
        [(F.PLAN_CMTERR.SEALWR, 1), (F.PLAN_CMTERR.SEALGRP, 12), (F.PLAN_IRQ.SEALWR, 1)] s.core) ∧
      (bitOf (s.core.fld F.PLAN_CMTSTAT.SEAL) 12 = false → Yields go s fun c => c.reg r = w ∧ 12 ∈ c.plan.touched ∧
        RegsBut [r] s.core c ∧ c = { s.core with regs := c.regs, plan := c.plan })) ∧
    (0x40015000 ≤ a.toNat ∨ a.toNat % 4 ≠ 0 → Yields go s fun c =>
      c.fld F.SYS_UNMAP.COUNT = min 65535 (s.core.fld F.SYS_UNMAP.COUNT + 1) ∧ c.fld F.SYS_UNMAP.VALID = 1 ∧
      (s.core.fld F.SYS_UNMAP.VALID = 0 → c.reg R.SYS_UNMAPADDR = a ∧ c.fld F.SYS_UNMAP.WR = 1) ∧
      RegsBut [R.SYS_UNMAP, R.SYS_UNMAPADDR] s.core c ∧ c = { s.core with regs := c.regs })

/-! ### The epoch, its slots, and what applies at its boundary -/

namespace Sys2Proof.Claims
open Sys2Proof.Machine

/-- Epochs run: start-up has reached its last step and the core is powered. -/
def Runs (s : State) : Prop := s.core.fld F.SYS_BOOT.STAGE = 10 ∧ s.core.coreOn = true

/-- The last fc of the half-epoch under way. -/
def lastOfHalf (s : State) : Nat := if s.clk.fc < 327680 then 327679 else 655359

/-- The periods in epochs of the sixteen period codes (R30). -/
def periods : List Nat := [1, 2, 4, 5, 8, 10, 20, 25, 40, 50, 100, 125, 200, 250, 500, 1000]

/-- A slot may start now: it occurs in this epoch (R30), its START lies ahead in the half-epoch under way, and it has not started. -/
def MayStart (s : State) (i : Nat) (e : SlotEntry) : Prop :=
  s.clk.epoch % 1000 % periods.getD e.period 1 = e.phase ∧ s.clk.fc ≤ e.start ∧ e.start ≤ lastOfHalf s ∧
  s.core.plan.opened.all (· ≠ { slot := i, epoch := s.clk.epoch }) = true ∧ s.core.pwr.still = false

/-- The values that FLY_CFG to FLY_SLEW may take together (R294): reserved bits and codes, and ranges. -/
def Group12Rsv (c : Core) : Prop := bits (c.reg R.FLY_CFG) 31 24 ≠ 0 ∨ bits (c.reg R.FLY_CFG) 3 2 ≠ 0 ∨ c.fld F.FLY_CFG.HOLDACT = 3
def Group12Range (c : Core) : Prop :=
  c.fld F.FLY_CFG.HOLDDLY = 0 ∨ c.fld F.FLY_CFG.ACCLIM = 0 ∨ c.fld F.FLY_CFG.RETN = 0 ∨ c.reg R.FLY_HOLDLIM = 0 ∨ c.reg R.FLY_UNCLIM = 0 ∨
  c.reg R.FLY_STEPTHR = 0 ∨ 1000000 < (c.reg R.FLY_STEPTHR).toNat ∨ c.reg R.FLY_SLEW = 0 ∨ 100000 < (c.reg R.FLY_SLEW).toNat

end Sys2Proof.Claims

/-- R24, R26, R314: the epoch boundary comes after the check point of mid-epoch and moves the epoch counter on by one; each raises its
flag. Neither comes while epochs do not run, nor out of its half. Commands that complete here, `exec` answering the next state told under
conditions on the state and the operands alone: epochBoundary, checkPoint. -/
def Obligations.BoundariesEndTheirHalves : Prop :=
  ∀ (s : State) (inp : HalfInput),
    (¬ (Runs s ∧ 327680 ≤ s.clk.fc) → exec (.epochBoundary inp) s = .next s) ∧
    (Runs s → 327680 ≤ s.clk.fc → ∃ c, c.fld F.PLAN_IRQ.EPOCH = 1 ∧
      exec (.epochBoundary inp) s = .next { s with clk := { epoch := s.clk.epoch + 1, fc := 0 }, core := c }) ∧
    (¬ (Runs s ∧ s.clk.fc < 327680) → exec (.checkPoint inp) s = .next s) ∧
    (Runs s → s.clk.fc < 327680 → ∃ c, c.fld F.PLAN_IRQ.HALF = 1 ∧
      exec (.checkPoint inp) s = .next { s with clk := { epoch := s.clk.epoch, fc := 327680 }, core := c })

/-- R30, R38, R39: a slot's owner starts on the slot's START fc in the epochs in which it occurs, once; an owner still running at the
slot's last fc is stopped there, with OVRUN, as a lockstep fault. A PORT slot's start changes nothing but what time brings, which starts
the slots due before it. Commands that complete here, `exec` answering the next state told under conditions on the state and the operands
alone: slotStart, slotOverrun. -/
def Obligations.SlotsStartAndStop : Prop :=
  ∀ (s : State) (i : Nat) (bad : Option Nat),
    let here : OpenSlot := { slot := i, epoch := s.clk.epoch }
    (s.core.slots[i]? = none → exec (.slotStart i bad) s = .next s ∧ exec (.slotOverrun i) s = .next s) ∧
    ∀ e, s.core.slots[i]? = some e →
      (¬ (Runs s ∧ MayStart s i e) → exec (.slotStart i bad) s = .next s) ∧
      (Runs s → MayStart s i e → ∃ c, exec (.slotStart i bad) s = .next { s with clk := { epoch := s.clk.epoch, fc := e.start }, core := c } ∧
        here ∈ c.plan.opened ∧ (e.kind = 6 →
          let c0 := ((s.core.moveTo s.clk e.start).dozeSettle s.clk.epoch).passTo { s.clk with fc := e.start } e.start
          c = { c0 with plan := { c0.plan with opened := c0.plan.opened ++ [here] } })) ∧
      (let stops := Runs s ∧ here ∈ s.core.plan.opened ∧ s.clk.fc ≤ e.last ∧ e.last ≤ lastOfHalf s
       (¬ stops → exec (.slotOverrun i) s = .next s) ∧
       (stops → ∃ c, exec (.slotOverrun i) s = .next { s with clk := { epoch := s.clk.epoch, fc := e.last }, core := c } ∧
         c.fld F.PLAN_STAT.OVRUN = 1 ∧ c.fld F.PLAN_IRQ.OVRUN = 1 ∧ c.fld F.MIR_IRQ.FAULT = 1 ∧ c.fld F.MIR_STAT.SUPP = 1 ∧
         c.fld F.MIR_STAT.REC = 1 ∧ c.mir.lost = true ∧ c.reg R.MIR_FEPOCH = BitVec.ofNat 32 s.clk.epoch))

/-- R41 to R43, R45, R294, R479: groups 12 and 14 at their boundary, and the marks of the groups that were due: all of a group's staged
fields come into force together or, where one is refused, none; PEND clears; CMT follows where a group had a staged change, `ran`; a
passed check point ends the seals of every group that has applied since the last one. -/
def Sys2Proof.Claims.CommittedGroupsTakeEffect : Prop :=
  (∀ (c : Core) (epoch : Nat),
    let regs := [R.FLY_CFG, R.FLY_HOLDLIM, R.FLY_UNCLIM, R.FLY_STEPTHR, R.FLY_SLEW]
    let d := c.applyGroup12 epoch
    (¬ Group12Rsv c → ¬ Group12Range c → (∀ r ∈ regs, d.force.reg r = c.reg r) ∧ (∀ r, r ∉ regs → d.force.reg r = c.force.reg r)) ∧
    (Group12Rsv c ∨ Group12Range c → FieldsSet [(F.FLY_CFGERR.GRP, 12), (F.FLY_CFGERR.TP, 0), (F.FLY_IRQ.CFGERR, 1)]
        (c.setFld F.FLY_CFGERR.CODE (d.fld F.FLY_CFGERR.CODE)) d ∧ d = { c with regs := d.regs } ∧
      (Group12Rsv c → d.fld F.FLY_CFGERR.CODE = 1) ∧ (¬ Group12Rsv c → d.fld F.FLY_CFGERR.CODE = 5))) ∧
  (∀ c : Core,
    let bad := c.fld F.SET_CFG.LOSSLIM = 0 ∨ 20000 < c.fld F.SET_TRDLY.TRDLY ∨ bits (c.reg R.SET_CFG) 31 16 ≠ 0 ∨
      bits (c.reg R.SET_CFG) 7 1 ≠ 0 ∨ bits (c.reg R.SET_TRDLY) 31 15 ≠ 0
    let d := c.applyGroup14
    (¬ bad → d.force.reg R.SET_CFG = c.reg R.SET_CFG ∧ d.force.reg R.SET_TRDLY = c.reg R.SET_TRDLY ∧
      (∀ r, r ≠ R.SET_CFG → r ≠ R.SET_TRDLY → d.force.reg r = c.force.reg r) ∧ d = { c with force := d.force }) ∧
    (bad → FieldsSet [(F.SET_STAT.CFGERR, 1), (F.SET_IRQ.CFGERR, 1)] c d ∧ d = { c with regs := d.regs })) ∧
  (∀ (c : Core) (epoch : Nat) (gs ran : List Nat), (∀ g ∈ gs, g < 15) →
    let d := c.markApplied epoch gs ran
    (ran ≠ [] → d.fld F.PLAN_IRQ.CMT = 1 ∧ d.fld F.PLAN_CMTEPOCH.EPOCH = epoch % 2 ^ 32) ∧ (ran = [] → RegsBut [R.PLAN_CMTSTAT] c d) ∧
    d.fld F.PLAN_CMTSTAT.SEAL = c.fld F.PLAN_CMTSTAT.SEAL ∧ (∀ g, g ∈ d.plan.applied ↔ g ∈ c.plan.applied ∨ g ∈ gs) ∧
    (∀ g < 15, bitOf (d.fld F.PLAN_CMTSTAT.PEND) g = (bitOf (c.fld F.PLAN_CMTSTAT.PEND) g && !gs.contains g)) ∧
    (∀ x, x ∈ d.plan.commitAt ↔ x ∈ c.plan.commitAt ∧ x.1 ∉ gs) ∧ RegsBut [R.PLAN_CMTSTAT, R.PLAN_CMTEPOCH, R.PLAN_IRQ] c d ∧
    d = { c with regs := d.regs, plan := d.plan }) ∧
  ∀ c : Core, (∀ g ∈ c.plan.applied, g < 15) →
    let d := c.unseal
    (∀ g < 15, bitOf (d.fld F.PLAN_CMTSTAT.SEAL) g =
      if g ∈ c.plan.applied then bitOf (c.fld F.PLAN_CMTSTAT.PEND) g else bitOf (c.fld F.PLAN_CMTSTAT.SEAL) g) ∧
    d.fld F.PLAN_CMTSTAT.PEND = c.fld F.PLAN_CMTSTAT.PEND ∧ d.fld F.PLAN_STAT.SWSEAL = 0 ∧ d.plan.applied = []

/-- Staged writes, commits and seals, and what applies at a boundary. Commands that complete here, `exec` answering the next state told
under conditions on the state and the operands alone: planCommit, stagedWrite. -/
def Obligations.StagingAndCommits : Prop := Claims.StagedWritesKeepToTheSeal ∧ Claims.CommitSealsItsGroups ∧ Claims.CommittedGroupsTakeEffect

/-- R51, R52, R80, R457: a transfer's next XDATA frame, in its turn: as many samples as the cursor can deliver and the frame holds, after
the snapshot header where it begins; it waits for room, and a cancelled transfer ends here, as one that meets an uncorrectable Bobbin
error does, with FAULT (R334). -/
def Sys2Proof.Claims.TransferFrames : Prop :=
  ∀ (s : State) (tag : BitVec 8) (bad : Bool), s.core.coreOn = true →
    (s.core.job tag.toNat = none ∨ ¬ TransferTurn s.core tag.toNat → Leaves (.xdata tag bad) s [] s.core) ∧
    ∀ (j : Job) (u : Cursor), s.core.job tag.toNat = some j → j.cursor = some u → j.cls = 1 ∨ j.cls = 2 → j.live = true →
      TransferTurn s.core tag.toNat →
      let l := (wordOf j.desc 0).toNat
      let head := (wordOf j.desc 2).toNat
      let k := s.core.link l
      let hb := if j.moved = 0 then s.core.mem.reads snapHeader head else []
      let n := s.core.deliverable s.clk u (min (4088 - hb.length) (j.total - max j.moved head))
      let data := hb ++ (List.range n).map fun i => s.core.sampleAt u.snap u.stream (u.next + i)
      let frame := leBytes 1 tag.toNat ++ leBytes 3 0 ++ leBytes 4 j.moved ++ data
      let room := if l = 1 then 32768 - s.core.qsp.out.length else 16384 - k.outq.length
      let v : Cursor := { u with offset := ((s.core.stream u.stream).offsetOf u.next).map (·.1), waiting := false }
      (j.phase = .cancelling → Yields (.xdata tag bad) s fun c => JobEnds s.core j .aborted c ∧ c.mem = s.core.mem) ∧
      (j.phase ≠ .cancelling → data ≠ [] → k.opened = false ∨ room < 12 + frame.length → Leaves (.xdata tag bad) s [] s.core) ∧
      (bad = true → j.phase ≠ .cancelling → data ≠ [] → k.opened = true → 12 + frame.length ≤ room → Yields (.xdata tag bad) s fun c =>
        JobEnds (s.core.uncorrectable 4) j .fault c ∧ c.mem = s.core.mem ∧ c.fld F.MIR_ECC.MEM = 4) ∧
      (bad = false → j.phase ≠ .cancelling → data ≠ [] → k.opened = true → 12 + frame.length ≤ room → l < 2 →
        Yields (.xdata tag bad) s fun c =>
        (∃ j' ∈ c.plan.jobs, j'.tag = j.tag ∧ j'.moved = j.moved + data.length) ∧ data.length ≤ max 4088 head ∧ c.mem = s.core.mem ∧
        (∀ cc ci p mand, k.outgoing 9 2 frame = some (cc, ci, p, mand) → p.length ≤ frame.length →
          GoesOut s.core l (frameOf cc ci k.seq p) c ∧ (c.link l).seq = (k.seq + 1) % 65536 ∧ (c.link l).lost = k.lost)) ∧
      (j.phase ≠ .cancelling → data = [] → j.moved < j.total →
        (s.core.cursorRule s.clk v = .wait →
          Leaves (.xdata tag bad) s [] (s.core.setJob { j with cursor := some { v with waiting := true } })) ∧
        (s.core.cursorRule s.clk v = .lost → Yields (.xdata tag bad) s fun c => JobEnds s.core j .lost c ∧ c.mem = s.core.mem) ∧
        (s.core.cursorRule s.clk v = .overtaken → Yields (.xdata tag bad) s fun c => JobEnds s.core j .overtaken c ∧ c.mem = s.core.mem))

/-- How jobs end, how a waiting cursor goes on, and a transfer's frames. Commands that complete here, `exec` answering the next state told
under conditions on the state and the operands alone: jqCancel, transferComplete, cursorResume, cursorOvertaken, xdata. -/
def Obligations.JobsAndTransfers : Prop := Claims.JobsEndWithTheirStatus ∧ Claims.WaitingCursorGoesOn ∧ Claims.TransferFrames

/-! ### What every step keeps -/

namespace Sys2Proof.Claims
open Sys2Proof.Machine

/-- What the pairs hold keeps the canonical form of its memories. -/
def HotWf (h : Hot) : Prop := h.mem.wf = true ∧ h.foc.back.wf = true

/-- Every memory of the device is in its canonical form: addresses strictly rise, and no byte is listed that an unlisted one reads as. -/
def MemoryWf (c : Core) : Prop :=
  c.mem.wf = true ∧ HotWf c.hot ∧ HotWf c.ckpt ∧ c.foc.shadow.wf = true ∧ c.foc.effect.wf = true ∧ c.qsp.win.wf = true ∧
  ∀ r, c.replay = some r → HotWf r.base

/-- WHL_TRUST.SUM is what R375 makes of the flags; SWO has no part in it. -/
def TrustOk (c : Core) : Prop :=
  c.fld F.WHL_TRUST.SUM = if c.fld F.WHL_TRUST.OSF ≠ 0 ∨ c.fld F.WHL_TRUST.BOR ≠ 0 then 2
    else if c.fld F.WHL_TRUST.LBV ≠ 0 then 1 else 0

/-- The commands that write several words of the register bus one after another. -/
def WritesManyWords : Instr → Prop
  | .regWr _ _ | .wsetupWrite _ _ _ _ => True
  | _ => False

/-- Products `ps` landing one after another on accumulator `a` of slice `k`. -/
def landAllOf (c : Core) (k a : Nat) (ps : List Int) : Core := ps.foldl (fun c p => c.landOne k (.mac a p)) c

/-- What an accumulator holds, as a signed 48-bit value. -/
def accValue (c : Core) (k a : Nat) : Int := (BitVec.ofNat 48 (vecAt 0 (c.slice k).accs a)).toInt

/-- A value of 48 signed bits. -/
def Fits48 (i : Int) : Prop := -(2 ^ 47) ≤ i ∧ i < 2 ^ 47

end Sys2Proof.Claims

/-- Every step, from every state whose memories are in canonical form, leaves them so: equal memories are equal data. The form is the
model's own. -/
def Obligations.MemoryKeepsItsForm : Prop :=
  ∀ s t : State, MemoryWf s.core → step s = .next t → MemoryWf t.core

/-- R375: SUM combines the trust flags so after every step, SWO having no part in it; every change of SUM raises WHL_IRQ.TRUST, by any
command and by each word that a burst writes; the first power-up reads untrusted. -/
def Obligations.TrustSummaryFollowsTheFlags : Prop :=
  State.reset.core.fld F.WHL_TRUST.SUM = 2 ∧ TrustOk State.reset.core ∧
  (∀ s t : State, TrustOk s.core → step s = .next t → TrustOk t.core) ∧
  (∀ (i : Instr) (s t : State), ¬ WritesManyWords i → exec i s = .next t →
    t.core.fld F.WHL_TRUST.SUM ≠ s.core.fld F.WHL_TRUST.SUM → t.core.fld F.WHL_IRQ.TRUST = 1) ∧
  ∀ (c : Core) (t : Clock) (a : Nat) (w : Word), let d := c.busWrite t a w
    d.fld F.WHL_TRUST.SUM ≠ c.fld F.WHL_TRUST.SUM → d.fld F.WHL_IRQ.TRUST = 1

/-- R231: accumulators add modulo 2^48; a sum outside 48 bits wraps and sets the sticky GOV; the value after any number of additions is
exact whenever the true final sum lies within 48 bits, however often it wrapped, and GOV may then be set. Commands that complete here,
`exec` answering the next state told under conditions on the state and the operands alone: mac, msu. -/
def Obligations.AccumulatorSumsAreExact : Prop :=
  (∀ (c : Core) (k : Fin 9) (a : Fin 4) (ps : List Int), (c.slice k.val).sst < 1024 →
    let v := accValue c k.val a.val
    let d := landAllOf c k.val a.val ps
    accValue d k.val a.val = (BitVec.ofInt 48 (v + ps.sum)).toInt ∧
    (Fits48 (v + ps.sum) → accValue d k.val a.val = v + ps.sum) ∧
    (bitOf (d.slice k.val).sst 2 = true ↔ bitOf (c.slice k.val).sst 2 = true ∨
      ∃ l p r, ps = l ++ p :: r ∧ ¬ Fits48 ((BitVec.ofInt 48 (v + l.sum)).toInt + p))) ∧
  Issues .mac 0x1A (fun c k w => [(3, .mac (fD w - 40)
    (((oA c k w).extractLsb' (if w.getLsbD 0 then 16 else 0) 16).toInt * ((oB c k w).extractLsb' (if w.getLsbD 1 then 16 else 0) 16).toInt))]) ∧
  Issues .msu 0x1B (fun c k w => [(3, .mac (fD w - 40)
    (-(((oA c k w).extractLsb' (if w.getLsbD 0 then 16 else 0) 16).toInt * ((oB c k w).extractLsb' (if w.getLsbD 1 then 16 else 0) 16).toInt)))]) ∧
  ∃ (c : Core) (ps : List Int), Fits48 (accValue c 0 0 + ps.sum) ∧ bitOf (c.slice 0).sst 2 = false ∧
    bitOf ((landAllOf c 0 0 ps).slice 0).sst 2 = true

/-! ### Steps, time and reset -/

namespace Sys2Proof.Claims
open Sys2Proof.Machine

/-- The commands after which time may begin anew: supplies, resets, and what may reach a first epoch. -/
def Restarts : Instr → Prop
  | .vmainLow | .vmainReturn | .vcoreLow | .vpllLow | .wake _ _ _ _ | .rstNAssert | .reboot | .startUp _ | .refclkDetectRetry _
  | .pllLockRetry _ | .epochSyncFrame _ _ _ _ | .wsetupImage _ _ _ _ => True
  | _ => False

/-- The events that come with the core unpowered: of the supplies, of the always-on domain and of Whorl. -/
def NeedsNoCore : Instr → Prop
  | .vmainLow | .vmainReturn | .vcoreLow | .vpllLow | .vsampLow | .vioLow _ | .supplyReturn _ | .hibernateSave | .wake _ _ _ _
  | .wakeCharacter _ _ | .rstNAssert | .whorlTick _ _ | .compensationUpdate _ _ | .dayBoundary _ _ | .oscillatorStop | .whorlBrownOut
  | .chargerClamp | .rdsr _ | .rdstm _ _ | .rdwin _ _ _ | .rdid _ => True
  | _ => False

/-- A period code's slot occurs with phase `ph` in an epoch. -/
def Occurs (code ph epoch : Nat) : Prop :=
  ({ start := 0, phase := ph, length := 1, period := code, resource := 0, kind := 1, index := 0, paramA := 0, rsv := false } : SlotEntry).occurs
    epoch = true

end Sys2Proof.Claims

/-- The step of a block: with a command in front of the queue it is that command's effect, with the queue's rest. -/
def Obligations.StepRunsTheFrontCommand : Prop :=
  ∀ (i : Instr) (s : State), step { s with pending := i :: s.pending } = exec i s

/-- The step with no command waiting: the oldest held console line runs once no command runs (R459); otherwise one fc passes, or nothing
where a boundary is awaited. That time passes so is the model's choice (log entry 30). -/
def Obligations.StepWithoutACommand : Prop :=
  ∀ s : State, s.pending = [] →
    (∀ i rest, s.held = i :: rest → s.core.conBusy = false → step s = exec i { s with held := rest }) ∧
    (s.held = [] ∨ s.core.conBusy = true →
      (Runs s → s.clk.fc < lastOfHalf s → step s = .next { s with
        clk := { epoch := s.clk.epoch, fc := s.clk.fc + 1 }, core := s.core.moveTo s.clk (s.clk.fc + 1) }) ∧
      (¬ (Runs s ∧ s.clk.fc < lastOfHalf s) → step s = .next s))

/-- Every command goes on, from every state, and leaves the waiting commands as they are; so does every step. -/
def Obligations.EveryCommandGoesOn : Prop :=
  (∀ (i : Instr) (s : State), ∃ t, exec i s = .next t ∧ t.pending = s.pending) ∧
  ∀ s : State, ∃ t, step s = .next t ∧ t.pending = s.pending.tail

/-- R26, R27: time stays inside the epoch through every step, and no command turns it back or takes it past the next boundary, save those
after which it begins anew at the start of an epoch. -/
def Obligations.TimeGoesOn : Prop :=
  (∀ s t : State, TimeOk s → step s = .next t → TimeOk t) ∧
  (∀ (i : Instr) (s t : State), ¬ Restarts i → TimeOk s → exec i s = .next t → now s ≤ now t ∧
    (now t ≤ 655360 * s.clk.epoch + lastOfHalf s ∨ t.clk = { epoch := s.clk.epoch, fc := 327680 } ∧ s.clk.fc < 327680 ∨
      t.clk = { epoch := s.clk.epoch + 1, fc := 0 })) ∧
  ∀ (i : Instr) (s t : State), Restarts i → exec i s = .next t → t.clk = s.clk ∨ t.clk.fc = 0

/-- R338, R347, R368, R431: with the core unpowered only the supplies, the always-on domain and Whorl act, and the QSPI balls read 0xFF
(R431); every other command changes nothing. -/
def Obligations.AnUnpoweredCoreDoesNothing : Prop :=
  ∀ (i : Instr) (s : State), s.core.coreOn = false → ¬ NeedsNoCore i → exec i s = .next s

/-- R8, R505: right after reset no command waits, time stands at its start, nothing is listed in memory, and the registers hold the values
that their tables give. -/
def Obligations.ResetState : Prop :=
  State.reset.pending = [] ∧ State.reset.clk = { epoch := 0, fc := 0 } ∧ TimeOk State.reset ∧ State.reset.core.mem = [] ∧
  MemoryWf State.reset.core ∧ TrustOk State.reset.core ∧ State.reset.core.coreOn = true ∧
  ∀ x ∈ ([(R.SYS_ID, 0x947200B0), (R.SYS_BOOT, 2), (R.SET_STAT, 0), (R.FLY_UNC, 0xFFFFFFFF), (R.FLY_STAT, 0), (R.WHL_TRUST, 0x52),
      (R.PLAN_IRQ, 0), (R.PLAN_CMTSTAT, 0), (R.MIR_IRQ, 0), (R.REEL_IRQ, 0), (R.PWR_IRQ, 0), (R.SYS_UNMAP, 0)] : List (Nat × Nat)),
    State.reset.core.reg x.1 = BitVec.ofNat 32 x.2

/-- R30: the slots of period P and phase φ occur in epoch e when (e mod 1,000) mod P = φ; every period divides 1,000, so the pattern
repeats every 1,000 epochs. -/
def Obligations.SlotsOccurWithTheirPeriod : Prop :=
  ∀ (code : Fin 16) (ph epoch : Nat), let p := periods.getD code 1
    (Occurs code ph epoch ↔ epoch % 1000 % p = ph) ∧ 1000 % p = 0 ∧ (Occurs code ph (epoch + 1000) ↔ Occurs code ph epoch)

end Statements
end

