-- ==== Sys2Proof/Laws/Maps.lean ====
section
/-! SUPPORT. The canonical address maps: a read after a write, and every memory operation keeps the canonical form. -/
namespace Sys2Proof.Machine

section Maps
variable {β : Type} {d : Nat → β}

/-- A canonical map stays canonical from any lower bound. -/
theorem mapWf_mono [DecidableEq β] {lo lo' : Nat} {m : AddrMap β} (h : mapWf d lo m = true) (hl : lo' ≤ lo) : mapWf d lo' m = true := by
  cases m with
  | nil => rfl
  | cons c r =>
    simp only [mapWf, Bool.and_eq_true, decide_eq_true_eq] at h ⊢
    exact ⟨⟨by omega, h.1.2⟩, h.2⟩

theorem mapWf_erase [DecidableEq β] {m : AddrMap β} : ∀ {lo a : Nat}, mapWf d lo m = true → mapWf d lo (mapErase m a) = true := by
  induction m with
  | nil => intros; rfl
  | cons c r ih =>
    intro lo a h
    simp only [mapWf, Bool.and_eq_true, decide_eq_true_eq] at h
    by_cases hb : c.1 = a
    · simp only [mapErase, if_pos hb]
      exact mapWf_mono (ih h.2) (by omega)
    · simp only [mapErase, if_neg hb, mapWf, Bool.and_eq_true, decide_eq_true_eq]
      exact ⟨h.1, ih h.2⟩

theorem mapWf_insert [DecidableEq β] {m : AddrMap β} {v : β} :
    ∀ {lo a : Nat}, mapWf d lo m = true → lo ≤ a → v ≠ d a → mapWf d lo (mapInsert m a v) = true := by
  induction m with
  | nil => intro lo a _ hl hv; simp [mapInsert, mapWf, hl, hv]
  | cons c r ih =>
    intro lo a h hl hv
    simp only [mapWf, Bool.and_eq_true, decide_eq_true_eq] at h
    by_cases h1 : a < c.1
    · simp only [mapInsert, if_pos h1, mapWf, Bool.and_eq_true, decide_eq_true_eq]
      exact ⟨⟨hl, hv⟩, ⟨by omega, h.1.2⟩, h.2⟩
    · by_cases h2 : c.1 = a
      · simp only [mapInsert, if_neg h1, if_pos h2, mapWf, Bool.and_eq_true, decide_eq_true_eq]
        exact ⟨⟨hl, hv⟩, by rw [← h2]; exact h.2⟩
      · simp only [mapInsert, if_neg h1, if_neg h2, mapWf, Bool.and_eq_true, decide_eq_true_eq]
        exact ⟨h.1, ih h.2 (by omega) hv⟩

theorem mapWf_put [DecidableEq β] {m : AddrMap β} {a : Nat} {v : β} (h : mapWf d 0 m = true) : mapWf d 0 (mapPut d m a v) = true := by
  unfold mapPut
  split
  · exact mapWf_erase h
  · exact mapWf_insert h (Nat.zero_le a) ‹_›

theorem mapGet_erase_same {m : AddrMap β} {a : Nat} : mapGet d (mapErase m a) a = d a := by
  induction m with
  | nil => rfl
  | cons c r ih =>
    by_cases hb : c.1 = a
    · simp only [mapErase, if_pos hb, ih]
    · simp only [mapErase, if_neg hb, mapGet, ih]

theorem mapGet_erase_other {m : AddrMap β} {a b : Nat} (hab : a ≠ b) : mapGet d (mapErase m a) b = mapGet d m b := by
  induction m with
  | nil => rfl
  | cons c r ih =>
    by_cases hb : c.1 = a
    · have hne : c.1 ≠ b := by omega
      simp only [mapErase, if_pos hb, mapGet, if_neg hne, ih]
    · simp only [mapErase, if_neg hb, mapGet, ih]

theorem mapGet_insert_same {m : AddrMap β} {a : Nat} {v : β} : mapGet d (mapInsert m a v) a = v := by
  induction m with
  | nil => simp [mapInsert, mapGet]
  | cons c r ih =>
    by_cases h1 : a < c.1
    · simp [mapInsert, if_pos h1, mapGet]
    · by_cases h2 : c.1 = a
      · simp [mapInsert, h2, mapGet]
      · simp only [mapInsert, if_neg h1, if_neg h2, mapGet, ih]

theorem mapGet_insert_other {m : AddrMap β} {a b : Nat} {v : β} (hab : a ≠ b) :
    mapGet d (mapInsert m a v) b = mapGet d m b := by
  induction m with
  | nil => simp [mapInsert, mapGet, hab]
  | cons c r ih =>
    by_cases h1 : a < c.1
    · simp [mapInsert, if_pos h1, mapGet, hab]
    · by_cases h2 : c.1 = a
      · have hne : c.1 ≠ b := by omega
        simp only [mapInsert, if_neg h1, if_pos h2, mapGet, if_neg hab, if_neg hne]
      · simp only [mapInsert, if_neg h1, if_neg h2, mapGet, ih]

/-- A read after a write to the same address gives the value written. -/
@[simp] theorem mapGet_put_same [DecidableEq β] {m : AddrMap β} {a : Nat} {v : β} : mapGet d (mapPut d m a v) a = v := by
  unfold mapPut
  split
  · rename_i hv; rw [mapGet_erase_same, hv]
  · exact mapGet_insert_same

/-- A write leaves every other address alone. -/
theorem mapGet_put_other [DecidableEq β] {m : AddrMap β} {a b : Nat} {v : β} (hab : a ≠ b) : mapGet d (mapPut d m a v) b = mapGet d m b := by
  unfold mapPut
  split
  · exact mapGet_erase_other hab
  · exact mapGet_insert_other hab

theorem mapWf_filter [DecidableEq β] {m : AddrMap β} {p : Nat × β → Bool} : ∀ {lo : Nat}, mapWf d lo m = true → mapWf d lo (m.filter p) = true := by
  induction m with
  | nil => intros; rfl
  | cons c r ih =>
    intro lo h
    simp only [mapWf, Bool.and_eq_true, decide_eq_true_eq] at h
    by_cases hp : p c = true
    · simp only [List.filter_cons, hp, if_true, mapWf, Bool.and_eq_true, decide_eq_true_eq]
      exact ⟨h.1, ih h.2⟩
    · simp only [List.filter_cons, hp]
      exact mapWf_mono (ih h.2) (by omega)

end Maps

/-! ### Memory -/

@[simp] theorem Memory.read_write_same {m : Memory} {a : Nat} {b : Byte} : (m.write a b).read a = b := mapGet_put_same

theorem Memory.read_write_other {m : Memory} {a x : Nat} {b : Byte} (h : a ≠ x) : (m.write a b).read x = m.read x :=
  mapGet_put_other h

theorem Memory.write_wf {m : Memory} {a : Nat} {b : Byte} (h : m.wf = true) : (m.write a b).wf = true := mapWf_put h

theorem Memory.clear_wf {m : Memory} {a n : Nat} (h : m.wf = true) : (m.clear a n).wf = true := mapWf_filter h

theorem Memory.writes_wf {l : List Byte} : ∀ {m : Memory} {a : Nat}, m.wf = true → (m.writes a l).wf = true := by
  induction l with
  | nil => intro m a h; exact h
  | cons b r ih => intro m a h; exact ih (write_wf h)

theorem Memory.writeLe_wf {m : Memory} {a n v : Nat} (h : m.wf = true) : (m.writeLe a n v).wf = true := writes_wf h

theorem Memory.putWord_wf {m : Memory} {a : Nat} {w : Word} (h : m.wf = true) : (m.putWord a w).wf = true := writes_wf h

theorem Memory.putWords_wf {l : List Word} : ∀ {m : Memory} {a : Nat}, m.wf = true → (m.putWords a l).wf = true := by
  induction l with
  | nil => intro m a h; exact h
  | cons w r ih => intro m a h; exact ih (putWord_wf h)

/-- Writes from an address leave every address outside them alone. -/
theorem Memory.read_writes_other {l : List Byte} :
    ∀ {m : Memory} {a x : Nat}, x < a ∨ a + l.length ≤ x → (m.writes a l).read x = m.read x := by
  induction l with
  | nil => intro m a x _; rfl
  | cons b r ih =>
    intro m a x h
    simp only [List.length_cons] at h
    show ((m.write a b).writes (a + 1) r).read x = _
    rw [ih (by omega), read_write_other (by omega)]

theorem leBytes_length : ∀ (n v : Nat), (leBytes n v).length = n := by
  intro n
  induction n with
  | zero => intro v; rfl
  | succ n ih => intro v; simp [leBytes, ih]

/-- A word written leaves every byte outside its four alone. -/
theorem Memory.read_putWord_other {m : Memory} {a x : Nat} {w : Word} (h : x < a ∨ a + 4 ≤ x) :
    (m.putWord a w).read x = m.read x := by
  apply read_writes_other
  simpa [leBytes_length] using h

/-- The bytes written are read back. -/
theorem Memory.reads_writes {l : List Byte} : ∀ {m : Memory} {a : Nat}, (m.writes a l).reads a l.length = l := by
  induction l with
  | nil => intros; rfl
  | cons b r ih =>
    intro m a
    show (((m.write a b).writes (a + 1) r).read a) :: (((m.write a b).writes (a + 1) r).reads (a + 1) r.length) = _
    rw [ih, read_writes_other (by omega), read_write_same]

theorem leNat_leBytes : ∀ (n v : Nat), leNat (leBytes n v) = v % 256 ^ n := by
  intro n
  induction n with
  | zero => intro v; simp [leBytes, leNat, Nat.mod_one]
  | succ n ih =>
    intro v
    simp only [leBytes, leNat, ih, BitVec.toNat_ofNat]
    have h : v % 256 ^ (n + 1) = v % 256 + 256 * (v / 256 % 256 ^ n) := by rw [show 256 ^ (n + 1) = 256 * 256 ^ n by ring, Nat.mod_mul]
    exact h.symm

/-- A word written is read back. -/
@[simp] theorem Memory.word_putWord {m : Memory} {a : Nat} {w : Word} : (m.putWord a w).word a = w := by
  have hr : (m.putWord a w).reads a 4 = leBytes 4 w.toNat := by
    have := reads_writes (m := m) (l := leBytes 4 w.toNat) (a := a)
    rwa [leBytes_length] at this
  have hw : w.toNat % 256 ^ 4 = w.toNat := by have := w.isLt; omega
  simp only [word, readLe, hr, leNat_leBytes, hw, BitVec.ofNat_toNat, BitVec.setWidth_eq]

/-! ### Registers -/

theorem RegMap.reg_setReg_other {m : RegMap} {a b : Nat} {w : Word} (h : a ≠ b) : (m.setReg a w).reg b = m.reg b := mapGet_put_other h

@[simp] theorem RegMap.reg_setReg_same {m : RegMap} {a : Nat} {w : Word} : (m.setReg a w).reg a = w := mapGet_put_same

theorem RegMap.setReg_wf {m : RegMap} {a : Nat} {w : Word} (h : mapWf (fun _ => 0) 0 m = true) :
    mapWf (fun _ => 0) 0 (m.setReg a w) = true := mapWf_put h

/-! ### Bit fields -/

/-- A word is what lies below a field, the field, and what lies above it. -/
theorem putBits_toNat {w : Word} {lo k v : Nat} (h : lo + k < 32) :
    (putBits w (lo + k) lo v).toNat = w.toNat % 2 ^ lo + 2 ^ lo * (v % 2 ^ (k + 1) + 2 ^ (k + 1) * (w.toNat / 2 ^ lo / 2 ^ (k + 1))) := by
  have hlt := w.isLt
  have hk : lo + k - lo + 1 = k + 1 := by omega
  simp only [bits, putBits, hk, BitVec.toNat_ofNat]
  have hL : 0 < 2 ^ lo := Nat.two_pow_pos _
  have hK : 0 < 2 ^ (k + 1) := Nat.two_pow_pos _
  have h32 : 2 ^ 32 = 2 ^ lo * 2 ^ (k + 1) * 2 ^ (31 - lo - k) := by
    simp only [← pow_add]; congr 1; omega
  generalize w.toNat = x at *
  generalize 2 ^ lo = L at *
  generalize 2 ^ (k + 1) = K at *
  generalize 2 ^ (31 - lo - k) = M at *
  have hx : x = x % L + L * (x / L % K + K * (x / L / K)) := by
    rw [Nat.mod_add_div, Nat.mod_add_div]
  have hrL : x % L < L := Nat.mod_lt _ hL
  have hvK : v % K < K := Nat.mod_lt _ hK
  have hq : x / L / K < M := by
    rw [Nat.div_div_eq_div_mul]
    exact Nat.div_lt_of_lt_mul (h32 ▸ hlt)
  generalize x % L = r at *
  generalize x / L % K = f at *
  generalize x / L / K = q at *
  generalize v % K = u at *
  have hsub : x - f * L + u * L = r + L * (u + K * q) := by
    have h3 : x = f * L + (r + L * (K * q)) := by rw [hx]; ring
    rw [h3, Nat.add_sub_cancel_left]; ring
  rw [hsub]
  apply Nat.mod_eq_of_lt
  rw [h32]
  have h5 : u + K * q + 1 ≤ K * M := by nlinarith
  calc r + L * (u + K * q) < L + L * (u + K * q) := by omega
    _ = L * (u + K * q + 1) := by ring
    _ ≤ L * (K * M) := Nat.mul_le_mul_left _ h5
    _ = _ := by ring

/-- A field put into a word is read back, modulo its width. -/
theorem bits_putBits_same {w : Word} {hi lo v : Nat} (h1 : lo ≤ hi) (h2 : hi < 32) :
    bits (putBits w hi lo v) hi lo = v % 2 ^ (hi - lo + 1) := by
  obtain ⟨k, rfl⟩ : ∃ k, hi = lo + k := ⟨hi - lo, by omega⟩
  have hk : lo + k - lo + 1 = k + 1 := by omega
  have hL : 0 < 2 ^ lo := Nat.two_pow_pos _
  rw [bits, putBits_toNat h2, hk, Nat.add_mul_div_left _ _ hL, Nat.div_eq_of_lt (Nat.mod_lt _ hL), Nat.zero_add,
    Nat.add_mul_mod_self_left, Nat.mod_mod]

/-- A field put into a word leaves the bits of a field beside it alone. -/
theorem bits_putBits_other {w : Word} {hi lo v hi' lo' : Nat} (h1 : lo ≤ hi) (h2 : hi < 32) (h3 : lo' ≤ hi')
    (hd : hi' < lo ∨ hi < lo') : bits (putBits w hi lo v) hi' lo' = bits w hi' lo' := by
  obtain ⟨k, rfl⟩ : ∃ k, hi = lo + k := ⟨hi - lo, by omega⟩
  have hL : 0 < 2 ^ lo := Nat.two_pow_pos _
  rcases hd with hd | hd
  · have low : ∀ y : Nat, y / 2 ^ lo' % 2 ^ (hi' - lo' + 1) = (y % 2 ^ lo) / 2 ^ lo' % 2 ^ (hi' - lo' + 1) := by
      intro y
      rw [← Nat.mod_mul_right_div_self, ← Nat.mod_mul_right_div_self, ← pow_add]
      congr 1
      exact (Nat.mod_mod_of_dvd y (pow_dvd_pow 2 (by omega))).symm
    rw [bits, bits, low, low w.toNat, putBits_toNat h2, Nat.add_mul_mod_self_left, Nat.mod_mod]
  · obtain ⟨j, rfl⟩ : ∃ j, lo' = lo + (k + 1) + j := ⟨lo' - lo - k - 1, by omega⟩
    have high : ∀ y : Nat, y / 2 ^ (lo + (k + 1) + j) = y / 2 ^ lo / 2 ^ (k + 1) / 2 ^ j := by
      intro y
      rw [Nat.div_div_eq_div_mul, Nat.div_div_eq_div_mul, ← pow_add, ← pow_add, Nat.add_assoc]
    have hK : 0 < 2 ^ (k + 1) := Nat.two_pow_pos _
    rw [bits, bits, high, high w.toNat, putBits_toNat h2, Nat.add_mul_div_left _ _ hL, Nat.div_eq_of_lt (Nat.mod_lt _ hL),
      Nat.zero_add, Nat.add_mul_div_left _ _ hK, Nat.div_eq_of_lt (Nat.mod_lt _ hK), Nat.zero_add]

/-! ### Fields of a register map -/

/-- A field set is read back, modulo its width. -/
theorem RegMap.fld_setFld_same {m : RegMap} {f : Fld} {v : Nat} (h1 : f.lo ≤ f.hi)
    (h2 : f.hi < 32) : (m.setFld f v).fld f = v % 2 ^ (f.hi - f.lo + 1) := by
  rw [RegMap.fld, RegMap.setFld, reg_setReg_same, bits_putBits_same h1 h2]

/-- A field set leaves every other register alone. -/
theorem RegMap.fld_setFld_addr {m : RegMap} {f g : Fld} {v : Nat} (h : f.addr ≠ g.addr) : (m.setFld f v).fld g = m.fld g := by
  rw [RegMap.fld, RegMap.setFld, reg_setReg_other h, RegMap.fld]

/-- A field set leaves the other fields of its register alone. -/
theorem RegMap.fld_setFld_bits {m : RegMap} {f g : Fld} {v : Nat} (ha : f.addr = g.addr)
    (h1 : f.lo ≤ f.hi) (h2 : f.hi < 32) (h3 : g.lo ≤ g.hi) (hd : g.hi < f.lo ∨ f.hi < g.lo) :
    (m.setFld f v).fld g = m.fld g := by
  rw [RegMap.fld, RegMap.setFld, ← ha, reg_setReg_same, bits_putBits_other h1 h2 h3 hd, RegMap.fld, ← ha]

theorem RegMap.setFld_wf {m : RegMap} {f : Fld} {v : Nat} (h : mapWf (fun _ => 0) 0 m = true) :
    mapWf (fun _ => 0) 0 (m.setFld f v) = true := setReg_wf h

/-! ### A fixed number of like things -/

theorem vecAt_eq {α : Type} {n i : Nat} {d : α} {v : Vector α n} (h : i < n) : vecAt d v i = v[i] := by
  simp [vecAt, h]

theorem vecAt_putAt_same {α : Type} {n i : Nat} {d x : α} {v : Vector α n} (h : i < n) : vecAt d (putAt v i x) i = x := by
  simp [vecAt, putAt, h]

theorem vecAt_putAt_other {α : Type} {n i j : Nat} {d x : α} {v : Vector α n} (h : i ≠ j) : vecAt d (putAt v i x) j = vecAt d v j := by
  simp [vecAt, putAt, List.getElem?_set_ne h]

theorem vecAt_modAt_same {α : Type} {n i : Nat} {d : α} {f : α → α} {v : Vector α n} (h : i < n) :
    vecAt d (modAt v i f) i = f (vecAt d v i) := by
  simp [vecAt, modAt, h]

theorem vecAt_modAt_other {α : Type} {n i j : Nat} {d : α} {f : α → α} {v : Vector α n} (h : i ≠ j) :
    vecAt d (modAt v i f) j = vecAt d v j := by
  simp [vecAt, modAt, h]

theorem vecAt_vecMap {α : Type} {n i : Nat} {d : α} {f : α → α} {v : Vector α n} (h : i < n) :
    vecAt d (vecMap v f) i = f (vecAt d v i) := by
  simp [vecAt, vecMap, h]

end Sys2Proof.Machine
end

