-- ==== Sys2Proof/Laws/State.lean ====
section
/-! SUPPORT. What each update of a record leaves alone: one lemma per update, every field that it keeps, and the field or register that
it sets. -/
namespace Sys2Proof.Machine

@[simp] theorem Core.setReg_frame (c : Core) (a : Nat) (w : Word) : (c.setReg a w).force = c.force ∧ (c.setReg a w).mem = c.mem
    ∧ (c.setReg a w).hot = c.hot ∧ (c.setReg a w).ckpt = c.ckpt ∧ (c.setReg a w).plan = c.plan ∧ (c.setReg a w).bob = c.bob ∧
    (c.setReg a w).lpe = c.lpe ∧ (c.setReg a w).out = c.out ∧ (c.setReg a w).foc = c.foc ∧ (c.setReg a w).prm = c.prm ∧
    (c.setReg a w).fly = c.fly ∧ (c.setReg a w).reel = c.reel ∧ (c.setReg a w).mir = c.mir ∧ (c.setReg a w).replay = c.replay ∧
    (c.setReg a w).pwr = c.pwr ∧ (c.setReg a w).whl = c.whl ∧ (c.setReg a w).nvm = c.nvm ∧ (c.setReg a w).dst = c.dst ∧
    (c.setReg a w).otp = c.otp ∧ (c.setReg a w).uarts = c.uarts ∧ (c.setReg a w).qsp = c.qsp ∧ (c.setReg a w).links = c.links ∧
    (c.setReg a w).pinOver = c.pinOver ∧ (c.setReg a w).svc = c.svc ∧ (c.setReg a w).boot = c.boot ∧ (c.setReg a w).saved =
    c.saved ∧ (c.setReg a w).readData = c.readData ∧ (c.setReg a w).free = c.free :=
  ⟨rfl, rfl, rfl, rfl, rfl, rfl, rfl, rfl, rfl, rfl, rfl, rfl, rfl, rfl, rfl, rfl, rfl, rfl, rfl, rfl, rfl, rfl, rfl, rfl, rfl, rfl, rfl, rfl⟩

@[simp] theorem Core.setFld_frame (c : Core) (f : Fld) (v : Nat) : (c.setFld f v).force = c.force ∧ (c.setFld f v).mem = c.mem ∧
    (c.setFld f v).hot = c.hot ∧ (c.setFld f v).ckpt = c.ckpt ∧ (c.setFld f v).plan = c.plan ∧ (c.setFld f v).bob = c.bob ∧
    (c.setFld f v).lpe = c.lpe ∧ (c.setFld f v).out = c.out ∧ (c.setFld f v).foc = c.foc ∧ (c.setFld f v).prm = c.prm ∧
    (c.setFld f v).fly = c.fly ∧ (c.setFld f v).reel = c.reel ∧ (c.setFld f v).mir = c.mir ∧ (c.setFld f v).replay = c.replay ∧
    (c.setFld f v).pwr = c.pwr ∧ (c.setFld f v).whl = c.whl ∧ (c.setFld f v).nvm = c.nvm ∧ (c.setFld f v).dst = c.dst ∧
    (c.setFld f v).otp = c.otp ∧ (c.setFld f v).uarts = c.uarts ∧ (c.setFld f v).qsp = c.qsp ∧ (c.setFld f v).links = c.links ∧
    (c.setFld f v).pinOver = c.pinOver ∧ (c.setFld f v).svc = c.svc ∧ (c.setFld f v).boot = c.boot ∧ (c.setFld f v).saved =
    c.saved ∧ (c.setFld f v).readData = c.readData ∧ (c.setFld f v).free = c.free :=
  ⟨rfl, rfl, rfl, rfl, rfl, rfl, rfl, rfl, rfl, rfl, rfl, rfl, rfl, rfl, rfl, rfl, rfl, rfl, rfl, rfl, rfl, rfl, rfl, rfl, rfl, rfl, rfl, rfl⟩

@[simp] theorem Core.raise_frame (c : Core) (f : Fld) : (c.raise f).force = c.force ∧ (c.raise f).mem = c.mem ∧ (c.raise f).hot
    = c.hot ∧ (c.raise f).ckpt = c.ckpt ∧ (c.raise f).plan = c.plan ∧ (c.raise f).bob = c.bob ∧ (c.raise f).lpe = c.lpe ∧
    (c.raise f).out = c.out ∧ (c.raise f).foc = c.foc ∧ (c.raise f).prm = c.prm ∧ (c.raise f).fly = c.fly ∧ (c.raise f).reel =
    c.reel ∧ (c.raise f).mir = c.mir ∧ (c.raise f).replay = c.replay ∧ (c.raise f).pwr = c.pwr ∧ (c.raise f).whl = c.whl ∧
    (c.raise f).nvm = c.nvm ∧ (c.raise f).dst = c.dst ∧ (c.raise f).otp = c.otp ∧ (c.raise f).uarts = c.uarts ∧ (c.raise f).qsp
    = c.qsp ∧ (c.raise f).links = c.links ∧ (c.raise f).pinOver = c.pinOver ∧ (c.raise f).svc = c.svc ∧ (c.raise f).boot =
    c.boot ∧ (c.raise f).saved = c.saved ∧ (c.raise f).readData = c.readData ∧ (c.raise f).free = c.free :=
  ⟨rfl, rfl, rfl, rfl, rfl, rfl, rfl, rfl, rfl, rfl, rfl, rfl, rfl, rfl, rfl, rfl, rfl, rfl, rfl, rfl, rfl, rfl, rfl, rfl, rfl, rfl, rfl, rfl⟩

@[simp] theorem Core.countSat_frame (c : Core) (f : Fld) (n : Nat) : (c.countSat f n).force = c.force ∧ (c.countSat f n).mem =
    c.mem ∧ (c.countSat f n).hot = c.hot ∧ (c.countSat f n).ckpt = c.ckpt ∧ (c.countSat f n).plan = c.plan ∧ (c.countSat f
    n).bob = c.bob ∧ (c.countSat f n).lpe = c.lpe ∧ (c.countSat f n).out = c.out ∧ (c.countSat f n).foc = c.foc ∧ (c.countSat f
    n).prm = c.prm ∧ (c.countSat f n).fly = c.fly ∧ (c.countSat f n).reel = c.reel ∧ (c.countSat f n).mir = c.mir ∧ (c.countSat
    f n).replay = c.replay ∧ (c.countSat f n).pwr = c.pwr ∧ (c.countSat f n).whl = c.whl ∧ (c.countSat f n).nvm = c.nvm ∧
    (c.countSat f n).dst = c.dst ∧ (c.countSat f n).otp = c.otp ∧ (c.countSat f n).uarts = c.uarts ∧ (c.countSat f n).qsp =
    c.qsp ∧ (c.countSat f n).links = c.links ∧ (c.countSat f n).pinOver = c.pinOver ∧ (c.countSat f n).svc = c.svc ∧ (c.countSat
    f n).boot = c.boot ∧ (c.countSat f n).saved = c.saved ∧ (c.countSat f n).readData = c.readData ∧ (c.countSat f n).free =
    c.free :=
  ⟨rfl, rfl, rfl, rfl, rfl, rfl, rfl, rfl, rfl, rfl, rfl, rfl, rfl, rfl, rfl, rfl, rfl, rfl, rfl, rfl, rfl, rfl, rfl, rfl, rfl, rfl, rfl, rfl⟩

@[simp] theorem Core.onHot_frame (c : Core) (f : Hot → Hot) : (c.onHot f).regs = c.regs ∧ (c.onHot f).force = c.force ∧ (c.onHot
    f).mem = c.mem ∧ (c.onHot f).ckpt = c.ckpt ∧ (c.onHot f).plan = c.plan ∧ (c.onHot f).bob = c.bob ∧ (c.onHot f).lpe = c.lpe ∧
    (c.onHot f).out = c.out ∧ (c.onHot f).foc = c.foc ∧ (c.onHot f).prm = c.prm ∧ (c.onHot f).fly = c.fly ∧ (c.onHot f).reel =
    c.reel ∧ (c.onHot f).mir = c.mir ∧ (c.onHot f).replay = c.replay ∧ (c.onHot f).pwr = c.pwr ∧ (c.onHot f).whl = c.whl ∧
    (c.onHot f).nvm = c.nvm ∧ (c.onHot f).dst = c.dst ∧ (c.onHot f).otp = c.otp ∧ (c.onHot f).uarts = c.uarts ∧ (c.onHot f).qsp
    = c.qsp ∧ (c.onHot f).links = c.links ∧ (c.onHot f).pinOver = c.pinOver ∧ (c.onHot f).svc = c.svc ∧ (c.onHot f).boot =
    c.boot ∧ (c.onHot f).saved = c.saved ∧ (c.onHot f).readData = c.readData ∧ (c.onHot f).free = c.free :=
  ⟨rfl, rfl, rfl, rfl, rfl, rfl, rfl, rfl, rfl, rfl, rfl, rfl, rfl, rfl, rfl, rfl, rfl, rfl, rfl, rfl, rfl, rfl, rfl, rfl, rfl, rfl, rfl, rfl⟩

@[simp] theorem Core.onFly_frame (c : Core) (f : FlySt → FlySt) : (c.onFly f).regs = c.regs ∧ (c.onFly f).force = c.force ∧
    (c.onFly f).mem = c.mem ∧ (c.onFly f).hot = c.hot ∧ (c.onFly f).ckpt = c.ckpt ∧ (c.onFly f).plan = c.plan ∧ (c.onFly f).bob
    = c.bob ∧ (c.onFly f).lpe = c.lpe ∧ (c.onFly f).out = c.out ∧ (c.onFly f).foc = c.foc ∧ (c.onFly f).prm = c.prm ∧ (c.onFly
    f).reel = c.reel ∧ (c.onFly f).mir = c.mir ∧ (c.onFly f).replay = c.replay ∧ (c.onFly f).pwr = c.pwr ∧ (c.onFly f).whl =
    c.whl ∧ (c.onFly f).nvm = c.nvm ∧ (c.onFly f).dst = c.dst ∧ (c.onFly f).otp = c.otp ∧ (c.onFly f).uarts = c.uarts ∧ (c.onFly
    f).qsp = c.qsp ∧ (c.onFly f).links = c.links ∧ (c.onFly f).pinOver = c.pinOver ∧ (c.onFly f).svc = c.svc ∧ (c.onFly f).boot
    = c.boot ∧ (c.onFly f).saved = c.saved ∧ (c.onFly f).readData = c.readData ∧ (c.onFly f).free = c.free :=
  ⟨rfl, rfl, rfl, rfl, rfl, rfl, rfl, rfl, rfl, rfl, rfl, rfl, rfl, rfl, rfl, rfl, rfl, rfl, rfl, rfl, rfl, rfl, rfl, rfl, rfl, rfl, rfl, rfl⟩

@[simp] theorem Core.onFocOut_frame (c : Core) (f : FocOut → FocOut) : (c.onFocOut f).regs = c.regs ∧ (c.onFocOut f).force =
    c.force ∧ (c.onFocOut f).mem = c.mem ∧ (c.onFocOut f).hot = c.hot ∧ (c.onFocOut f).ckpt = c.ckpt ∧ (c.onFocOut f).plan =
    c.plan ∧ (c.onFocOut f).bob = c.bob ∧ (c.onFocOut f).lpe = c.lpe ∧ (c.onFocOut f).out = c.out ∧ (c.onFocOut f).prm = c.prm ∧
    (c.onFocOut f).fly = c.fly ∧ (c.onFocOut f).reel = c.reel ∧ (c.onFocOut f).mir = c.mir ∧ (c.onFocOut f).replay = c.replay ∧
    (c.onFocOut f).pwr = c.pwr ∧ (c.onFocOut f).whl = c.whl ∧ (c.onFocOut f).nvm = c.nvm ∧ (c.onFocOut f).dst = c.dst ∧
    (c.onFocOut f).otp = c.otp ∧ (c.onFocOut f).uarts = c.uarts ∧ (c.onFocOut f).qsp = c.qsp ∧ (c.onFocOut f).links = c.links ∧
    (c.onFocOut f).pinOver = c.pinOver ∧ (c.onFocOut f).svc = c.svc ∧ (c.onFocOut f).boot = c.boot ∧ (c.onFocOut f).saved =
    c.saved ∧ (c.onFocOut f).readData = c.readData ∧ (c.onFocOut f).free = c.free :=
  ⟨rfl, rfl, rfl, rfl, rfl, rfl, rfl, rfl, rfl, rfl, rfl, rfl, rfl, rfl, rfl, rfl, rfl, rfl, rfl, rfl, rfl, rfl, rfl, rfl, rfl, rfl, rfl, rfl⟩

@[simp] theorem Core.onPlan_frame (c : Core) (f : PlanSt → PlanSt) : (c.onPlan f).regs = c.regs ∧ (c.onPlan f).force = c.force ∧
    (c.onPlan f).mem = c.mem ∧ (c.onPlan f).hot = c.hot ∧ (c.onPlan f).ckpt = c.ckpt ∧ (c.onPlan f).bob = c.bob ∧ (c.onPlan
    f).lpe = c.lpe ∧ (c.onPlan f).out = c.out ∧ (c.onPlan f).foc = c.foc ∧ (c.onPlan f).prm = c.prm ∧ (c.onPlan f).fly = c.fly ∧
    (c.onPlan f).reel = c.reel ∧ (c.onPlan f).mir = c.mir ∧ (c.onPlan f).replay = c.replay ∧ (c.onPlan f).pwr = c.pwr ∧
    (c.onPlan f).whl = c.whl ∧ (c.onPlan f).nvm = c.nvm ∧ (c.onPlan f).dst = c.dst ∧ (c.onPlan f).otp = c.otp ∧ (c.onPlan
    f).uarts = c.uarts ∧ (c.onPlan f).qsp = c.qsp ∧ (c.onPlan f).links = c.links ∧ (c.onPlan f).pinOver = c.pinOver ∧ (c.onPlan
    f).svc = c.svc ∧ (c.onPlan f).boot = c.boot ∧ (c.onPlan f).saved = c.saved ∧ (c.onPlan f).readData = c.readData ∧ (c.onPlan
    f).free = c.free :=
  ⟨rfl, rfl, rfl, rfl, rfl, rfl, rfl, rfl, rfl, rfl, rfl, rfl, rfl, rfl, rfl, rfl, rfl, rfl, rfl, rfl, rfl, rfl, rfl, rfl, rfl, rfl, rfl, rfl⟩

@[simp] theorem Core.onLpe_frame (c : Core) (f : LpeSt → LpeSt) : (c.onLpe f).regs = c.regs ∧ (c.onLpe f).force = c.force ∧
    (c.onLpe f).mem = c.mem ∧ (c.onLpe f).hot = c.hot ∧ (c.onLpe f).ckpt = c.ckpt ∧ (c.onLpe f).plan = c.plan ∧ (c.onLpe f).bob
    = c.bob ∧ (c.onLpe f).out = c.out ∧ (c.onLpe f).foc = c.foc ∧ (c.onLpe f).prm = c.prm ∧ (c.onLpe f).fly = c.fly ∧ (c.onLpe
    f).reel = c.reel ∧ (c.onLpe f).mir = c.mir ∧ (c.onLpe f).replay = c.replay ∧ (c.onLpe f).pwr = c.pwr ∧ (c.onLpe f).whl =
    c.whl ∧ (c.onLpe f).nvm = c.nvm ∧ (c.onLpe f).dst = c.dst ∧ (c.onLpe f).otp = c.otp ∧ (c.onLpe f).uarts = c.uarts ∧ (c.onLpe
    f).qsp = c.qsp ∧ (c.onLpe f).links = c.links ∧ (c.onLpe f).pinOver = c.pinOver ∧ (c.onLpe f).svc = c.svc ∧ (c.onLpe f).boot
    = c.boot ∧ (c.onLpe f).saved = c.saved ∧ (c.onLpe f).readData = c.readData ∧ (c.onLpe f).free = c.free :=
  ⟨rfl, rfl, rfl, rfl, rfl, rfl, rfl, rfl, rfl, rfl, rfl, rfl, rfl, rfl, rfl, rfl, rfl, rfl, rfl, rfl, rfl, rfl, rfl, rfl, rfl, rfl, rfl, rfl⟩

@[simp] theorem Core.onOut_frame (c : Core) (f : OutSt → OutSt) : (c.onOut f).regs = c.regs ∧ (c.onOut f).force = c.force ∧
    (c.onOut f).mem = c.mem ∧ (c.onOut f).hot = c.hot ∧ (c.onOut f).ckpt = c.ckpt ∧ (c.onOut f).plan = c.plan ∧ (c.onOut f).bob
    = c.bob ∧ (c.onOut f).lpe = c.lpe ∧ (c.onOut f).foc = c.foc ∧ (c.onOut f).prm = c.prm ∧ (c.onOut f).fly = c.fly ∧ (c.onOut
    f).reel = c.reel ∧ (c.onOut f).mir = c.mir ∧ (c.onOut f).replay = c.replay ∧ (c.onOut f).pwr = c.pwr ∧ (c.onOut f).whl =
    c.whl ∧ (c.onOut f).nvm = c.nvm ∧ (c.onOut f).dst = c.dst ∧ (c.onOut f).otp = c.otp ∧ (c.onOut f).uarts = c.uarts ∧ (c.onOut
    f).qsp = c.qsp ∧ (c.onOut f).links = c.links ∧ (c.onOut f).pinOver = c.pinOver ∧ (c.onOut f).svc = c.svc ∧ (c.onOut f).boot
    = c.boot ∧ (c.onOut f).saved = c.saved ∧ (c.onOut f).readData = c.readData ∧ (c.onOut f).free = c.free :=
  ⟨rfl, rfl, rfl, rfl, rfl, rfl, rfl, rfl, rfl, rfl, rfl, rfl, rfl, rfl, rfl, rfl, rfl, rfl, rfl, rfl, rfl, rfl, rfl, rfl, rfl, rfl, rfl, rfl⟩

@[simp] theorem Core.onMir_frame (c : Core) (f : MirSt → MirSt) : (c.onMir f).regs = c.regs ∧ (c.onMir f).force = c.force ∧
    (c.onMir f).mem = c.mem ∧ (c.onMir f).hot = c.hot ∧ (c.onMir f).ckpt = c.ckpt ∧ (c.onMir f).plan = c.plan ∧ (c.onMir f).bob
    = c.bob ∧ (c.onMir f).lpe = c.lpe ∧ (c.onMir f).out = c.out ∧ (c.onMir f).foc = c.foc ∧ (c.onMir f).prm = c.prm ∧ (c.onMir
    f).fly = c.fly ∧ (c.onMir f).reel = c.reel ∧ (c.onMir f).replay = c.replay ∧ (c.onMir f).pwr = c.pwr ∧ (c.onMir f).whl =
    c.whl ∧ (c.onMir f).nvm = c.nvm ∧ (c.onMir f).dst = c.dst ∧ (c.onMir f).otp = c.otp ∧ (c.onMir f).uarts = c.uarts ∧ (c.onMir
    f).qsp = c.qsp ∧ (c.onMir f).links = c.links ∧ (c.onMir f).pinOver = c.pinOver ∧ (c.onMir f).svc = c.svc ∧ (c.onMir f).boot
    = c.boot ∧ (c.onMir f).saved = c.saved ∧ (c.onMir f).readData = c.readData ∧ (c.onMir f).free = c.free :=
  ⟨rfl, rfl, rfl, rfl, rfl, rfl, rfl, rfl, rfl, rfl, rfl, rfl, rfl, rfl, rfl, rfl, rfl, rfl, rfl, rfl, rfl, rfl, rfl, rfl, rfl, rfl, rfl, rfl⟩

@[simp] theorem Core.onPwr_frame (c : Core) (f : PwrSt → PwrSt) : (c.onPwr f).regs = c.regs ∧ (c.onPwr f).force = c.force ∧
    (c.onPwr f).mem = c.mem ∧ (c.onPwr f).hot = c.hot ∧ (c.onPwr f).ckpt = c.ckpt ∧ (c.onPwr f).plan = c.plan ∧ (c.onPwr f).bob
    = c.bob ∧ (c.onPwr f).lpe = c.lpe ∧ (c.onPwr f).out = c.out ∧ (c.onPwr f).foc = c.foc ∧ (c.onPwr f).prm = c.prm ∧ (c.onPwr
    f).fly = c.fly ∧ (c.onPwr f).reel = c.reel ∧ (c.onPwr f).mir = c.mir ∧ (c.onPwr f).replay = c.replay ∧ (c.onPwr f).whl =
    c.whl ∧ (c.onPwr f).nvm = c.nvm ∧ (c.onPwr f).dst = c.dst ∧ (c.onPwr f).otp = c.otp ∧ (c.onPwr f).uarts = c.uarts ∧ (c.onPwr
    f).qsp = c.qsp ∧ (c.onPwr f).links = c.links ∧ (c.onPwr f).pinOver = c.pinOver ∧ (c.onPwr f).svc = c.svc ∧ (c.onPwr f).boot
    = c.boot ∧ (c.onPwr f).saved = c.saved ∧ (c.onPwr f).readData = c.readData ∧ (c.onPwr f).free = c.free :=
  ⟨rfl, rfl, rfl, rfl, rfl, rfl, rfl, rfl, rfl, rfl, rfl, rfl, rfl, rfl, rfl, rfl, rfl, rfl, rfl, rfl, rfl, rfl, rfl, rfl, rfl, rfl, rfl, rfl⟩

@[simp] theorem Core.onPrm_frame (c : Core) (f : PrismSt → PrismSt) : (c.onPrm f).regs = c.regs ∧ (c.onPrm f).force = c.force ∧
    (c.onPrm f).mem = c.mem ∧ (c.onPrm f).hot = c.hot ∧ (c.onPrm f).ckpt = c.ckpt ∧ (c.onPrm f).plan = c.plan ∧ (c.onPrm f).bob
    = c.bob ∧ (c.onPrm f).lpe = c.lpe ∧ (c.onPrm f).out = c.out ∧ (c.onPrm f).foc = c.foc ∧ (c.onPrm f).fly = c.fly ∧ (c.onPrm
    f).reel = c.reel ∧ (c.onPrm f).mir = c.mir ∧ (c.onPrm f).replay = c.replay ∧ (c.onPrm f).pwr = c.pwr ∧ (c.onPrm f).whl =
    c.whl ∧ (c.onPrm f).nvm = c.nvm ∧ (c.onPrm f).dst = c.dst ∧ (c.onPrm f).otp = c.otp ∧ (c.onPrm f).uarts = c.uarts ∧ (c.onPrm
    f).qsp = c.qsp ∧ (c.onPrm f).links = c.links ∧ (c.onPrm f).pinOver = c.pinOver ∧ (c.onPrm f).svc = c.svc ∧ (c.onPrm f).boot
    = c.boot ∧ (c.onPrm f).saved = c.saved ∧ (c.onPrm f).readData = c.readData ∧ (c.onPrm f).free = c.free :=
  ⟨rfl, rfl, rfl, rfl, rfl, rfl, rfl, rfl, rfl, rfl, rfl, rfl, rfl, rfl, rfl, rfl, rfl, rfl, rfl, rfl, rfl, rfl, rfl, rfl, rfl, rfl, rfl, rfl⟩

@[simp] theorem Core.onReel_frame (c : Core) (f : ReelSt → ReelSt) : (c.onReel f).regs = c.regs ∧ (c.onReel f).force = c.force ∧
    (c.onReel f).mem = c.mem ∧ (c.onReel f).hot = c.hot ∧ (c.onReel f).ckpt = c.ckpt ∧ (c.onReel f).plan = c.plan ∧ (c.onReel
    f).bob = c.bob ∧ (c.onReel f).lpe = c.lpe ∧ (c.onReel f).out = c.out ∧ (c.onReel f).foc = c.foc ∧ (c.onReel f).prm = c.prm ∧
    (c.onReel f).fly = c.fly ∧ (c.onReel f).mir = c.mir ∧ (c.onReel f).replay = c.replay ∧ (c.onReel f).pwr = c.pwr ∧ (c.onReel
    f).whl = c.whl ∧ (c.onReel f).nvm = c.nvm ∧ (c.onReel f).dst = c.dst ∧ (c.onReel f).otp = c.otp ∧ (c.onReel f).uarts =
    c.uarts ∧ (c.onReel f).qsp = c.qsp ∧ (c.onReel f).links = c.links ∧ (c.onReel f).pinOver = c.pinOver ∧ (c.onReel f).svc =
    c.svc ∧ (c.onReel f).boot = c.boot ∧ (c.onReel f).saved = c.saved ∧ (c.onReel f).readData = c.readData ∧ (c.onReel f).free =
    c.free :=
  ⟨rfl, rfl, rfl, rfl, rfl, rfl, rfl, rfl, rfl, rfl, rfl, rfl, rfl, rfl, rfl, rfl, rfl, rfl, rfl, rfl, rfl, rfl, rfl, rfl, rfl, rfl, rfl, rfl⟩

@[simp] theorem Core.onUart_frame (c : Core) (n : Nat) (f : UartSt → UartSt) : (c.onUart n f).regs = c.regs ∧ (c.onUart n
    f).force = c.force ∧ (c.onUart n f).mem = c.mem ∧ (c.onUart n f).hot = c.hot ∧ (c.onUart n f).ckpt = c.ckpt ∧ (c.onUart n
    f).plan = c.plan ∧ (c.onUart n f).bob = c.bob ∧ (c.onUart n f).lpe = c.lpe ∧ (c.onUart n f).out = c.out ∧ (c.onUart n f).foc
    = c.foc ∧ (c.onUart n f).prm = c.prm ∧ (c.onUart n f).fly = c.fly ∧ (c.onUart n f).reel = c.reel ∧ (c.onUart n f).mir =
    c.mir ∧ (c.onUart n f).replay = c.replay ∧ (c.onUart n f).pwr = c.pwr ∧ (c.onUart n f).whl = c.whl ∧ (c.onUart n f).nvm =
    c.nvm ∧ (c.onUart n f).dst = c.dst ∧ (c.onUart n f).otp = c.otp ∧ (c.onUart n f).qsp = c.qsp ∧ (c.onUart n f).links =
    c.links ∧ (c.onUart n f).pinOver = c.pinOver ∧ (c.onUart n f).svc = c.svc ∧ (c.onUart n f).boot = c.boot ∧ (c.onUart n
    f).saved = c.saved ∧ (c.onUart n f).readData = c.readData ∧ (c.onUart n f).free = c.free :=
  ⟨rfl, rfl, rfl, rfl, rfl, rfl, rfl, rfl, rfl, rfl, rfl, rfl, rfl, rfl, rfl, rfl, rfl, rfl, rfl, rfl, rfl, rfl, rfl, rfl, rfl, rfl, rfl, rfl⟩

@[simp] theorem Core.onLink_frame (c : Core) (l : Nat) (f : LinkSt → LinkSt) : (c.onLink l f).regs = c.regs ∧ (c.onLink l
    f).force = c.force ∧ (c.onLink l f).mem = c.mem ∧ (c.onLink l f).hot = c.hot ∧ (c.onLink l f).ckpt = c.ckpt ∧ (c.onLink l
    f).plan = c.plan ∧ (c.onLink l f).bob = c.bob ∧ (c.onLink l f).lpe = c.lpe ∧ (c.onLink l f).out = c.out ∧ (c.onLink l f).foc
    = c.foc ∧ (c.onLink l f).prm = c.prm ∧ (c.onLink l f).fly = c.fly ∧ (c.onLink l f).reel = c.reel ∧ (c.onLink l f).mir =
    c.mir ∧ (c.onLink l f).replay = c.replay ∧ (c.onLink l f).pwr = c.pwr ∧ (c.onLink l f).whl = c.whl ∧ (c.onLink l f).nvm =
    c.nvm ∧ (c.onLink l f).dst = c.dst ∧ (c.onLink l f).otp = c.otp ∧ (c.onLink l f).uarts = c.uarts ∧ (c.onLink l f).qsp =
    c.qsp ∧ (c.onLink l f).pinOver = c.pinOver ∧ (c.onLink l f).svc = c.svc ∧ (c.onLink l f).boot = c.boot ∧ (c.onLink l
    f).saved = c.saved ∧ (c.onLink l f).readData = c.readData ∧ (c.onLink l f).free = c.free :=
  ⟨rfl, rfl, rfl, rfl, rfl, rfl, rfl, rfl, rfl, rfl, rfl, rfl, rfl, rfl, rfl, rfl, rfl, rfl, rfl, rfl, rfl, rfl, rfl, rfl, rfl, rfl, rfl, rfl⟩

@[simp] theorem Core.onQsp_frame (c : Core) (f : QspSt → QspSt) : (c.onQsp f).regs = c.regs ∧ (c.onQsp f).force = c.force ∧
    (c.onQsp f).mem = c.mem ∧ (c.onQsp f).hot = c.hot ∧ (c.onQsp f).ckpt = c.ckpt ∧ (c.onQsp f).plan = c.plan ∧ (c.onQsp f).bob
    = c.bob ∧ (c.onQsp f).lpe = c.lpe ∧ (c.onQsp f).out = c.out ∧ (c.onQsp f).foc = c.foc ∧ (c.onQsp f).prm = c.prm ∧ (c.onQsp
    f).fly = c.fly ∧ (c.onQsp f).reel = c.reel ∧ (c.onQsp f).mir = c.mir ∧ (c.onQsp f).replay = c.replay ∧ (c.onQsp f).pwr =
    c.pwr ∧ (c.onQsp f).whl = c.whl ∧ (c.onQsp f).nvm = c.nvm ∧ (c.onQsp f).dst = c.dst ∧ (c.onQsp f).otp = c.otp ∧ (c.onQsp
    f).uarts = c.uarts ∧ (c.onQsp f).links = c.links ∧ (c.onQsp f).pinOver = c.pinOver ∧ (c.onQsp f).svc = c.svc ∧ (c.onQsp
    f).boot = c.boot ∧ (c.onQsp f).saved = c.saved ∧ (c.onQsp f).readData = c.readData ∧ (c.onQsp f).free = c.free :=
  ⟨rfl, rfl, rfl, rfl, rfl, rfl, rfl, rfl, rfl, rfl, rfl, rfl, rfl, rfl, rfl, rfl, rfl, rfl, rfl, rfl, rfl, rfl, rfl, rfl, rfl, rfl, rfl, rfl⟩

@[simp] theorem Core.onSvc_frame (c : Core) (f : SvcSt → SvcSt) : (c.onSvc f).regs = c.regs ∧ (c.onSvc f).force = c.force ∧
    (c.onSvc f).mem = c.mem ∧ (c.onSvc f).hot = c.hot ∧ (c.onSvc f).ckpt = c.ckpt ∧ (c.onSvc f).plan = c.plan ∧ (c.onSvc f).bob
    = c.bob ∧ (c.onSvc f).lpe = c.lpe ∧ (c.onSvc f).out = c.out ∧ (c.onSvc f).foc = c.foc ∧ (c.onSvc f).prm = c.prm ∧ (c.onSvc
    f).fly = c.fly ∧ (c.onSvc f).reel = c.reel ∧ (c.onSvc f).mir = c.mir ∧ (c.onSvc f).replay = c.replay ∧ (c.onSvc f).pwr =
    c.pwr ∧ (c.onSvc f).whl = c.whl ∧ (c.onSvc f).nvm = c.nvm ∧ (c.onSvc f).dst = c.dst ∧ (c.onSvc f).otp = c.otp ∧ (c.onSvc
    f).uarts = c.uarts ∧ (c.onSvc f).qsp = c.qsp ∧ (c.onSvc f).links = c.links ∧ (c.onSvc f).pinOver = c.pinOver ∧ (c.onSvc
    f).boot = c.boot ∧ (c.onSvc f).saved = c.saved ∧ (c.onSvc f).readData = c.readData ∧ (c.onSvc f).free = c.free :=
  ⟨rfl, rfl, rfl, rfl, rfl, rfl, rfl, rfl, rfl, rfl, rfl, rfl, rfl, rfl, rfl, rfl, rfl, rfl, rfl, rfl, rfl, rfl, rfl, rfl, rfl, rfl, rfl, rfl⟩

@[simp] theorem Core.onNvm_frame (c : Core) (f : NvmSt → NvmSt) : (c.onNvm f).regs = c.regs ∧ (c.onNvm f).force = c.force ∧
    (c.onNvm f).mem = c.mem ∧ (c.onNvm f).hot = c.hot ∧ (c.onNvm f).ckpt = c.ckpt ∧ (c.onNvm f).plan = c.plan ∧ (c.onNvm f).bob
    = c.bob ∧ (c.onNvm f).lpe = c.lpe ∧ (c.onNvm f).out = c.out ∧ (c.onNvm f).foc = c.foc ∧ (c.onNvm f).prm = c.prm ∧ (c.onNvm
    f).fly = c.fly ∧ (c.onNvm f).reel = c.reel ∧ (c.onNvm f).mir = c.mir ∧ (c.onNvm f).replay = c.replay ∧ (c.onNvm f).pwr =
    c.pwr ∧ (c.onNvm f).whl = c.whl ∧ (c.onNvm f).dst = c.dst ∧ (c.onNvm f).otp = c.otp ∧ (c.onNvm f).uarts = c.uarts ∧ (c.onNvm
    f).qsp = c.qsp ∧ (c.onNvm f).links = c.links ∧ (c.onNvm f).pinOver = c.pinOver ∧ (c.onNvm f).svc = c.svc ∧ (c.onNvm f).boot
    = c.boot ∧ (c.onNvm f).saved = c.saved ∧ (c.onNvm f).readData = c.readData ∧ (c.onNvm f).free = c.free :=
  ⟨rfl, rfl, rfl, rfl, rfl, rfl, rfl, rfl, rfl, rfl, rfl, rfl, rfl, rfl, rfl, rfl, rfl, rfl, rfl, rfl, rfl, rfl, rfl, rfl, rfl, rfl, rfl, rfl⟩

@[simp] theorem Core.onDst_frame (c : Core) (f : DstSt → DstSt) : (c.onDst f).regs = c.regs ∧ (c.onDst f).force = c.force ∧
    (c.onDst f).mem = c.mem ∧ (c.onDst f).hot = c.hot ∧ (c.onDst f).ckpt = c.ckpt ∧ (c.onDst f).plan = c.plan ∧ (c.onDst f).bob
    = c.bob ∧ (c.onDst f).lpe = c.lpe ∧ (c.onDst f).out = c.out ∧ (c.onDst f).foc = c.foc ∧ (c.onDst f).prm = c.prm ∧ (c.onDst
    f).fly = c.fly ∧ (c.onDst f).reel = c.reel ∧ (c.onDst f).mir = c.mir ∧ (c.onDst f).replay = c.replay ∧ (c.onDst f).pwr =
    c.pwr ∧ (c.onDst f).whl = c.whl ∧ (c.onDst f).nvm = c.nvm ∧ (c.onDst f).otp = c.otp ∧ (c.onDst f).uarts = c.uarts ∧ (c.onDst
    f).qsp = c.qsp ∧ (c.onDst f).links = c.links ∧ (c.onDst f).pinOver = c.pinOver ∧ (c.onDst f).svc = c.svc ∧ (c.onDst f).boot
    = c.boot ∧ (c.onDst f).saved = c.saved ∧ (c.onDst f).readData = c.readData ∧ (c.onDst f).free = c.free :=
  ⟨rfl, rfl, rfl, rfl, rfl, rfl, rfl, rfl, rfl, rfl, rfl, rfl, rfl, rfl, rfl, rfl, rfl, rfl, rfl, rfl, rfl, rfl, rfl, rfl, rfl, rfl, rfl, rfl⟩

@[simp] theorem Core.onBoot_frame (c : Core) (f : BootSt → BootSt) : (c.onBoot f).regs = c.regs ∧ (c.onBoot f).force = c.force ∧
    (c.onBoot f).mem = c.mem ∧ (c.onBoot f).hot = c.hot ∧ (c.onBoot f).ckpt = c.ckpt ∧ (c.onBoot f).plan = c.plan ∧ (c.onBoot
    f).bob = c.bob ∧ (c.onBoot f).lpe = c.lpe ∧ (c.onBoot f).out = c.out ∧ (c.onBoot f).foc = c.foc ∧ (c.onBoot f).prm = c.prm ∧
    (c.onBoot f).fly = c.fly ∧ (c.onBoot f).reel = c.reel ∧ (c.onBoot f).mir = c.mir ∧ (c.onBoot f).replay = c.replay ∧
    (c.onBoot f).pwr = c.pwr ∧ (c.onBoot f).whl = c.whl ∧ (c.onBoot f).nvm = c.nvm ∧ (c.onBoot f).dst = c.dst ∧ (c.onBoot f).otp
    = c.otp ∧ (c.onBoot f).uarts = c.uarts ∧ (c.onBoot f).qsp = c.qsp ∧ (c.onBoot f).links = c.links ∧ (c.onBoot f).pinOver =
    c.pinOver ∧ (c.onBoot f).svc = c.svc ∧ (c.onBoot f).saved = c.saved ∧ (c.onBoot f).readData = c.readData ∧ (c.onBoot f).free
    = c.free :=
  ⟨rfl, rfl, rfl, rfl, rfl, rfl, rfl, rfl, rfl, rfl, rfl, rfl, rfl, rfl, rfl, rfl, rfl, rfl, rfl, rfl, rfl, rfl, rfl, rfl, rfl, rfl, rfl, rfl⟩

@[simp] theorem Core.onBob_frame (c : Core) (f : BobSt → BobSt) : (c.onBob f).regs = c.regs ∧ (c.onBob f).force = c.force ∧
    (c.onBob f).mem = c.mem ∧ (c.onBob f).hot = c.hot ∧ (c.onBob f).ckpt = c.ckpt ∧ (c.onBob f).plan = c.plan ∧ (c.onBob f).lpe
    = c.lpe ∧ (c.onBob f).out = c.out ∧ (c.onBob f).foc = c.foc ∧ (c.onBob f).prm = c.prm ∧ (c.onBob f).fly = c.fly ∧ (c.onBob
    f).reel = c.reel ∧ (c.onBob f).mir = c.mir ∧ (c.onBob f).replay = c.replay ∧ (c.onBob f).pwr = c.pwr ∧ (c.onBob f).whl =
    c.whl ∧ (c.onBob f).nvm = c.nvm ∧ (c.onBob f).dst = c.dst ∧ (c.onBob f).otp = c.otp ∧ (c.onBob f).uarts = c.uarts ∧ (c.onBob
    f).qsp = c.qsp ∧ (c.onBob f).links = c.links ∧ (c.onBob f).pinOver = c.pinOver ∧ (c.onBob f).svc = c.svc ∧ (c.onBob f).boot
    = c.boot ∧ (c.onBob f).saved = c.saved ∧ (c.onBob f).readData = c.readData ∧ (c.onBob f).free = c.free :=
  ⟨rfl, rfl, rfl, rfl, rfl, rfl, rfl, rfl, rfl, rfl, rfl, rfl, rfl, rfl, rfl, rfl, rfl, rfl, rfl, rfl, rfl, rfl, rfl, rfl, rfl, rfl, rfl, rfl⟩

@[simp] theorem Core.onWhl_frame (c : Core) (f : WhlSt → WhlSt) : (c.onWhl f).regs = c.regs ∧ (c.onWhl f).force = c.force ∧
    (c.onWhl f).mem = c.mem ∧ (c.onWhl f).hot = c.hot ∧ (c.onWhl f).ckpt = c.ckpt ∧ (c.onWhl f).plan = c.plan ∧ (c.onWhl f).bob
    = c.bob ∧ (c.onWhl f).lpe = c.lpe ∧ (c.onWhl f).out = c.out ∧ (c.onWhl f).foc = c.foc ∧ (c.onWhl f).prm = c.prm ∧ (c.onWhl
    f).fly = c.fly ∧ (c.onWhl f).reel = c.reel ∧ (c.onWhl f).mir = c.mir ∧ (c.onWhl f).replay = c.replay ∧ (c.onWhl f).pwr =
    c.pwr ∧ (c.onWhl f).nvm = c.nvm ∧ (c.onWhl f).dst = c.dst ∧ (c.onWhl f).otp = c.otp ∧ (c.onWhl f).uarts = c.uarts ∧ (c.onWhl
    f).qsp = c.qsp ∧ (c.onWhl f).links = c.links ∧ (c.onWhl f).pinOver = c.pinOver ∧ (c.onWhl f).svc = c.svc ∧ (c.onWhl f).boot
    = c.boot ∧ (c.onWhl f).saved = c.saved ∧ (c.onWhl f).readData = c.readData ∧ (c.onWhl f).free = c.free :=
  ⟨rfl, rfl, rfl, rfl, rfl, rfl, rfl, rfl, rfl, rfl, rfl, rfl, rfl, rfl, rfl, rfl, rfl, rfl, rfl, rfl, rfl, rfl, rfl, rfl, rfl, rfl, rfl, rfl⟩

@[simp] theorem Core.setForce_frame (c : Core) (a : Nat) (ws : List Word) : (c.setForce a ws).regs = c.regs ∧ (c.setForce a
    ws).mem = c.mem ∧ (c.setForce a ws).hot = c.hot ∧ (c.setForce a ws).ckpt = c.ckpt ∧ (c.setForce a ws).plan = c.plan ∧
    (c.setForce a ws).bob = c.bob ∧ (c.setForce a ws).lpe = c.lpe ∧ (c.setForce a ws).out = c.out ∧ (c.setForce a ws).foc =
    c.foc ∧ (c.setForce a ws).prm = c.prm ∧ (c.setForce a ws).fly = c.fly ∧ (c.setForce a ws).reel = c.reel ∧ (c.setForce a
    ws).mir = c.mir ∧ (c.setForce a ws).replay = c.replay ∧ (c.setForce a ws).pwr = c.pwr ∧ (c.setForce a ws).whl = c.whl ∧
    (c.setForce a ws).nvm = c.nvm ∧ (c.setForce a ws).dst = c.dst ∧ (c.setForce a ws).otp = c.otp ∧ (c.setForce a ws).uarts =
    c.uarts ∧ (c.setForce a ws).qsp = c.qsp ∧ (c.setForce a ws).links = c.links ∧ (c.setForce a ws).pinOver = c.pinOver ∧
    (c.setForce a ws).svc = c.svc ∧ (c.setForce a ws).boot = c.boot ∧ (c.setForce a ws).saved = c.saved ∧ (c.setForce a
    ws).readData = c.readData ∧ (c.setForce a ws).free = c.free :=
  ⟨rfl, rfl, rfl, rfl, rfl, rfl, rfl, rfl, rfl, rfl, rfl, rfl, rfl, rfl, rfl, rfl, rfl, rfl, rfl, rfl, rfl, rfl, rfl, rfl, rfl, rfl, rfl, rfl⟩

@[simp] theorem Core.onStream_frame (c : Core) (n : Nat) (f : StreamSt → StreamSt) : (c.onStream n f).regs = c.regs ∧
    (c.onStream n f).force = c.force ∧ (c.onStream n f).mem = c.mem ∧ (c.onStream n f).hot = c.hot ∧ (c.onStream n f).ckpt =
    c.ckpt ∧ (c.onStream n f).plan = c.plan ∧ (c.onStream n f).lpe = c.lpe ∧ (c.onStream n f).out = c.out ∧ (c.onStream n f).foc
    = c.foc ∧ (c.onStream n f).prm = c.prm ∧ (c.onStream n f).fly = c.fly ∧ (c.onStream n f).reel = c.reel ∧ (c.onStream n
    f).mir = c.mir ∧ (c.onStream n f).replay = c.replay ∧ (c.onStream n f).pwr = c.pwr ∧ (c.onStream n f).whl = c.whl ∧
    (c.onStream n f).nvm = c.nvm ∧ (c.onStream n f).dst = c.dst ∧ (c.onStream n f).otp = c.otp ∧ (c.onStream n f).uarts =
    c.uarts ∧ (c.onStream n f).qsp = c.qsp ∧ (c.onStream n f).links = c.links ∧ (c.onStream n f).pinOver = c.pinOver ∧
    (c.onStream n f).svc = c.svc ∧ (c.onStream n f).boot = c.boot ∧ (c.onStream n f).saved = c.saved ∧ (c.onStream n f).readData
    = c.readData ∧ (c.onStream n f).free = c.free :=
  ⟨rfl, rfl, rfl, rfl, rfl, rfl, rfl, rfl, rfl, rfl, rfl, rfl, rfl, rfl, rfl, rfl, rfl, rfl, rfl, rfl, rfl, rfl, rfl, rfl, rfl, rfl, rfl, rfl⟩

@[simp] theorem Core.setStrand_frame (c : Core) (n : Nat) (x : StrandSt) : (c.setStrand n x).regs = c.regs ∧ (c.setStrand n
    x).force = c.force ∧ (c.setStrand n x).mem = c.mem ∧ (c.setStrand n x).ckpt = c.ckpt ∧ (c.setStrand n x).plan = c.plan ∧
    (c.setStrand n x).bob = c.bob ∧ (c.setStrand n x).lpe = c.lpe ∧ (c.setStrand n x).out = c.out ∧ (c.setStrand n x).foc =
    c.foc ∧ (c.setStrand n x).prm = c.prm ∧ (c.setStrand n x).fly = c.fly ∧ (c.setStrand n x).reel = c.reel ∧ (c.setStrand n
    x).mir = c.mir ∧ (c.setStrand n x).replay = c.replay ∧ (c.setStrand n x).pwr = c.pwr ∧ (c.setStrand n x).whl = c.whl ∧
    (c.setStrand n x).nvm = c.nvm ∧ (c.setStrand n x).dst = c.dst ∧ (c.setStrand n x).otp = c.otp ∧ (c.setStrand n x).uarts =
    c.uarts ∧ (c.setStrand n x).qsp = c.qsp ∧ (c.setStrand n x).links = c.links ∧ (c.setStrand n x).pinOver = c.pinOver ∧
    (c.setStrand n x).svc = c.svc ∧ (c.setStrand n x).boot = c.boot ∧ (c.setStrand n x).saved = c.saved ∧ (c.setStrand n
    x).readData = c.readData ∧ (c.setStrand n x).free = c.free :=
  ⟨rfl, rfl, rfl, rfl, rfl, rfl, rfl, rfl, rfl, rfl, rfl, rfl, rfl, rfl, rfl, rfl, rfl, rfl, rfl, rfl, rfl, rfl, rfl, rfl, rfl, rfl, rfl, rfl⟩

@[simp] theorem Core.setPly_frame (c : Core) (n : Nat) (x : PlySt) : (c.setPly n x).regs = c.regs ∧ (c.setPly n x).force =
    c.force ∧ (c.setPly n x).mem = c.mem ∧ (c.setPly n x).ckpt = c.ckpt ∧ (c.setPly n x).plan = c.plan ∧ (c.setPly n x).bob =
    c.bob ∧ (c.setPly n x).lpe = c.lpe ∧ (c.setPly n x).out = c.out ∧ (c.setPly n x).foc = c.foc ∧ (c.setPly n x).prm = c.prm ∧
    (c.setPly n x).fly = c.fly ∧ (c.setPly n x).reel = c.reel ∧ (c.setPly n x).mir = c.mir ∧ (c.setPly n x).replay = c.replay ∧
    (c.setPly n x).pwr = c.pwr ∧ (c.setPly n x).whl = c.whl ∧ (c.setPly n x).nvm = c.nvm ∧ (c.setPly n x).dst = c.dst ∧
    (c.setPly n x).otp = c.otp ∧ (c.setPly n x).uarts = c.uarts ∧ (c.setPly n x).qsp = c.qsp ∧ (c.setPly n x).links = c.links ∧
    (c.setPly n x).pinOver = c.pinOver ∧ (c.setPly n x).svc = c.svc ∧ (c.setPly n x).boot = c.boot ∧ (c.setPly n x).saved =
    c.saved ∧ (c.setPly n x).readData = c.readData ∧ (c.setPly n x).free = c.free :=
  ⟨rfl, rfl, rfl, rfl, rfl, rfl, rfl, rfl, rfl, rfl, rfl, rfl, rfl, rfl, rfl, rfl, rfl, rfl, rfl, rfl, rfl, rfl, rfl, rfl, rfl, rfl, rfl, rfl⟩

@[simp] theorem Core.setSlice_frame (c : Core) (n : Nat) (x : SliceSt) : (c.setSlice n x).regs = c.regs ∧ (c.setSlice n x).force
    = c.force ∧ (c.setSlice n x).mem = c.mem ∧ (c.setSlice n x).ckpt = c.ckpt ∧ (c.setSlice n x).plan = c.plan ∧ (c.setSlice n
    x).bob = c.bob ∧ (c.setSlice n x).lpe = c.lpe ∧ (c.setSlice n x).out = c.out ∧ (c.setSlice n x).foc = c.foc ∧ (c.setSlice n
    x).prm = c.prm ∧ (c.setSlice n x).fly = c.fly ∧ (c.setSlice n x).reel = c.reel ∧ (c.setSlice n x).mir = c.mir ∧ (c.setSlice
    n x).replay = c.replay ∧ (c.setSlice n x).pwr = c.pwr ∧ (c.setSlice n x).whl = c.whl ∧ (c.setSlice n x).nvm = c.nvm ∧
    (c.setSlice n x).dst = c.dst ∧ (c.setSlice n x).otp = c.otp ∧ (c.setSlice n x).uarts = c.uarts ∧ (c.setSlice n x).qsp =
    c.qsp ∧ (c.setSlice n x).links = c.links ∧ (c.setSlice n x).pinOver = c.pinOver ∧ (c.setSlice n x).svc = c.svc ∧ (c.setSlice
    n x).boot = c.boot ∧ (c.setSlice n x).saved = c.saved ∧ (c.setSlice n x).readData = c.readData ∧ (c.setSlice n x).free =
    c.free :=
  ⟨rfl, rfl, rfl, rfl, rfl, rfl, rfl, rfl, rfl, rfl, rfl, rfl, rfl, rfl, rfl, rfl, rfl, rfl, rfl, rfl, rfl, rfl, rfl, rfl, rfl, rfl, rfl, rfl⟩

@[simp] theorem Core.setLatch_frame (c : Core) (n : Nat) (x : Latch) : (c.setLatch n x).regs = c.regs ∧ (c.setLatch n x).force =
    c.force ∧ (c.setLatch n x).mem = c.mem ∧ (c.setLatch n x).hot = c.hot ∧ (c.setLatch n x).ckpt = c.ckpt ∧ (c.setLatch n
    x).plan = c.plan ∧ (c.setLatch n x).bob = c.bob ∧ (c.setLatch n x).out = c.out ∧ (c.setLatch n x).foc = c.foc ∧ (c.setLatch
    n x).prm = c.prm ∧ (c.setLatch n x).fly = c.fly ∧ (c.setLatch n x).reel = c.reel ∧ (c.setLatch n x).mir = c.mir ∧
    (c.setLatch n x).replay = c.replay ∧ (c.setLatch n x).pwr = c.pwr ∧ (c.setLatch n x).whl = c.whl ∧ (c.setLatch n x).nvm =
    c.nvm ∧ (c.setLatch n x).dst = c.dst ∧ (c.setLatch n x).otp = c.otp ∧ (c.setLatch n x).uarts = c.uarts ∧ (c.setLatch n
    x).qsp = c.qsp ∧ (c.setLatch n x).links = c.links ∧ (c.setLatch n x).pinOver = c.pinOver ∧ (c.setLatch n x).svc = c.svc ∧
    (c.setLatch n x).boot = c.boot ∧ (c.setLatch n x).saved = c.saved ∧ (c.setLatch n x).readData = c.readData ∧ (c.setLatch n
    x).free = c.free :=
  ⟨rfl, rfl, rfl, rfl, rfl, rfl, rfl, rfl, rfl, rfl, rfl, rfl, rfl, rfl, rfl, rfl, rfl, rfl, rfl, rfl, rfl, rfl, rfl, rfl, rfl, rfl, rfl, rfl⟩

@[simp] theorem Core.setRc_frame (c : Core) (n : Nat) (x : ReelCnt) : (c.setRc n x).regs = c.regs ∧ (c.setRc n x).force =
    c.force ∧ (c.setRc n x).mem = c.mem ∧ (c.setRc n x).hot = c.hot ∧ (c.setRc n x).ckpt = c.ckpt ∧ (c.setRc n x).plan = c.plan
    ∧ (c.setRc n x).bob = c.bob ∧ (c.setRc n x).lpe = c.lpe ∧ (c.setRc n x).out = c.out ∧ (c.setRc n x).foc = c.foc ∧ (c.setRc n
    x).prm = c.prm ∧ (c.setRc n x).fly = c.fly ∧ (c.setRc n x).mir = c.mir ∧ (c.setRc n x).replay = c.replay ∧ (c.setRc n x).pwr
    = c.pwr ∧ (c.setRc n x).whl = c.whl ∧ (c.setRc n x).nvm = c.nvm ∧ (c.setRc n x).dst = c.dst ∧ (c.setRc n x).otp = c.otp ∧
    (c.setRc n x).uarts = c.uarts ∧ (c.setRc n x).qsp = c.qsp ∧ (c.setRc n x).links = c.links ∧ (c.setRc n x).pinOver =
    c.pinOver ∧ (c.setRc n x).svc = c.svc ∧ (c.setRc n x).boot = c.boot ∧ (c.setRc n x).saved = c.saved ∧ (c.setRc n x).readData
    = c.readData ∧ (c.setRc n x).free = c.free :=
  ⟨rfl, rfl, rfl, rfl, rfl, rfl, rfl, rfl, rfl, rfl, rfl, rfl, rfl, rfl, rfl, rfl, rfl, rfl, rfl, rfl, rfl, rfl, rfl, rfl, rfl, rfl, rfl, rfl⟩

@[simp] theorem Core.setTp_frame (c : Core) (n : Nat) (x : TpSt) : (c.setTp n x).regs = c.regs ∧ (c.setTp n x).force = c.force ∧
    (c.setTp n x).mem = c.mem ∧ (c.setTp n x).hot = c.hot ∧ (c.setTp n x).ckpt = c.ckpt ∧ (c.setTp n x).plan = c.plan ∧ (c.setTp
    n x).bob = c.bob ∧ (c.setTp n x).lpe = c.lpe ∧ (c.setTp n x).out = c.out ∧ (c.setTp n x).foc = c.foc ∧ (c.setTp n x).prm =
    c.prm ∧ (c.setTp n x).reel = c.reel ∧ (c.setTp n x).mir = c.mir ∧ (c.setTp n x).replay = c.replay ∧ (c.setTp n x).pwr =
    c.pwr ∧ (c.setTp n x).whl = c.whl ∧ (c.setTp n x).nvm = c.nvm ∧ (c.setTp n x).dst = c.dst ∧ (c.setTp n x).otp = c.otp ∧
    (c.setTp n x).uarts = c.uarts ∧ (c.setTp n x).qsp = c.qsp ∧ (c.setTp n x).links = c.links ∧ (c.setTp n x).pinOver =
    c.pinOver ∧ (c.setTp n x).svc = c.svc ∧ (c.setTp n x).boot = c.boot ∧ (c.setTp n x).saved = c.saved ∧ (c.setTp n x).readData
    = c.readData ∧ (c.setTp n x).free = c.free :=
  ⟨rfl, rfl, rfl, rfl, rfl, rfl, rfl, rfl, rfl, rfl, rfl, rfl, rfl, rfl, rfl, rfl, rfl, rfl, rfl, rfl, rfl, rfl, rfl, rfl, rfl, rfl, rfl, rfl⟩

@[simp] theorem Core.setJob_frame (c : Core) (j : Job) : (c.setJob j).regs = c.regs ∧ (c.setJob j).force = c.force ∧ (c.setJob
    j).mem = c.mem ∧ (c.setJob j).hot = c.hot ∧ (c.setJob j).ckpt = c.ckpt ∧ (c.setJob j).bob = c.bob ∧ (c.setJob j).lpe = c.lpe
    ∧ (c.setJob j).out = c.out ∧ (c.setJob j).foc = c.foc ∧ (c.setJob j).prm = c.prm ∧ (c.setJob j).fly = c.fly ∧ (c.setJob
    j).reel = c.reel ∧ (c.setJob j).mir = c.mir ∧ (c.setJob j).replay = c.replay ∧ (c.setJob j).pwr = c.pwr ∧ (c.setJob j).whl =
    c.whl ∧ (c.setJob j).nvm = c.nvm ∧ (c.setJob j).dst = c.dst ∧ (c.setJob j).otp = c.otp ∧ (c.setJob j).uarts = c.uarts ∧
    (c.setJob j).qsp = c.qsp ∧ (c.setJob j).links = c.links ∧ (c.setJob j).pinOver = c.pinOver ∧ (c.setJob j).svc = c.svc ∧
    (c.setJob j).boot = c.boot ∧ (c.setJob j).saved = c.saved ∧ (c.setJob j).readData = c.readData ∧ (c.setJob j).free = c.free
    :=
  ⟨rfl, rfl, rfl, rfl, rfl, rfl, rfl, rfl, rfl, rfl, rfl, rfl, rfl, rfl, rfl, rfl, rfl, rfl, rfl, rfl, rfl, rfl, rfl, rfl, rfl, rfl, rfl, rfl⟩

@[simp] theorem Core.notify_frame (c : Core) (code : Nat) (d : List Byte) : (c.notify code d).regs = c.regs ∧ (c.notify code
    d).force = c.force ∧ (c.notify code d).mem = c.mem ∧ (c.notify code d).hot = c.hot ∧ (c.notify code d).ckpt = c.ckpt ∧
    (c.notify code d).plan = c.plan ∧ (c.notify code d).bob = c.bob ∧ (c.notify code d).lpe = c.lpe ∧ (c.notify code d).out =
    c.out ∧ (c.notify code d).foc = c.foc ∧ (c.notify code d).prm = c.prm ∧ (c.notify code d).fly = c.fly ∧ (c.notify code
    d).reel = c.reel ∧ (c.notify code d).mir = c.mir ∧ (c.notify code d).replay = c.replay ∧ (c.notify code d).pwr = c.pwr ∧
    (c.notify code d).whl = c.whl ∧ (c.notify code d).nvm = c.nvm ∧ (c.notify code d).dst = c.dst ∧ (c.notify code d).otp =
    c.otp ∧ (c.notify code d).uarts = c.uarts ∧ (c.notify code d).qsp = c.qsp ∧ (c.notify code d).pinOver = c.pinOver ∧
    (c.notify code d).svc = c.svc ∧ (c.notify code d).boot = c.boot ∧ (c.notify code d).saved = c.saved ∧ (c.notify code
    d).readData = c.readData ∧ (c.notify code d).free = c.free :=
  ⟨rfl, rfl, rfl, rfl, rfl, rfl, rfl, rfl, rfl, rfl, rfl, rfl, rfl, rfl, rfl, rfl, rfl, rfl, rfl, rfl, rfl, rfl, rfl, rfl, rfl, rfl, rfl, rfl⟩

@[simp] theorem Core.onHot_hot (c : Core) (f : Hot → Hot) : (c.onHot f).hot = f c.hot := rfl

@[simp] theorem Core.onFly_fly (c : Core) (f : FlySt → FlySt) : (c.onFly f).fly = f c.fly := rfl

@[simp] theorem Core.onFocOut_foc (c : Core) (f : FocOut → FocOut) : (c.onFocOut f).foc = f c.foc := rfl

@[simp] theorem Core.onPlan_plan (c : Core) (f : PlanSt → PlanSt) : (c.onPlan f).plan = f c.plan := rfl

@[simp] theorem Core.onLpe_lpe (c : Core) (f : LpeSt → LpeSt) : (c.onLpe f).lpe = f c.lpe := rfl

@[simp] theorem Core.onOut_out (c : Core) (f : OutSt → OutSt) : (c.onOut f).out = f c.out := rfl

@[simp] theorem Core.onMir_mir (c : Core) (f : MirSt → MirSt) : (c.onMir f).mir = f c.mir := rfl

@[simp] theorem Core.onPwr_pwr (c : Core) (f : PwrSt → PwrSt) : (c.onPwr f).pwr = f c.pwr := rfl

@[simp] theorem Core.onPrm_prm (c : Core) (f : PrismSt → PrismSt) : (c.onPrm f).prm = f c.prm := rfl

@[simp] theorem Core.onReel_reel (c : Core) (f : ReelSt → ReelSt) : (c.onReel f).reel = f c.reel := rfl

@[simp] theorem Core.onUart_uarts (c : Core) (n : Nat) (f : UartSt → UartSt) : (c.onUart n f).uarts = putAt c.uarts n (f (c.uart n)) := rfl

@[simp] theorem Core.onLink_links (c : Core) (l : Nat) (f : LinkSt → LinkSt) : (c.onLink l f).links = putAt c.links l (f (c.link l)) := rfl

@[simp] theorem Core.onQsp_qsp (c : Core) (f : QspSt → QspSt) : (c.onQsp f).qsp = f c.qsp := rfl

@[simp] theorem Core.onSvc_svc (c : Core) (f : SvcSt → SvcSt) : (c.onSvc f).svc = f c.svc := rfl

@[simp] theorem Core.onNvm_nvm (c : Core) (f : NvmSt → NvmSt) : (c.onNvm f).nvm = f c.nvm := rfl

@[simp] theorem Core.onDst_dst (c : Core) (f : DstSt → DstSt) : (c.onDst f).dst = f c.dst := rfl

@[simp] theorem Core.onBoot_boot (c : Core) (f : BootSt → BootSt) : (c.onBoot f).boot = f c.boot := rfl

@[simp] theorem Core.onBob_bob (c : Core) (f : BobSt → BobSt) : (c.onBob f).bob = f c.bob := rfl

@[simp] theorem Core.onWhl_whl (c : Core) (f : WhlSt → WhlSt) : (c.onWhl f).whl = f c.whl := rfl

@[simp] theorem Core.setForce_force (c : Core) (a : Nat) (ws : List Word) : (c.setForce a ws).force = c.force.setWords a ws := rfl

/-! ### Registers and fields -/

@[simp] theorem Core.reg_setReg_same (c : Core) (a : Nat) (w : Word) : (c.setReg a w).reg a = w := RegMap.reg_setReg_same

theorem Core.reg_setReg_other (c : Core) {a b : Nat} (w : Word) (h : a ≠ b) : (c.setReg a w).reg b = c.reg b :=
  RegMap.reg_setReg_other h

theorem Core.reg_setFld_other (c : Core) {f : Fld} {b : Nat} (v : Nat) (h : f.addr ≠ b) : (c.setFld f v).reg b = c.reg b :=
  RegMap.reg_setReg_other h

theorem Core.reg_raise_other (c : Core) {f : Fld} {b : Nat} (h : f.addr ≠ b) : (c.raise f).reg b = c.reg b :=
  RegMap.reg_setReg_other h

theorem Core.reg_countSat_other (c : Core) {f : Fld} {b : Nat} (n : Nat) (h : f.addr ≠ b) : (c.countSat f n).reg b = c.reg b :=
  RegMap.reg_setReg_other h

/-- A field set is read back, modulo its width. -/
theorem Core.fld_setFld_same (c : Core) {f : Fld} (v : Nat) (h1 : f.lo ≤ f.hi) (h2 : f.hi < 32) :
    (c.setFld f v).fld f = v % 2 ^ (f.hi - f.lo + 1) := RegMap.fld_setFld_same h1 h2

/-- A field set leaves other registers and the other fields of its register alone. -/
theorem Core.fld_setFld_other (c : Core) {f g : Fld} (v : Nat)
    (h : f.addr ≠ g.addr ∨ (f.lo ≤ f.hi ∧ f.hi < 32 ∧ g.lo ≤ g.hi ∧ (g.hi < f.lo ∨ f.hi < g.lo))) :
    (c.setFld f v).fld g = c.fld g := by
  by_cases ha : f.addr = g.addr
  · rcases h with h | ⟨h1, h2, h3, h4⟩
    · exact absurd ha h
    · exact RegMap.fld_setFld_bits ha h1 h2 h3 h4
  · exact RegMap.fld_setFld_addr ha

theorem Core.fld_setReg_other (c : Core) {a : Nat} {g : Fld} (w : Word) (h : a ≠ g.addr) : (c.setReg a w).fld g = c.fld g := by
  show bits ((c.setReg a w).reg g.addr) g.hi g.lo = _
  rw [Core.reg_setReg_other c w h]; rfl

theorem Core.fld_setReg_same (c : Core) {a : Nat} {g : Fld} (w : Word) (h : a = g.addr) :
    (c.setReg a w).fld g = bits w g.hi g.lo := by
  subst h
  show bits ((c.setReg g.addr w).reg g.addr) g.hi g.lo = _
  rw [Core.reg_setReg_same]

theorem Core.fld_raise_same (c : Core) {f : Fld} (h1 : f.lo ≤ f.hi) (h2 : f.hi < 32) : (c.raise f).fld f = 1 := by
  have : 1 % 2 ^ (f.hi - f.lo + 1) = 1 := Nat.mod_eq_of_lt (Nat.one_lt_two_pow (Nat.succ_ne_zero _))
  rw [Core.raise, Core.fld_setFld_same c 1 h1 h2, this]

theorem Core.fld_raise_other (c : Core) {f g : Fld}
    (h : f.addr ≠ g.addr ∨ (f.lo ≤ f.hi ∧ f.hi < 32 ∧ g.lo ≤ g.hi ∧ (g.hi < f.lo ∨ f.hi < g.lo))) : (c.raise f).fld g = c.fld g :=
  Core.fld_setFld_other c 1 h

/-- A counter field counts and saturates at its width. -/
theorem Core.fld_countSat_same (c : Core) {f : Fld} (n : Nat) (h1 : f.lo ≤ f.hi) (h2 : f.hi < 32) :
    (c.countSat f n).fld f = satAdd (2 ^ (f.hi - f.lo + 1) - 1) (c.fld f) n := by
  rw [Core.countSat, Core.fld_setFld_same c _ h1 h2]
  apply Nat.mod_eq_of_lt
  have := Nat.two_pow_pos (f.hi - f.lo + 1)
  unfold satAdd
  omega

theorem Core.fld_countSat_other (c : Core) {f g : Fld} (n : Nat)
    (h : f.addr ≠ g.addr ∨ (f.lo ≤ f.hi ∧ f.hi < 32 ∧ g.lo ≤ g.hi ∧ (g.hi < f.lo ∨ f.hi < g.lo))) :
    (c.countSat f n).fld g = c.fld g := Core.fld_setFld_other c _ h

/-- A field lies below 2 to its width. -/
theorem Core.fld_lt (c : Core) (f : Fld) : c.fld f < 2 ^ (f.hi - f.lo + 1) := Nat.mod_lt _ (Nat.two_pow_pos _)

@[simp] theorem Core.fld_onHot (c : Core) (f : Hot → Hot) (g : Fld) : (c.onHot f).fld g = c.fld g := rfl

@[simp] theorem Core.reg_onHot (c : Core) (f : Hot → Hot) (b : Nat) : (c.onHot f).reg b = c.reg b := rfl

@[simp] theorem Core.fld_onFly (c : Core) (f : FlySt → FlySt) (g : Fld) : (c.onFly f).fld g = c.fld g := rfl

@[simp] theorem Core.reg_onFly (c : Core) (f : FlySt → FlySt) (b : Nat) : (c.onFly f).reg b = c.reg b := rfl

@[simp] theorem Core.fld_onFocOut (c : Core) (f : FocOut → FocOut) (g : Fld) : (c.onFocOut f).fld g = c.fld g := rfl

@[simp] theorem Core.reg_onFocOut (c : Core) (f : FocOut → FocOut) (b : Nat) : (c.onFocOut f).reg b = c.reg b := rfl

@[simp] theorem Core.fld_onPlan (c : Core) (f : PlanSt → PlanSt) (g : Fld) : (c.onPlan f).fld g = c.fld g := rfl

@[simp] theorem Core.reg_onPlan (c : Core) (f : PlanSt → PlanSt) (b : Nat) : (c.onPlan f).reg b = c.reg b := rfl

@[simp] theorem Core.fld_onLpe (c : Core) (f : LpeSt → LpeSt) (g : Fld) : (c.onLpe f).fld g = c.fld g := rfl

@[simp] theorem Core.reg_onLpe (c : Core) (f : LpeSt → LpeSt) (b : Nat) : (c.onLpe f).reg b = c.reg b := rfl

@[simp] theorem Core.fld_onOut (c : Core) (f : OutSt → OutSt) (g : Fld) : (c.onOut f).fld g = c.fld g := rfl

@[simp] theorem Core.reg_onOut (c : Core) (f : OutSt → OutSt) (b : Nat) : (c.onOut f).reg b = c.reg b := rfl

@[simp] theorem Core.fld_onMir (c : Core) (f : MirSt → MirSt) (g : Fld) : (c.onMir f).fld g = c.fld g := rfl

@[simp] theorem Core.reg_onMir (c : Core) (f : MirSt → MirSt) (b : Nat) : (c.onMir f).reg b = c.reg b := rfl

@[simp] theorem Core.fld_onPwr (c : Core) (f : PwrSt → PwrSt) (g : Fld) : (c.onPwr f).fld g = c.fld g := rfl

@[simp] theorem Core.reg_onPwr (c : Core) (f : PwrSt → PwrSt) (b : Nat) : (c.onPwr f).reg b = c.reg b := rfl

@[simp] theorem Core.fld_onPrm (c : Core) (f : PrismSt → PrismSt) (g : Fld) : (c.onPrm f).fld g = c.fld g := rfl

@[simp] theorem Core.reg_onPrm (c : Core) (f : PrismSt → PrismSt) (b : Nat) : (c.onPrm f).reg b = c.reg b := rfl

@[simp] theorem Core.fld_onReel (c : Core) (f : ReelSt → ReelSt) (g : Fld) : (c.onReel f).fld g = c.fld g := rfl

@[simp] theorem Core.reg_onReel (c : Core) (f : ReelSt → ReelSt) (b : Nat) : (c.onReel f).reg b = c.reg b := rfl

@[simp] theorem Core.fld_onUart (c : Core) (n : Nat) (f : UartSt → UartSt) (g : Fld) : (c.onUart n f).fld g = c.fld g := rfl

@[simp] theorem Core.reg_onUart (c : Core) (n : Nat) (f : UartSt → UartSt) (b : Nat) : (c.onUart n f).reg b = c.reg b := rfl

@[simp] theorem Core.fld_onLink (c : Core) (l : Nat) (f : LinkSt → LinkSt) (g : Fld) : (c.onLink l f).fld g = c.fld g := rfl

@[simp] theorem Core.reg_onLink (c : Core) (l : Nat) (f : LinkSt → LinkSt) (b : Nat) : (c.onLink l f).reg b = c.reg b := rfl

@[simp] theorem Core.fld_onQsp (c : Core) (f : QspSt → QspSt) (g : Fld) : (c.onQsp f).fld g = c.fld g := rfl

@[simp] theorem Core.reg_onQsp (c : Core) (f : QspSt → QspSt) (b : Nat) : (c.onQsp f).reg b = c.reg b := rfl

@[simp] theorem Core.fld_onSvc (c : Core) (f : SvcSt → SvcSt) (g : Fld) : (c.onSvc f).fld g = c.fld g := rfl

@[simp] theorem Core.reg_onSvc (c : Core) (f : SvcSt → SvcSt) (b : Nat) : (c.onSvc f).reg b = c.reg b := rfl

@[simp] theorem Core.fld_onNvm (c : Core) (f : NvmSt → NvmSt) (g : Fld) : (c.onNvm f).fld g = c.fld g := rfl

@[simp] theorem Core.reg_onNvm (c : Core) (f : NvmSt → NvmSt) (b : Nat) : (c.onNvm f).reg b = c.reg b := rfl

@[simp] theorem Core.fld_onDst (c : Core) (f : DstSt → DstSt) (g : Fld) : (c.onDst f).fld g = c.fld g := rfl

@[simp] theorem Core.reg_onDst (c : Core) (f : DstSt → DstSt) (b : Nat) : (c.onDst f).reg b = c.reg b := rfl

@[simp] theorem Core.fld_onBoot (c : Core) (f : BootSt → BootSt) (g : Fld) : (c.onBoot f).fld g = c.fld g := rfl

@[simp] theorem Core.reg_onBoot (c : Core) (f : BootSt → BootSt) (b : Nat) : (c.onBoot f).reg b = c.reg b := rfl

@[simp] theorem Core.fld_onBob (c : Core) (f : BobSt → BobSt) (g : Fld) : (c.onBob f).fld g = c.fld g := rfl

@[simp] theorem Core.reg_onBob (c : Core) (f : BobSt → BobSt) (b : Nat) : (c.onBob f).reg b = c.reg b := rfl

@[simp] theorem Core.fld_onWhl (c : Core) (f : WhlSt → WhlSt) (g : Fld) : (c.onWhl f).fld g = c.fld g := rfl

@[simp] theorem Core.reg_onWhl (c : Core) (f : WhlSt → WhlSt) (b : Nat) : (c.onWhl f).reg b = c.reg b := rfl

@[simp] theorem Core.fld_setForce (c : Core) (a : Nat) (ws : List Word) (g : Fld) : (c.setForce a ws).fld g = c.fld g := rfl

@[simp] theorem Core.reg_setForce (c : Core) (a : Nat) (ws : List Word) (b : Nat) : (c.setForce a ws).reg b = c.reg b := rfl

@[simp] theorem Core.fld_onStream (c : Core) (n : Nat) (f : StreamSt → StreamSt) (g : Fld) : (c.onStream n f).fld g = c.fld g := rfl

@[simp] theorem Core.reg_onStream (c : Core) (n : Nat) (f : StreamSt → StreamSt) (b : Nat) : (c.onStream n f).reg b = c.reg b := rfl

@[simp] theorem Core.fld_setStrand (c : Core) (n : Nat) (x : StrandSt) (g : Fld) : (c.setStrand n x).fld g = c.fld g := rfl

@[simp] theorem Core.reg_setStrand (c : Core) (n : Nat) (x : StrandSt) (b : Nat) : (c.setStrand n x).reg b = c.reg b := rfl

@[simp] theorem Core.fld_setPly (c : Core) (n : Nat) (x : PlySt) (g : Fld) : (c.setPly n x).fld g = c.fld g := rfl

@[simp] theorem Core.reg_setPly (c : Core) (n : Nat) (x : PlySt) (b : Nat) : (c.setPly n x).reg b = c.reg b := rfl

@[simp] theorem Core.fld_setSlice (c : Core) (n : Nat) (x : SliceSt) (g : Fld) : (c.setSlice n x).fld g = c.fld g := rfl

@[simp] theorem Core.reg_setSlice (c : Core) (n : Nat) (x : SliceSt) (b : Nat) : (c.setSlice n x).reg b = c.reg b := rfl

@[simp] theorem Core.fld_setLatch (c : Core) (n : Nat) (x : Latch) (g : Fld) : (c.setLatch n x).fld g = c.fld g := rfl

@[simp] theorem Core.reg_setLatch (c : Core) (n : Nat) (x : Latch) (b : Nat) : (c.setLatch n x).reg b = c.reg b := rfl

@[simp] theorem Core.fld_setRc (c : Core) (n : Nat) (x : ReelCnt) (g : Fld) : (c.setRc n x).fld g = c.fld g := rfl

@[simp] theorem Core.reg_setRc (c : Core) (n : Nat) (x : ReelCnt) (b : Nat) : (c.setRc n x).reg b = c.reg b := rfl

@[simp] theorem Core.fld_setTp (c : Core) (n : Nat) (x : TpSt) (g : Fld) : (c.setTp n x).fld g = c.fld g := rfl

@[simp] theorem Core.reg_setTp (c : Core) (n : Nat) (x : TpSt) (b : Nat) : (c.setTp n x).reg b = c.reg b := rfl

@[simp] theorem Core.fld_setJob (c : Core) (j : Job) (g : Fld) : (c.setJob j).fld g = c.fld g := rfl

@[simp] theorem Core.reg_setJob (c : Core) (j : Job) (b : Nat) : (c.setJob j).reg b = c.reg b := rfl

@[simp] theorem Core.fld_notify (c : Core) (code : Nat) (d : List Byte) (g : Fld) : (c.notify code d).fld g = c.fld g := rfl

@[simp] theorem Core.reg_notify (c : Core) (code : Nat) (d : List Byte) (b : Nat) : (c.notify code d).reg b = c.reg b := rfl

/-! ### One of many like things -/

@[simp] theorem Core.strand_setStrand_same (c : Core) (n : Nat) (x : StrandSt) : (c.setStrand n x).strand n = x := mapGet_put_same

theorem Core.strand_setStrand_other (c : Core) {n k : Nat} (x : StrandSt) (h : n ≠ k) : (c.setStrand n x).strand k = c.strand k := mapGet_put_other h

@[simp] theorem Core.ply_setPly_same (c : Core) (n : Nat) (x : PlySt) : (c.setPly n x).ply n = x := mapGet_put_same

theorem Core.ply_setPly_other (c : Core) {n k : Nat} (x : PlySt) (h : n ≠ k) : (c.setPly n x).ply k = c.ply k := mapGet_put_other h

@[simp] theorem Core.latch_setLatch_same (c : Core) (n : Nat) (x : Latch) : (c.setLatch n x).latch n = x := mapGet_put_same

theorem Core.latch_setLatch_other (c : Core) {n k : Nat} (x : Latch) (h : n ≠ k) : (c.setLatch n x).latch k = c.latch k := mapGet_put_other h

theorem Core.rc_setRc_same (c : Core) {n : Nat} (x : ReelCnt) (h : n < 8) : (c.setRc n x).rc n = x := vecAt_putAt_same h

theorem Core.rc_setRc_other (c : Core) {n k : Nat} (x : ReelCnt) (h : n ≠ k) : (c.setRc n x).rc k = c.rc k := vecAt_putAt_other h

theorem Core.tp_setTp_same (c : Core) {n : Nat} (x : TpSt) (h : n < 4) : (c.setTp n x).tp n = x := vecAt_putAt_same h

theorem Core.tp_setTp_other (c : Core) {n k : Nat} (x : TpSt) (h : n ≠ k) : (c.setTp n x).tp k = c.tp k := vecAt_putAt_other h

theorem Core.stream_onStream_same (c : Core) {n : Nat} (f : StreamSt → StreamSt) (h : n < 8) :
    (c.onStream n f).stream n = f (c.stream n) := vecAt_modAt_same h

theorem Core.stream_onStream_other (c : Core) {n k : Nat} (f : StreamSt → StreamSt) (h : n ≠ k) :
    (c.onStream n f).stream k = c.stream k := vecAt_modAt_other h

/-! ### The state -/

@[simp] theorem State.put_frame (s : State) (c : Core) :
    (s.put c).pending = s.pending ∧ (s.put c).held = s.held ∧ (s.put c).clk = s.clk ∧ (s.put c).core = c := ⟨rfl, rfl, rfl, rfl⟩

@[simp] theorem State.reseat_frame (s : State) (c : Core) :
    (s.reseat c).pending = s.pending ∧ (s.reseat c).held = [] ∧ (s.reseat c).clk = { epoch := 0, fc := 0 } ∧ (s.reseat c).core = c :=
  ⟨rfl, rfl, rfl, rfl⟩

@[simp] theorem State.goTo_frame (s : State) (fc : Nat) :
    (s.goTo fc).pending = s.pending ∧ (s.goTo fc).held = s.held ∧ (s.goTo fc).clk = { epoch := s.clk.epoch, fc := fc } ∧
      (s.goTo fc).core = s.core.moveTo s.clk fc := ⟨rfl, rfl, rfl, rfl⟩

@[simp] theorem State.began_pending (s : State) (r : Started) : (s.began r).pending = s.pending := by
  unfold State.began; split <;> rfl

@[simp] theorem State.began_held (s : State) (r : Started) : (s.began r).held = s.held := by
  unfold State.began; split <;> rfl

theorem State.began_clk (s : State) (r : Started) : (s.began r).clk = s.clk ∨ (s.began r).clk.fc = 0 := by
  unfold State.began; split
  · exact .inr rfl
  · exact .inl rfl

@[simp] theorem State.began_core (s : State) (r : Started) : (s.began r).core = r.1 := by
  unfold State.began; split <;> rfl

end Sys2Proof.Machine
end

