-- ==== Sys2Proof/Laws/Run.lean ====
section
/-! SUPPORT. What each way of reaching the device can do, said once: the next state of a command that runs, reads, waits as a console
line, or falls at an instant; and what every one of them keeps. -/
namespace Sys2Proof.Machine

/-- A next state with the same queue. -/
def KeepsQueue (s : State) (o : Result) : Prop := ∃ t, o = .next t ∧ t.pending = s.pending

/-- A next state at the same instant with the same queue and the same held lines. -/
def KeepsTime (s : State) (o : Result) : Prop := ∃ t, o = .next t ∧ t.pending = s.pending ∧ t.held = s.held ∧ t.clk = s.clk

theorem KeepsTime.keepsQueue {s : State} {o : Result} (h : KeepsTime s o) : KeepsQueue s o :=
  let ⟨t, h1, h2, _⟩ := h; ⟨t, h1, h2⟩

theorem State.run_on {s : State} (f : Clock → Core → Core) (h : s.core.coreOn = true) :
    s.run f = .next (s.put (f s.clk s.core).sendDones) := by simp [State.run, h]

theorem State.run_off {s : State} (f : Clock → Core → Core) (h : s.core.coreOn = false) : s.run f = .next s := by
  simp [State.run, h]

theorem State.run_keeps (s : State) (f : Clock → Core → Core) : KeepsTime s (s.run f) := by
  cases h : s.core.coreOn
  · exact ⟨s, State.run_off f h, rfl, rfl, rfl⟩
  · exact ⟨_, State.run_on f h, rfl, rfl, rfl⟩

theorem State.always_keeps (s : State) (f : Clock → Core → Core) : KeepsTime s (s.always f) := ⟨_, rfl, rfl, rfl, rfl⟩

theorem State.read_on {s : State} (a : Nat) (h : s.core.coreOn = true) :
    s.read a = .next (s.put
      ({ (s.core.regRead s.clk a).1 with readData := [(s.core.regRead s.clk a).2] } : Core).sendDones) := State.run_on _ h

theorem State.read_keeps (s : State) (a : Nat) : KeepsTime s (s.read a) := State.run_keeps s _

theorem State.qspRead_on {s : State} (lanes n : Nat) (f : Core → Core) (h : s.core.coreOn = true) :
    s.qspRead lanes n f = .next (s.put (s.core.qspCmd lanes f).sendDones) := by simp [State.qspRead, h]

theorem State.qspRead_off {s : State} (lanes n : Nat) (f : Core → Core) (h : s.core.coreOn = false) :
    s.qspRead lanes n f = .next (s.put (s.core.onQsp fun q => { q with resp := List.replicate n 0xFF })) := by simp [State.qspRead, h]

theorem State.qspRead_keeps (s : State) (lanes n : Nat) (f : Core → Core) : KeepsTime s (s.qspRead lanes n f) := ⟨_, rfl, rfl, rfl, rfl⟩

theorem State.start_on {s : State} (f : Clock → Core → Started) (h : s.core.coreOn = true) :
    s.start f = .next (s.began (f s.clk s.core)) := by simp [State.start, h]

theorem State.start_keeps (s : State) (f : Clock → Core → Started) : KeepsQueue s (s.start f) := by
  cases h : s.core.coreOn
  · exact ⟨s, by simp [State.start, h], rfl⟩
  · exact ⟨_, State.start_on f h, by simp⟩

/-- A console line that finds no command running runs at once. -/
theorem State.line_runs {s : State} (i : Instr) (f : Clock → Core → Core) (h : (s.core.conLive && s.core.conBusy) = false) :
    s.line i f = s.run f := by simp [State.line, h]

/-- A console line waits while a command runs (R459). -/
theorem State.line_waits {s : State} (i : Instr) (f : Clock → Core → Core) (h : (s.core.conLive && s.core.conBusy) = true) :
    s.line i f = .next { s with held := s.held ++ [i] } := by simp [State.line, h]

theorem State.line_keeps (s : State) (i : Instr) (f : Clock → Core → Core) : KeepsQueue s (s.line i f) := by
  cases h : (s.core.conLive && s.core.conBusy)
  · rw [State.line_runs i f h]; exact (State.run_keeps s f).keepsQueue
  · exact ⟨_, State.line_waits i f h, rfl⟩

/-- An event at an fc ahead in the running half-epoch takes time there. -/
theorem State.at_due {s : State} {fc : Nat} (f : Clock → Core → Core) (h1 : s.core.epochsRun = true) (h2 : s.clk.fc ≤ fc)
    (h3 : fc ≤ s.clk.halfLast) : s.at fc f = (s.goTo fc).run f := by simp [State.at, h1, h2, h3]

theorem State.at_keeps (s : State) (fc : Nat) (f : Clock → Core → Core) : KeepsQueue s (s.at fc f) := by
  unfold State.at
  split
  · obtain ⟨t, h1, h2, _⟩ := State.run_keeps (s.goTo fc) f
    exact ⟨t, h1, by simpa using h2⟩
  · exact ⟨s, rfl, rfl⟩

theorem State.due_keeps (s : State) (fc : Option Nat) (f : Clock → Core → Core) : KeepsQueue s (s.due fc f) := by
  cases fc with
  | none => exact ⟨s, rfl, rfl⟩
  | some n => exact State.at_keeps s n f

theorem State.boundary_keeps (s : State) (inp : HalfInput) : KeepsQueue s (s.boundary inp) := by
  unfold State.boundary; split
  · exact ⟨_, rfl, rfl⟩
  · exact ⟨s, rfl, rfl⟩

theorem State.check_keeps (s : State) (inp : HalfInput) : KeepsQueue s (s.check inp) := by
  unfold State.check; split
  · exact ⟨_, rfl, rfl⟩
  · exact ⟨s, rfl, rfl⟩

theorem State.slot_keeps (s : State) (i : Nat) (bad : Option Nat) : KeepsQueue s (s.slot i bad) := by
  unfold State.slot; split
  · split
    · exact ⟨_, rfl, rfl⟩
    · exact ⟨s, rfl, rfl⟩
  · exact ⟨s, rfl, rfl⟩

theorem State.overrun_keeps (s : State) (i : Nat) : KeepsQueue s (s.overrun i) := by
  unfold State.overrun; split
  · split
    · exact ⟨_, rfl, rfl⟩
    · exact ⟨s, rfl, rfl⟩
  · exact ⟨s, rfl, rfl⟩

/-- A slice that runs keeps its time. -/
theorem Core.atClock_runs {c : Core} {t : Clock} {k : Nat} (h : c.flag (F.LPE_SLSTAT.RUN k) = true) : c.atClock t k = c := by
  simp [Core.atClock, h]

/-- One that does not run takes the present instant, and nothing else changes. -/
theorem Core.atClock_idle {c : Core} {t : Clock} {k : Nat} (h : c.flag (F.LPE_SLSTAT.RUN k) = false) :
    c.atClock t k = c.onSlice k fun x => { x with t0 := fcPerEpoch * t.epoch + t.fc - x.now } := by
  simp [Core.atClock, h]

@[simp] theorem Core.atClock_reg (c : Core) (t : Clock) (k a : Nat) : (c.atClock t k).reg a = c.reg a := by
  unfold Core.atClock; split <;> rfl

/-- Where no slot starts on the way, time passes and nothing else happens. -/
theorem Core.moveTo_noSlot {c : Core} {t : Clock} {fc : Nat} (h : c.dueSlots t fc = []) : c.moveTo t fc = c.passTo t fc := by
  simp [Core.moveTo, h]

/-- An operation that R225 defines, on a slice that can run, does what `g` says; the last one of a bundle ends it. -/
theorem State.op_on {s : State} {op : Nat} {k : Fin 9} {f : Fin 4} {w : BitVec 24} (last : Bool)
    (g : Core → Nat → Nat → Word → Core) (h1 : s.core.coreOn = true) (h2 : s.core.sliceOn k.val = true)
    (h3 : opOk f.val (sliceWord op w) = true) :
    s.op op k f w last g = .next (s.put (
      (fun c : Core => if last then c.endBundle k.val else c)
        (g (s.core.atClock s.clk k.val) k.val f.val (sliceWord op w))).sendDones) := by
  simp [State.op, State.opAt, State.run_on _ h1, h2, h3]

theorem State.opAt_keeps (s : State) (op : Nat) (k : Fin 9) (f : Fin 4) (w : BitVec 24) (last : Bool)
    (g : Clock → Core → Nat → Nat → Word → Core) : KeepsTime s (s.opAt op k f w last g) := by
  unfold State.opAt; exact State.run_keeps s _

theorem State.tick_pending (s : State) : s.tick.pending = s.pending := by
  unfold State.tick; split <;> simp

end Sys2Proof.Machine
end

