-- ==== Sys2Proof/Laws/Bus.lean ====
section
/-! SUPPORT. The bus: a read of a register without side effects of its own. -/
namespace Sys2Proof.Machine

/-- A read of a register that has no rule of its own, and that does not show the state of a pair whose outputs are withheld (R316): RC
fields are cleared, reserved and write-only bits read zero (R7, R9). -/
theorem Core.regRead_plain {c : Core} {t : Clock} {a : Nat} {r : RegRow} (h1 : inRange backupRam 0x100 a = false)
    (h2 : distaffOnly a = false) (h3 : regRow a = some r) (h4 : c.specialRead t r a = none)
    (h5 : ((pairReg a).isSome && c.suppressed) = false) :
    c.regRead t a = (c.setReg a (rowAfterRead r (c.reg a)), rowShown r (c.reg a)) := by
  simp only [Core.regRead, h1, h2, h3, h4, h5, Bool.false_eq_true, if_false]

/-- A read of a register with a rule of its own. -/
theorem Core.regRead_special {c : Core} {t : Clock} {a : Nat} {r : RegRow} {x : Core × Word} (h1 : inRange backupRam 0x100 a = false)
    (h2 : distaffOnly a = false) (h3 : regRow a = some r) (h4 : c.specialRead t r a = some x)
    (h5 : ((pairReg a).isSome && c.suppressed) = false) : c.regRead t a = x := by
  simp only [Core.regRead, h1, h2, h3, h4, h5, Bool.false_eq_true, if_false]

/-- A write of a register with a rule of its own. -/
theorem Core.regWrite_special {c : Core} {t : Clock} {a : Nat} {w : Word} {r : RegRow} {x : Core}
    (h1 : inRange backupRam 0x100 a = false) (h2 : distaffOnly a = false) (h3 : regRow a = some r)
    (h4 : c.specialWrite t r a w = some x) : c.regWrite t a w = x := by
  simp only [Core.regWrite, h1, h2, h3, h4, Bool.false_eq_true, if_false]

/-- A write of a register without a rule of its own and without a staging group. -/
theorem Core.regWrite_plain {c : Core} {t : Clock} {a : Nat} {w : Word} {r : RegRow} (h1 : inRange backupRam 0x100 a = false)
    (h2 : distaffOnly a = false) (h3 : regRow a = some r) (h4 : c.specialWrite t r a w = none) (h5 : r.group = none) :
    c.regWrite t a w = c.setReg a (rowAfterWrite r (c.reg a) w) := by
  simp only [Core.regWrite, h1, h2, h3, h4, h5, Bool.false_eq_true, if_false]

/-- A write of a staged register goes to its group's staging. -/
theorem Core.regWrite_staged {c : Core} {t : Clock} {a : Nat} {w : Word} {r : RegRow} {g : Nat}
    (h1 : inRange backupRam 0x100 a = false) (h2 : distaffOnly a = false) (h3 : regRow a = some r)
    (h4 : c.specialWrite t r a w = none) (h5 : r.group = some g) :
    c.regWrite t a w = c.stageReg g a w := by
  simp only [Core.regWrite, h1, h2, h3, h4, h5, Bool.false_eq_true, if_false]

end Sys2Proof.Machine
end

