-- ==== Sys2Proof/Laws/Exec.lean ====
section
/-! SUPPORT. What each command is, one line per constructor: how it reaches the device and which operation it runs. -/
namespace Sys2Proof.Machine

theorem exec_epochBoundary (inp : HalfInput) (s : State) : exec (.epochBoundary inp) s = (s.boundary inp) := rfl

theorem exec_checkPoint (inp : HalfInput) (s : State) : exec (.checkPoint inp) s = (s.check inp) := rfl

theorem exec_slotStart (slot : Nat) (bad : Option Nat) (s : State) : exec (.slotStart slot bad) s = (s.slot slot bad) := rfl

theorem exec_slotOverrun (slot : Nat) (s : State) : exec (.slotOverrun slot) s = (s.overrun slot) := rfl

theorem exec_planCommit (mask : BitVec 15) (s : State) : exec (.planCommit mask) s = (s.run fun t c => c.planCommit t mask.toNat)
    := rfl

theorem exec_stagedWrite (addr : Word) (value : Word) (s : State) : exec (.stagedWrite addr value) s = (s.run fun t c =>
    c.busWrite t addr.toNat value) := rfl

theorem exec_jqCancel (tag : BitVec 8) (s : State) : exec (.jqCancel tag) s = (s.run fun t c => c.cancelJob t tag.toNat) := rfl

theorem exec_prismStepStart (fc : Fin 655360) (s : State) : exec (.prismStepStart fc) s = (s.at fc.val fun t c => c.prismStart t)
    := rfl

theorem exec_prismStepComplete (ecc : StepErrors) (s : State) : exec (.prismStepComplete ecc) s = (s.due (s.core.prm.busy.map fun
    b => min b.ends s.clk.halfLast) fun t c => c.prismEnd t ecc.corrected ecc.lost) := rfl

theorem exec_transferComplete (tag : BitVec 8) (s : State) : exec (.transferComplete tag) s = (s.run fun t c => c.transferComplete
    t tag.toNat) := rfl

theorem exec_cursorResume (tag : BitVec 8) (s : State) : exec (.cursorResume tag) s = (s.run fun t c => c.cursorResume t
    tag.toNat) := rfl

theorem exec_cursorOvertaken (tag : BitVec 8) (s : State) : exec (.cursorOvertaken tag) s = (s.run fun t c => c.cursorOvertaken t
    tag.toNat) := rfl

theorem exec_imageVerifyComplete (ecc : Bool) (s : State) : exec (.imageVerifyComplete ecc) s = (s.run fun _ c => c.verifyComplete
    ecc) := rfl

theorem exec_train (mask : BitVec 8) (s : State) : exec (.train mask) s = (s.run fun _ c => c.train mask.toNat) := rfl

theorem exec_trainingComplete (n : Fin 8) (sweep : List PairSweep) (s : State) : exec (.trainingComplete n sweep) s = (s.run fun _
    c => c.trainingComplete n.val sweep) := rfl

theorem exec_nostbTimeout (n : Fin 8) (s : State) : exec (.nostbTimeout n) s = (s.run fun _ c => c.noStrobe n.val) := rfl

theorem exec_strobeLoss (n : Fin 8) (s : State) : exec (.strobeLoss n) s = (s.run fun _ c => c.strobeLoss n.val) := rfl

theorem exec_strobeReturn (n : Fin 8) (s : State) : exec (.strobeReturn n) s = (s.run fun _ c => c.strobeReturn n.val) := rfl

theorem exec_fifoSlip (n : Fin 8) (s : State) : exec (.fifoSlip n) s = (s.run fun _ c => c.fifoSlip n.val) := rfl

theorem exec_eyewarn (n : Fin 8) (s : State) : exec (.eyewarn n) s = (s.run fun _ c => c.eyeWarn n.val) := rfl

theorem exec_hankRamWrite (o : Fin 32768) (w : Word) (s : State) : exec (.hankRamWrite o w) s = (s.run fun _ c => c.hankRamWrite
    (4 * o.val) (leBytes 4 w.toNat)) := rfl

theorem exec_plyArm (p : Fin 1024) (s : State) : exec (.plyArm p) s = (s.run fun _ c => c.plyCommand p.val 1) := rfl

theorem exec_plyStop (p : Fin 1024) (s : State) : exec (.plyStop p) s = (s.run fun _ c => c.plyCommand p.val 2) := rfl

theorem exec_hcok (p : Fin 1024) (s : State) : exec (.hcok p) s = (s.run fun _ c => c.plyCommand p.val 3) := rfl

theorem exec_hcinv (p : Fin 1024) (s : State) : exec (.hcinv p) s = (s.run fun _ c => c.plyCommand p.val 4) := rfl

theorem exec_bsok (p : Fin 1024) (s : State) : exec (.bsok p) s = (s.run fun _ c => c.plyCommand p.val 5) := rfl

theorem exec_satelliteEntryPublish (p : Fin 1024) (ws : List Word) (s : State) : exec (.satelliteEntryPublish p ws) s = (s.run fun
    _ c => c.publishSat p.val ws) := rfl

theorem exec_aidingPush (w : Word) (s : State) : exec (.aidingPush w) s = (s.run fun _ c => c.aidIn 7 w) := rfl

theorem exec_verificationEntryWrite (p : Fin 1024) (k : Fin 4) (w : Word) (s : State) : exec (.verificationEntryWrite p k w) s =
    (s.run fun _ c => c.writeVerify p.val k.val w) := rfl

theorem exec_handoff (h : HandoffReq) (s : State) : exec (.handoff h) s = (s.run fun t c => c.handoff t h) := rfl

theorem exec_nop (k : Fin 9) (f : Fin 4) (w : BitVec 24) (last : Bool) (s : State) : exec (.nop k f w last) s = (s.op 0x00 k f w
    last (fun c _ _ _ => c)) := rfl

theorem exec_add (k : Fin 9) (f : Fin 4) (w : BitVec 24) (last : Bool) (s : State) : exec (.add k f w last) s = (s.op 0x01 k f w
    last Core.opAdd) := rfl

theorem exec_adds (k : Fin 9) (f : Fin 4) (w : BitVec 24) (last : Bool) (s : State) : exec (.adds k f w last) s = (s.op 0x02 k f w
    last Core.opAdds) := rfl

theorem exec_sub (k : Fin 9) (f : Fin 4) (w : BitVec 24) (last : Bool) (s : State) : exec (.sub k f w last) s = (s.op 0x03 k f w
    last Core.opSub) := rfl

theorem exec_addi (k : Fin 9) (f : Fin 4) (w : BitVec 24) (last : Bool) (s : State) : exec (.addi k f w last) s = (s.op 0x04 k f w
    last Core.opAddi) := rfl

theorem exec_andOp (k : Fin 9) (f : Fin 4) (w : BitVec 24) (last : Bool) (s : State) : exec (.andOp k f w last) s = (s.op 0x05 k f
    w last Core.opAnd) := rfl

theorem exec_orOp (k : Fin 9) (f : Fin 4) (w : BitVec 24) (last : Bool) (s : State) : exec (.orOp k f w last) s = (s.op 0x06 k f w
    last Core.opOr) := rfl

theorem exec_xorOp (k : Fin 9) (f : Fin 4) (w : BitVec 24) (last : Bool) (s : State) : exec (.xorOp k f w last) s = (s.op 0x07 k f
    w last Core.opXor) := rfl

theorem exec_shl (k : Fin 9) (f : Fin 4) (w : BitVec 24) (last : Bool) (s : State) : exec (.shl k f w last) s = (s.op 0x08 k f w
    last Core.opShl) := rfl

theorem exec_shra (k : Fin 9) (f : Fin 4) (w : BitVec 24) (last : Bool) (s : State) : exec (.shra k f w last) s = (s.op 0x09 k f w
    last Core.opShra) := rfl

theorem exec_shrl (k : Fin 9) (f : Fin 4) (w : BitVec 24) (last : Bool) (s : State) : exec (.shrl k f w last) s = (s.op 0x0A k f w
    last Core.opShrl) := rfl

theorem exec_movi (k : Fin 9) (f : Fin 4) (w : BitVec 24) (last : Bool) (s : State) : exec (.movi k f w last) s = (s.op 0x0B k f w
    last Core.opMovi) := rfl

theorem exec_movhi (k : Fin 9) (f : Fin 4) (w : BitVec 24) (last : Bool) (s : State) : exec (.movhi k f w last) s = (s.op 0x0C k f
    w last Core.opMovhi) := rfl

theorem exec_minOp (k : Fin 9) (f : Fin 4) (w : BitVec 24) (last : Bool) (s : State) : exec (.minOp k f w last) s = (s.op 0x0D k f
    w last Core.opMin) := rfl

theorem exec_maxOp (k : Fin 9) (f : Fin 4) (w : BitVec 24) (last : Bool) (s : State) : exec (.maxOp k f w last) s = (s.op 0x0E k f
    w last Core.opMax) := rfl

theorem exec_absOp (k : Fin 9) (f : Fin 4) (w : BitVec 24) (last : Bool) (s : State) : exec (.absOp k f w last) s = (s.op 0x0F k f
    w last Core.opAbs) := rfl

theorem exec_cmp (k : Fin 9) (f : Fin 4) (w : BitVec 24) (last : Bool) (s : State) : exec (.cmp k f w last) s = (s.op 0x10 k f w
    last Core.opCmp) := rfl

theorem exec_sel (k : Fin 9) (f : Fin 4) (w : BitVec 24) (last : Bool) (s : State) : exec (.sel k f w last) s = (s.op 0x11 k f w
    last Core.opSel) := rfl

theorem exec_mov (k : Fin 9) (f : Fin 4) (w : BitVec 24) (last : Bool) (s : State) : exec (.mov k f w last) s = (s.op 0x12 k f w
    last Core.opMov) := rfl

theorem exec_mul (k : Fin 9) (f : Fin 4) (w : BitVec 24) (last : Bool) (s : State) : exec (.mul k f w last) s = (s.op 0x18 k f w
    last Core.opMul) := rfl

theorem exec_mulh (k : Fin 9) (f : Fin 4) (w : BitVec 24) (last : Bool) (s : State) : exec (.mulh k f w last) s = (s.op 0x19 k f w
    last Core.opMulh) := rfl

theorem exec_mac (k : Fin 9) (f : Fin 4) (w : BitVec 24) (last : Bool) (s : State) : exec (.mac k f w last) s = (s.op 0x1A k f w
    last Core.opMac) := rfl

theorem exec_msu (k : Fin 9) (f : Fin 4) (w : BitVec 24) (last : Bool) (s : State) : exec (.msu k f w last) s = (s.op 0x1B k f w
    last Core.opMsu) := rfl

theorem exec_clra (k : Fin 9) (f : Fin 4) (w : BitVec 24) (last : Bool) (s : State) : exec (.clra k f w last) s = (s.op 0x1C k f w
    last Core.opClra) := rfl

theorem exec_sta (k : Fin 9) (f : Fin 4) (w : BitVec 24) (last : Bool) (s : State) : exec (.sta k f w last) s = (s.op 0x1D k f w
    last Core.opSta) := rfl

theorem exec_stah (k : Fin 9) (f : Fin 4) (w : BitVec 24) (last : Bool) (s : State) : exec (.stah k f w last) s = (s.op 0x1E k f w
    last Core.opStah) := rfl

theorem exec_rda (k : Fin 9) (f : Fin 4) (w : BitVec 24) (last : Bool) (s : State) : exec (.rda k f w last) s = (s.op 0x1F k f w
    last Core.opRda) := rfl

theorem exec_wra (k : Fin 9) (f : Fin 4) (w : BitVec 24) (last : Bool) (s : State) : exec (.wra k f w last) s = (s.op 0x20 k f w
    last Core.opWra) := rfl

theorem exec_clrf (k : Fin 9) (f : Fin 4) (w : BitVec 24) (last : Bool) (s : State) : exec (.clrf k f w last) s = (s.op 0x21 k f w
    last Core.opClrf) := rfl

theorem exec_fadd (k : Fin 9) (f : Fin 4) (w : BitVec 24) (last : Bool) (s : State) : exec (.fadd k f w last) s = (s.op 0x28 k f w
    last Core.opFadd) := rfl

theorem exec_fsub (k : Fin 9) (f : Fin 4) (w : BitVec 24) (last : Bool) (s : State) : exec (.fsub k f w last) s = (s.op 0x29 k f w
    last Core.opFsub) := rfl

theorem exec_fmul (k : Fin 9) (f : Fin 4) (w : BitVec 24) (last : Bool) (s : State) : exec (.fmul k f w last) s = (s.op 0x2A k f w
    last Core.opFmul) := rfl

theorem exec_fma (k : Fin 9) (f : Fin 4) (w : BitVec 24) (last : Bool) (s : State) : exec (.fma k f w last) s = (s.op 0x2B k f w
    last Core.opFma) := rfl

theorem exec_fcvt (k : Fin 9) (f : Fin 4) (w : BitVec 24) (last : Bool) (s : State) : exec (.fcvt k f w last) s = (s.op 0x2C k f w
    last Core.opFcvt) := rfl

theorem exec_ftoi (k : Fin 9) (f : Fin 4) (w : BitVec 24) (last : Bool) (s : State) : exec (.ftoi k f w last) s = (s.op 0x2D k f w
    last Core.opFtoi) := rfl

theorem exec_ldw (k : Fin 9) (f : Fin 4) (w : BitVec 24) (last : Bool) (s : State) : exec (.ldw k f w last) s = (s.op 0x30 k f w
    last Core.opLdw) := rfl

theorem exec_ldwp (k : Fin 9) (f : Fin 4) (w : BitVec 24) (last : Bool) (s : State) : exec (.ldwp k f w last) s = (s.op 0x31 k f w
    last Core.opLdwp) := rfl

theorem exec_stw (k : Fin 9) (f : Fin 4) (w : BitVec 24) (last : Bool) (s : State) : exec (.stw k f w last) s = (s.op 0x32 k f w
    last Core.opStw) := rfl

theorem exec_stwp (k : Fin 9) (f : Fin 4) (w : BitVec 24) (last : Bool) (s : State) : exec (.stwp k f w last) s = (s.op 0x33 k f w
    last Core.opStwp) := rfl

theorem exec_ldd (k : Fin 9) (f : Fin 4) (w : BitVec 24) (last : Bool) (s : State) : exec (.ldd k f w last) s = (s.op 0x34 k f w
    last Core.opLdd) := rfl

theorem exec_std (k : Fin 9) (f : Fin 4) (w : BitVec 24) (last : Bool) (s : State) : exec (.std k f w last) s = (s.op 0x35 k f w
    last Core.opStd) := rfl

theorem exec_padd (k : Fin 9) (f : Fin 4) (w : BitVec 24) (last : Bool) (s : State) : exec (.padd k f w last) s = (s.op 0x36 k f w
    last Core.opPadd) := rfl

theorem exec_gld (k : Fin 9) (f : Fin 4) (w : BitVec 24) (last : Bool) (s : State) : exec (.gld k f w last) s = (s.op 0x38 k f w
    last Core.opGld) := rfl

theorem exec_gst (k : Fin 9) (f : Fin 4) (w : BitVec 24) (last : Bool) (s : State) : exec (.gst k f w last) s = (s.op 0x39 k f w
    last Core.opGst) := rfl

theorem exec_br (k : Fin 9) (f : Fin 4) (w : BitVec 24) (last : Bool) (s : State) : exec (.br k f w last) s = (s.op 0x40 k f w
    last (fun c k _ w => c.opBr k w)) := rfl

theorem exec_loopi (k : Fin 9) (f : Fin 4) (w : BitVec 24) (last : Bool) (s : State) : exec (.loopi k f w last) s = (s.op 0x41 k f
    w last Core.opLoopi) := rfl

theorem exec_loopr (k : Fin 9) (f : Fin 4) (w : BitVec 24) (last : Bool) (s : State) : exec (.loopr k f w last) s = (s.op 0x42 k f
    w last Core.opLoopr) := rfl

theorem exec_wait (k : Fin 9) (f : Fin 4) (w : BitVec 24) (last : Bool) (s : State) : exec (.wait k f w last) s = (s.op 0x43 k f w
    last (fun c k _ w => c.opWait k w)) := rfl

theorem exec_endOp (k : Fin 9) (f : Fin 4) (w : BitVec 24) (last : Bool) (s : State) : exec (.endOp k f w last) s = (s.op 0x44 k f
    w last (fun c k _ _ => c.opEnd k)) := rfl

theorem exec_ei (k : Fin 9) (f : Fin 4) (w : BitVec 24) (last : Bool) (s : State) : exec (.ei k f w last) s = (s.op 0x45 k f w
    last (fun c k f _ => c.opEi k f)) := rfl

theorem exec_di (k : Fin 9) (f : Fin 4) (w : BitVec 24) (last : Bool) (s : State) : exec (.di k f w last) s = (s.op 0x46 k f w
    last (fun c k f _ => c.opDi k f)) := rfl

theorem exec_reti (k : Fin 9) (f : Fin 4) (w : BitVec 24) (last : Bool) (s : State) : exec (.reti k f w last) s = (s.op 0x47 k f w
    last (fun c k _ _ => c.opReti k)) := rfl

theorem exec_atn2 (k : Fin 9) (f : Fin 4) (w : BitVec 24) (last : Bool) (s : State) : exec (.atn2 k f w last) s = (s.op 0x48 k f w
    last Core.opAtn2) := rfl

theorem exec_div (k : Fin 9) (f : Fin 4) (w : BitVec 24) (last : Bool) (s : State) : exec (.div k f w last) s = (s.op 0x49 k f w
    last Core.opDiv) := rfl

theorem exec_rsq (k : Fin 9) (f : Fin 4) (w : BitVec 24) (last : Bool) (s : State) : exec (.rsq k f w last) s = (s.op 0x4A k f w
    last Core.opRsq) := rfl

theorem exec_log2 (k : Fin 9) (f : Fin 4) (w : BitVec 24) (last : Bool) (s : State) : exec (.log2 k f w last) s = (s.op 0x4B k f w
    last Core.opLog2) := rfl

theorem exec_prd (k : Fin 9) (f : Fin 4) (w : BitVec 24) (last : Bool) (s : State) : exec (.prd k f w last) s = (s.op 0x50 k f w
    last Core.opPrd) := rfl

theorem exec_pwb (k : Fin 9) (f : Fin 4) (w : BitVec 24) (last : Bool) (s : State) : exec (.pwb k f w last) s = (s.op 0x51 k f w
    last (fun c k _ w => c.opPwb k w)) := rfl

theorem exec_qpush (k : Fin 9) (f : Fin 4) (w : BitVec 24) (last : Bool) (s : State) : exec (.qpush k f w last) s = (s.opAt 0x52 k
    f w last (fun t c k _ w => (c.opQpush k w).settleCaught t)) := rfl

theorem exec_interruptEntry (k : Fin 9) (s : State) : exec (.interruptEntry k) s = (s.run fun _ c => if c.sliceOn k.val then
    c.interruptEntry k.val else c) := rfl

theorem exec_lpeDbellWrite (k : Fin 9) (code : BitVec 8) (s : State) : exec (.lpeDbellWrite k code) s = (s.run fun _ c => c.dbell
    k.val code.toNat) := rfl

theorem exec_rangeAnchorWrite (p : Fin 1024) (sys : BitVec 3) (ea : Word) (txa : BitVec 64) (s : State) : exec (.rangeAnchorWrite
    p sys ea txa) s = (s.run fun _ c => c.writeAnchorOf p.val sys.toNat ea txa.toNat) := rfl

theorem exec_headingSearch (b : Fin 3) (s : State) : exec (.headingSearch b) s = (s.run fun t c => c.headingSearch t b.val) := rfl

theorem exec_tpActiveEdge (n : Fin 4) (s : State) : exec (.tpActiveEdge n) s = (s.due (if s.core.tpRuns n.val then s.clk.place
    (s.core.edgeAt n.val) else none) fun _ c => c.tpEdge n.val) := rfl

theorem exec_tpInactiveEdge (n : Fin 4) (s : State) : exec (.tpInactiveEdge n) s = (s.due ((s.core.tp n.val).offAt.bind
    s.clk.place) fun _ c => c.tpEnd n.val) := rfl

theorem exec_stepApply (n : Fin 4) (s : State) : exec (.stepApply n) s =
    (s.due (if s.core.tpRuns n.val && (s.core.tp n.val).stepNext then s.clk.place (s.core.edgeAt n.val) else none) fun _ c =>
       c.tpEdge n.val) := rfl

theorem exec_eventTag (n : Fin 8) (falling : Bool) (s : State) : exec (.eventTag n falling) s = (s.run fun t c => c.eventTag t.abs
    n.val falling) := rfl

theorem exec_reelStart (mask : BitVec 8) (atEpoch : Bool) (sync : Bool) (s : State) : exec (.reelStart mask atEpoch sync) s =
    (s.run fun t c => c.reelStart t mask.toNat atEpoch sync) := rfl

theorem exec_reelStop (mask : BitVec 8) (s : State) : exec (.reelStop mask) s = (s.run fun t c => c.reelStop t mask.toNat) := rfl

theorem exec_reelLoWrite (g : ReelReg) (n : Fin 8) (w : Word) (s : State) : exec (.reelLoWrite g n w) s = (s.run fun t c =>
    c.reelLoWrite t g n.val w) := rfl

theorem exec_compareMatch (n : Fin 8) (s : State) : exec (.compareMatch n) s =
    (s.due ((s.core.nextMatch n.val s.core.reel.seen).bind fun m =>
       if tsPerEpoch * s.clk.epoch ≤ m then some (8 * (m - tsPerEpoch * s.clk.epoch)) else none) fun _ c => c) := rfl

theorem exec_pinset (n : Fin 8) (v : BitVec 2) (s : State) : exec (.pinset n v) s = (s.run fun t c => c.pinset t n.val v.toNat) :=
    rfl

theorem exec_capsw (n : Fin 8) (s : State) : exec (.capsw n) s = (s.run fun t c => c.capture n.val t.abs) := rfl

theorem exec_captureEdge (ch : Fin 8) (falling : Bool) (s : State) : exec (.captureEdge ch falling) s = (s.run fun t c =>
    c.captureEdge ch.val t.abs falling) := rfl

theorem exec_reelCntLoRead (n : Fin 8) (s : State) : exec (.reelCntLoRead n) s = (s.read (R.REEL_CNT_LO n.val)) := rfl

theorem exec_reelCmpLoRead (n : Fin 8) (s : State) : exec (.reelCmpLoRead n) s = (s.read (R.REEL_CMP_LO n.val)) := rfl

theorem exec_reelCapLoRead (n : Fin 8) (s : State) : exec (.reelCapLoRead n) s = (s.read (R.REEL_CAP_LO n.val)) := rfl

theorem exec_mirInj (w : Word) (s : State) : exec (.mirInj w) s = (s.run fun t c => c.mirInject t w c.serviceMode) := rfl

theorem exec_scrub (row : Fin 16) (pair : Fin 12) (unc : Bool) (alt : Bool) (index : Nat) (s : State) : exec (.scrub row pair unc
    alt index) s = (s.run fun t c => c.scrubStep t row.val pair.val unc alt index) := rfl

theorem exec_vioLow (bankB : Bool) (s : State) : exec (.vioLow bankB) s = (s.always fun _ c => (c.supply (if bankB then 5 else 4)
    false).dropBank (if bankB then 5 else 4)) := rfl

theorem exec_wake (mask : BitVec 6) (env : BootEnv) (wait : Nat) (retfail : Bool) (s : State) : exec (.wake mask env wait retfail)
    s = (.next (s.began (s.core.wake mask.toNat env wait retfail))) := rfl

theorem exec_biasChange (temp : Int) (s : State) : exec (.biasChange temp) s = (s.run fun _ c => c.biasChange temp) := rfl

theorem exec_whorlTick (hitA : BitVec 48) (hitB : BitVec 48) (s : State) : exec (.whorlTick hitA hitB) s = (s.always fun t c =>
    c.whorlTick t hitA hitB) := rfl

theorem exec_compensationUpdate (temp : Int) (vbat : Nat) (s : State) : exec (.compensationUpdate temp vbat) s = (s.always fun _ c
    => c.compUpdate temp vbat) := rfl

theorem exec_dayBoundary (hitA : BitVec 48) (hitB : BitVec 48) (s : State) : exec (.dayBoundary hitA hitB) s = (s.always fun t c
    => if c.whl.nextIsDay hitA hitB then c.whorlTick t hitA hitB else c) := rfl

theorem exec_whlTrustClear (w : Word) (s : State) : exec (.whlTrustClear w) s = (s.run fun _ c => c.trustClear w) := rfl

theorem exec_whlWdaySet (day : BitVec 3) (s : State) : exec (.whlWdaySet day) s = (s.run fun _ c => c.wdaySet (BitVec.ofNat 32
    (2048 + day.toNat * 256))) := rfl

theorem exec_whlChgWrite (w : Word) (s : State) : exec (.whlChgWrite w) s = (s.run fun _ c => c.chgWrite w) := rfl

theorem exec_backupRamAccess (n : Fin 64) (put : Option Word) (bad : Bool) (s : State) : exec (.backupRamAccess n put bad) s =
    (s.run fun _ c => match put with | some w => c.ramWrite n.val w | none => let q := c.ramRead n.val bad; { q.1 with readData := [q.2] }) := rfl

theorem exec_distaffFrameStart (load : Nat) (util : Nat) (s : State) : exec (.distaffFrameStart load util) s = (s.run fun t c =>
    ((c.frameStart load util).followUps t).steerRx t) := rfl

theorem exec_patchAreaWrite (o : Fin 15872) (w : Word) (s : State) : exec (.patchAreaWrite o w) s = (s.run fun _ c => c.sramWrite
    (patchArea + 4 * o.val) w) := rfl

theorem exec_spoolRecordWrite (good : Bool) (week : Option (Fin 4 × Nat)) (stats : Option (List Byte)) (s : State) : exec
    (.spoolRecordWrite good week stats) s = (s.run fun _ c => c.spoolStep good week stats) := rfl

theorem exec_cacheWrite (body : List Byte) (s : State) : exec (.cacheWrite body) s = (s.run fun t c => c.cacheWrite t.abs body) :=
    rfl

theorem exec_uartCharacterReceived (n : Fin 2) (x : LineSample) (s : State) : exec (.uartCharacterReceived n x) s =
    (s.run fun t c =>
       if n.val = 1 ∧ c.rxLooks 1 = true ∧ x.start = false then (c.uartReceive 1 x).activity t else c.uartReceive n.val x) := rfl

theorem exec_uartTransmitCharacter (n : Fin 2) (s : State) : exec (.uartTransmitCharacter n) s = (s.run fun _ c => c.uartSend
    n.val) := rfl

theorem exec_uartDataWrite (n : Fin 2) (b : Byte) (s : State) : exec (.uartDataWrite n b) s = (s.run fun _ c => c.uartPut n.val b)
    := rfl

theorem exec_uartDataRead (n : Fin 2) (s : State) : exec (.uartDataRead n) s = (s.run fun t c => c.takeChar t n.val) := rfl

theorem exec_uartRateWrite (n : Fin 2) (w : Word) (s : State) : exec (.uartRateWrite n w) s = (s.run fun _ c => c.uartRate n.val
    w) := rfl

theorem exec_uartCfgWrite (n : Fin 2) (w : Word) (s : State) : exec (.uartCfgWrite n w) s = (s.run fun _ c => c.uartCfg n.val w)
    := rfl

theorem exec_txflush (n : Fin 2) (s : State) : exec (.txflush n) s = (s.run fun _ c => c.txFlush n.val) := rfl

theorem exec_rxflush (n : Fin 2) (s : State) : exec (.rxflush n) s = (s.run fun _ c => c.rxFlush n.val) := rfl

theorem exec_rxTimeout (n : Fin 2) (s : State) : exec (.rxTimeout n) s = (s.run fun _ c => c.rxTimeout n.val) := rfl

theorem exec_uartGlitchRead (n : Fin 2) (s : State) : exec (.uartGlitchRead n) s = (s.read (R.UART_GLITCH n.val)) := rfl

theorem exec_wakeCharacter (n : Fin 2) (x : LineSample) (s : State) : exec (.wakeCharacter n x) s = (.next (if s.core.pwrState =
    pwHib then s.put (s.core.wakeReceive n.val x) else s)) := rfl

theorem exec_rdsr (lanes : Fin 4) (s : State) : exec (.rdsr lanes) s = (s.qspRead lanes.val 8 (·.rdsr)) := rfl

theorem exec_rdstm (lanes : Fin 4) (n : Nat) (s : State) : exec (.rdstm lanes n) s = (s.qspRead lanes.val (2 + n) (·.rdstm n)) :=
    rfl

theorem exec_wrstm (lanes : Fin 4) (bs : List Byte) (s : State) : exec (.wrstm lanes bs) s = (s.run fun _ c => c.qspCmd lanes.val
    (·.wrstm bs)) := rfl

theorem exec_rdwin (lanes : Fin 4) (ofs : BitVec 16) (n : Nat) (s : State) : exec (.rdwin lanes ofs n) s = (s.qspRead lanes.val n
    (·.rdwin ofs.toNat n)) := rfl

theorem exec_wrwin (lanes : Fin 4) (ofs : BitVec 16) (bs : List Byte) (s : State) : exec (.wrwin lanes ofs bs) s = (s.run fun _ c
    => c.qspCmd lanes.val (·.wrwin ofs.toNat bs)) := rfl

theorem exec_wsetupRead (lanes : Fin 4) (addr : Word) (len : BitVec 16) (rsv : Bool) (badAt : Nat) (s : State) : exec (.wsetupRead
    lanes addr len rsv badAt) s = (s.run fun t c => c.qspCmd lanes.val fun c => c.windowRead t addr.toNat len.toNat rsv badAt) :=
    rfl

theorem exec_wsetupWrite (lanes : Fin 4) (addr : Word) (len : BitVec 16) (rsv : Bool) (s : State) : exec (.wsetupWrite lanes addr
    len rsv) s = (s.run fun t c => c.qspCmd lanes.val fun c => c.windowWriteOp t addr.toNat len.toNat rsv) := rfl

theorem exec_wsetupImage (lanes : Fin 4) (addr : Word) (len : BitVec 16) (rsv : Bool) (s : State) : exec (.wsetupImage lanes addr
    len rsv) s = (s.start fun _ c => c.windowImage lanes.val addr.toNat len.toNat rsv) := rfl

theorem exec_rdid (lanes : Fin 4) (s : State) : exec (.rdid lanes) s = (s.qspRead lanes.val 4 (·.rdid)) := rfl

theorem exec_eqpi (lanes : Fin 4) (s : State) : exec (.eqpi lanes) s = (s.run fun _ c => c.qspCmd lanes.val (·.qpiMode 1)) := rfl

theorem exec_xqpi (lanes : Fin 4) (s : State) : exec (.xqpi lanes) s = (s.run fun _ c => c.qspCmd lanes.val (·.qpiMode 0)) := rfl

theorem exec_ifrst (lanes : Fin 4) (s : State) : exec (.ifrst lanes) s = (s.run fun _ c => c.qspCmd lanes.val (·.ifrst)) := rfl

theorem exec_badFrame (l : Fin 2) (s : State) : exec (.badFrame l) s = (s.run fun _ c => if c.distaffServes then c.dropFrame l.val
    else c) := rfl

theorem exec_hello (h : TwineHead) (p : List Byte) (s : State) : exec (.hello h p) s = (s.run fun t c => c.helloReq t h p) := rfl

theorem exec_bye (h : TwineHead) (p : List Byte) (s : State) : exec (.bye h p) s = (s.run fun t c => c.byeReq t h p) := rfl

theorem exec_ping (h : TwineHead) (p : List Byte) (s : State) : exec (.ping h p) s = (s.run fun t c => c.request t h 0 6 p fun c _
    => (c, .ack 0 0)) := rfl

theorem exec_regRd (h : TwineHead) (p : List Byte) (badAt : Nat) (s : State) : exec (.regRd h p badAt) s = (s.run fun t c =>
    c.request t h 1 1 p fun c q => c.regRd t q badAt) := rfl

theorem exec_regWr (h : TwineHead) (p : List Byte) (s : State) : exec (.regWr h p) s = (s.run fun t c => c.request t h 1 3 p fun c
    q => c.regWr t q) := rfl

theorem exec_aidImu (h : TwineHead) (p : List Byte) (s : State) : exec (.aidImu h p) s = (s.run fun t c => c.request t h 5 1 p fun
    c q => c.aidImu q) := rfl

theorem exec_acqSubmit (h : TwineHead) (p : List Byte) (s : State) : exec (.acqSubmit h p) s = (s.run fun t c => c.request t h 6 1
    p fun c q => c.acqSubmit t q) := rfl

theorem exec_acqCancel (h : TwineHead) (p : List Byte) (s : State) : exec (.acqCancel h p) s = (s.run fun t c => c.request t h 6 2
    p fun c q => c.acqCancel t q) := rfl

theorem exec_cfgSet (h : TwineHead) (p : List Byte) (s : State) : exec (.cfgSet h p) s = (s.run fun t c => c.request t h 7 1 p fun
    c q => c.cfgSet t q) := rfl

theorem exec_cfgGet (h : TwineHead) (p : List Byte) (s : State) : exec (.cfgGet h p) s = (s.run fun t c => c.request t h 7 2 p fun
    c q => c.cfgGet q) := rfl

theorem exec_store (h : TwineHead) (p : List Byte) (s : State) : exec (.store h p) s = (s.run fun t c => c.request t h 7 4 p fun c
    _ => batchAnswer (c.store (some (h.ackFor 7 4 p)))) := rfl

theorem exec_factory (h : TwineHead) (p : List Byte) (s : State) : exec (.factory h p) s = (s.run fun t c => c.request t h 7 5 p
    fun c _ => batchAnswer (c.factory (some (h.ackFor 7 5 p)))) := rfl

theorem exec_calSet (h : TwineHead) (crc : Word) (d : CalDate) (scale : Nat) (unc : Nat) (s : State) : exec (.calSet h crc d scale
    unc) s = (s.run fun t c => c.requestWith t h crc 7 6 fun c => c.calSetReq d scale unc) := rfl

theorem exec_calGet (h : TwineHead) (crc : Word) (tick : BitVec 48) (scale : Nat) (s : State) : exec (.calGet h crc tick scale) s
    = (s.run fun t c => c.requestWith t h crc 7 7 fun c => c.calGetReq tick.toNat scale) := rfl

theorem exec_imgWr (h : TwineHead) (p : List Byte) (s : State) : exec (.imgWr h p) s = (s.run fun t c => c.request t h 8 1 p fun c
    q => c.imgWr q) := rfl

theorem exec_spoolWr (h : TwineHead) (p : List Byte) (s : State) : exec (.spoolWr h p) s = (s.run fun t c => c.request t h 8 2 p
    fun c q => c.spoolWr q (h.ackFor 8 2 p)) := rfl

theorem exec_spoolRd (h : TwineHead) (p : List Byte) (s : State) : exec (.spoolRd h p) s = (s.run fun t c => c.request t h 8 3 p
    fun c q => c.spoolRd q) := rfl

theorem exec_provWr (h : TwineHead) (crc : Word) (kind : Fin 3) (data : List Byte) (s : State) : exec (.provWr h crc kind data) s
    = (s.run fun t c => c.requestWith t h crc 8 5 fun c => (c.provWrite kind.val data, .ack 0 0)) := rfl

theorem exec_fuseArm (h : TwineHead) (crc : Word) (op : FuseOp) (s : State) : exec (.fuseArm h crc op) s = (s.run fun t c =>
    c.requestWith t h crc 8 6 fun c => c.fuseArm t h.link.val op) := rfl

theorem exec_fuseProg (h : TwineHead) (crc : Word) (nonce : BitVec 16) (op : FuseOp) (s : State) : exec (.fuseProg h crc nonce op)
    s = (s.run fun t c => c.requestWith t h crc 8 7 fun c => c.fuseProg t h.link.val nonce.toNat op) := rfl

theorem exec_readout (h : TwineHead) (p : List Byte) (s : State) : exec (.readout h p) s =
    (s.run fun t c => c.request t h 9 1 p fun c q => let x := c.readout t h.link.val q; (x.1.submitted c t, x.2)) := rfl

theorem exec_xdata (tag : BitVec 8) (bad : Bool) (s : State) : exec (.xdata tag bad) s = (s.run fun t c => c.xdata t tag.toNat
    bad) := rfl

theorem exec_tp (n : Fin 4) (s : State) : exec (.tp n) s = (s.run fun _ c => c.tpMsg n.val) := rfl

theorem exec_status (osnma : List OsnmaSat) (s : State) : exec (.status osnma) s = (s.run fun t c => c.status t osnma) := rfl

theorem exec_notice (l : Fin 2) (s : State) : exec (.notice l) s = (s.run fun t c => c.notice t l.val) := rfl

theorem exec_acqResult (tag : BitVec 8) (s : State) : exec (.acqResult tag) s = (s.run fun _ c => c.acqResult tag.toNat) := rfl

theorem exec_head (b : Fin 3) (s : State) : exec (.head b) s = (s.run fun _ c => c.headMsg b.val) := rfl

theorem exec_nmeaSentence (kind : Fin 7) (s : State) : exec (.nmeaSentence kind) s = (s.run fun t c => c.nmea t kind.val) := rfl

theorem exec_rtcmMessage (kind : Fin 7) (s : State) : exec (.rtcmMessage kind) s = (s.run fun t c => c.rtcm t kind.val) := rfl

theorem exec_faults (n : Nat) (s : State) : exec (.faults n) s = (s.line (.faults n) fun t c => c.conFaults t n) := rfl

theorem exec_mon (src : Nat) (mv : Int) (s : State) : exec (.mon src mv) s = (s.line (.mon src mv) fun t c => c.conMon t src mv)
    := rfl

theorem exec_pinRead (n : Nat) (board : Bool) (s : State) : exec (.pinRead n board) s = (s.line (.pinRead n board) fun t c =>
    c.conPin t n board) := rfl

theorem exec_pinHi (n : Nat) (s : State) : exec (.pinHi n) s = (s.line (.pinHi n) fun t c => c.conPinSet t n 2) := rfl

theorem exec_pinLo (n : Nat) (s : State) : exec (.pinLo n) s = (s.line (.pinLo n) fun t c => c.conPinSet t n 1) := rfl

theorem exec_pinZ (n : Nat) (s : State) : exec (.pinZ n) s = (s.line (.pinZ n) fun t c => c.conPinSet t n 3) := rfl

theorem exec_pinRel (n : Nat) (s : State) : exec (.pinRel n) s = (s.line (.pinRel n) fun t c => c.conPinSet t n 0) := rfl

theorem exec_rd (addr : Word) (n : Nat) (badAt : Nat) (s : State) : exec (.rd addr n badAt) s = (s.line (.rd addr n badAt) fun t c
    => c.conRd t addr.toNat n badAt) := rfl

theorem exec_wr (addr : Word) (w : Word) (s : State) : exec (.wr addr w) s = (s.line (.wr addr w) fun t c => c.conWr t addr.toNat
    w) := rfl

theorem exec_testSupply (mv : List Nat) (s : State) : exec (.testSupply mv) s = (s.line (.testSupply mv) fun t c => c.testSupply t
    mv) := rfl

theorem exec_testPll (lockA : Bool) (lockB : Bool) (mvA : Nat) (mvB : Nat) (ppm : Int) (s : State) : exec (.testPll lockA lockB
    mvA mvB ppm) s = (s.line (.testPll lockA lockB mvA mvB ppm) fun t c => c.testPll t lockA lockB mvA mvB ppm) := rfl

theorem exec_testLvds (n : Fin 8) (fin : Bool) (s : State) : exec (.testLvds n fin) s = (if fin then s.run fun t c =>
    c.testLvdsEnd t n.val else s.line (.testLvds n fin) fun t c => c.testLvds t n.val) := rfl

theorem exec_testSkein (k : Fin 8) (fin : Bool) (good : Bool) (s : State) : exec (.testSkein k fin good) s = (if fin then s.run
    fun t c => c.testSkeinEnd t k.val good else s.line (.testSkein k fin good) fun t c => c.testSkein t k.val) := rfl

theorem exec_testLoupe (fin : Bool) (good : Bool) (s : State) : exec (.testLoupe fin good) s = (if fin then s.run fun t c =>
    c.testLoupeEnd t good else s.line (.testLoupe fin good) fun t c => c.testLoupe t) := rfl

theorem exec_testPrism (fin : Bool) (pidx : Nat) (pk : Int) (peak : Nat) (second : Nat) (s : State) : exec (.testPrism fin pidx pk
    peak second) s =
    (if fin then
       s.run fun t c => c.testPrismEnd t pidx pk peak second
     else s.line (.testPrism fin pidx pk peak second) fun t c => c.testPrism t) := rfl

theorem exec_testHank (same : Bool) (s : State) : exec (.testHank same) s = (s.line (.testHank same) fun t c => c.testHank t same)
    := rfl

theorem exec_testNvm (corr : Nat) (unc : Nat) (s : State) : exec (.testNvm corr unc) s = (s.line (.testNvm corr unc) fun t c =>
    c.testNvm t corr unc) := rfl

theorem exec_testFacet (sha : Bool) (ecdsa : Bool) (s : State) : exec (.testFacet sha ecdsa) s = (s.line (.testFacet sha ecdsa)
    fun t c => c.testFacet t sha ecdsa) := rfl

theorem exec_testWhorl (fin : Bool) (rateOk : Bool) (s : State) : exec (.testWhorl fin rateOk) s = (if fin then s.run fun t c =>
    c.testWhorlEnd t rateOk else s.line (.testWhorl fin rateOk) fun t c => c.testWhorl t) := rfl

theorem exec_testReel (n : Fin 8) (fin : Bool) (s : State) : exec (.testReel n fin) s = (if fin then s.run fun t c =>
    c.testReelEnd t n.val else s.line (.testReel n fin) fun t c => c.testReel t n.val) := rfl

theorem exec_testUart0 (got : Nat) (errs : Bool) (s : State) : exec (.testUart0 got errs) s = (s.line (.testUart0 got errs) fun t
    c => c.testUart0 t got errs) := rfl

theorem exec_testMirror (k : Nat) (fin : Bool) (s : State) : exec (.testMirror k fin) s = (if fin then s.run fun t c =>
    c.testMirrorEnd t k else s.line (.testMirror k fin) fun t c => c.testMirror t k) := rfl

theorem exec_testTsg (n : Fin 8) (fin : Bool) (good : Bool) (s : State) : exec (.testTsg n fin good) s = (if fin then s.run fun t
    c => c.testTsgEnd t n.val good else s.line (.testTsg n fin good) fun t c => c.testTsg t n.val) := rfl

theorem exec_tsg (mask : Nat) (n : Nat) (ws : List Word) (s : State) : exec (.tsg mask n ws) s = (s.line (.tsg mask n ws) fun t c
    => c.conTsg t mask n ws) := rfl

theorem exec_svcPinctlWrite (w : Word) (s : State) : exec (.svcPinctlWrite w) s = (s.run fun _ c => c.pinctl w) := rfl

theorem exec_startUp (env : BootEnv) (s : State) : exec (.startUp env) s = (s.start fun _ c => c.startUp env) := rfl

theorem exec_refclkDetectRetry (freq : Option Nat) (s : State) : exec (.refclkDetectRetry freq) s = (s.start fun _ c => c.refRetry
    freq) := rfl

theorem exec_pllLockRetry (ok : Bool) (s : State) : exec (.pllLockRetry ok) s = (s.start fun _ c => c.lockRetry ok) := rfl

theorem exec_epochSyncFrame (count : BitVec 48) (crcOk : Bool) (phase : Int) (training : Bool) (s : State) : exec (.epochSyncFrame
    count crcOk phase training) s = (s.start fun t c => c.syncFrame t count.toNat crcOk phase training) := rfl

theorem exec_registerWrite (addr : Word) (value : Word) (s : State) : exec (.registerWrite addr value) s = (s.run fun t c =>
    c.busWrite t addr.toNat value) := rfl

theorem exec_timeScaleTableWrite (k : Fin 8) (utc : Vector (Option (Int × Int)) 3) (bcast : Option Int) (leap : Option (Nat ×
    Bool)) (s : State) : exec (.timeScaleTableWrite k utc bcast leap) s = (s.run fun t c => c.scaleWrite t k.val utc bcast leap)
    := rfl

theorem exec_supplyReturn (rail : Fin 7) (s : State) : exec (.supplyReturn rail) s = (s.always fun _ c => if rail.val = 0 then c
    else c.supply rail.val true) := rfl

theorem exec_planLoad (s : State) : exec .planLoad s = (s.run fun t c => c.planCtrl t 1) := rfl

theorem exec_planCheckComplete (s : State) : exec .planCheckComplete s = (s.run fun _ c => c.checkComplete) := rfl

theorem exec_planArm (s : State) : exec .planArm s = (s.run fun t c => c.planCtrl t 2) := rfl

theorem exec_planDisarm (s : State) : exec .planDisarm s = (s.run fun t c => c.planCtrl t 4) := rfl

theorem exec_jqDoneRead (s : State) : exec .jqDoneRead s = (s.read R.PLAN_JQ_DONE) := rfl

theorem exec_verify (s : State) : exec .verify s = (s.run fun _ c => c.imgVerify) := rfl

theorem exec_confirm (s : State) : exec .confirm s = (s.run fun _ c => c.imgConfirm) := rfl

theorem exec_select (s : State) : exec .select s = (s.run fun _ c => c.imgSelect) := rfl

theorem exec_snapshotArm (s : State) : exec .snapshotArm s = (s.run fun t c => c.snapArm t) := rfl

theorem exec_snapshotDisarm (s : State) : exec .snapshotDisarm s = (s.run fun t c => c.snapDisarm t) := rfl

theorem exec_captureEnd (s : State) : exec .captureEnd s = (s.run fun t c => (c.captureEnd t).enterSnapshot) := rfl

theorem exec_snapshotRelease (s : State) : exec .snapshotRelease s = (s.run fun _ c => c.snapRelease) := rfl

theorem exec_fewaitExpiry (s : State) : exec .fewaitExpiry s = (s.run fun t c => c.fewaitExpiry t) := rfl

theorem exec_lpeEvqLoRead (s : State) : exec .lpeEvqLoRead s = (s.read R.LPE_EVQ_LO) := rfl

theorem exec_lpeSymqLoRead (s : State) : exec .lpeSymqLoRead s = (s.read R.LPE_SYMQ_LO) := rfl

theorem exec_lpeEvqStatRead (s : State) : exec .lpeEvqStatRead s = (s.read R.LPE_EVQ_STAT) := rfl

theorem exec_lpeSymqStatRead (s : State) : exec .lpeSymqStatRead s = (s.read R.LPE_SYMQ_STAT) := rfl

theorem exec_strWbovrRead (s : State) : exec .strWbovrRead s = (s.read R.STR_WBOVR) := rfl

theorem exec_aidlost (s : State) : exec .aidlost s = (s.run fun t c => c.aidLost t) := rfl

theorem exec_focDemRead (s : State) : exec .focDemRead s = (s.read R.FOC_DEM) := rfl

theorem exec_focAidstatRead (s : State) : exec .focAidstatRead s = (s.read R.FOC_AIDSTAT) := rfl

theorem exec_prmSubmit (s : State) : exec .prmSubmit s = (s.run fun t c => c.prmSubmit t 1) := rfl

theorem exec_prmStatRead (s : State) : exec .prmStatRead s = (s.read R.PRM_STAT) := rfl

theorem exec_prmIdleRead (s : State) : exec .prmIdleRead s = (s.read R.PRM_IDLE) := rfl

theorem exec_planOstatRead (s : State) : exec .planOstatRead s = (s.read R.PLAN_OSTAT) := rfl

theorem exec_holdoverEntry (s : State) : exec .holdoverEntry s = (s.run fun t c => c.holdoverEntry t.epoch) := rfl

theorem exec_limitEntry (s : State) : exec .limitEntry s = (s.run fun t c => c.limitEntry t.epoch) := rfl

theorem exec_flyEvq3Read (s : State) : exec .flyEvq3Read s = (s.read R.FLY_EVQ3) := rfl

theorem exec_flyEvstatRead (s : State) : exec .flyEvstatRead s = (s.read R.FLY_EVSTAT) := rfl

theorem exec_tmrFail (s : State) : exec .tmrFail s = (s.run fun t c => c.tmrFault t) := rfl

theorem exec_flyTmrRead (s : State) : exec .flyTmrRead s = (s.read R.FLY_TMR) := rfl

theorem exec_reelMkamtLoRead (s : State) : exec .reelMkamtLoRead s = (s.read R.REEL_MKAMT_LO) := rfl

theorem exec_replayCorrelationComplete (bad : Option (Fin 8)) (stopped : BitVec 8) (s : State) : exec (.replayCorrelationComplete
    bad stopped) s = (s.run fun t c => c.replayMerge t (bad.map (·.val)) stopped.toNat) := rfl

theorem exec_rerunStart (s : State) : exec .rerunStart s = (s.run fun t c => c.rerunStart t) := rfl

theorem exec_rerunComplete (bad : Bool) (s : State) : exec (.rerunComplete bad) s = (s.run fun t c => c.rerunComplete t bad) :=
    rfl

theorem exec_replayDeadline (s : State) : exec .replayDeadline s = (s.run fun t c => c.replayDeadline t) := rfl

theorem exec_dstcmp (s : State) : exec .dstcmp s = (s.run fun t c => c.dstcmp t false) := rfl

theorem exec_mirCntRead (s : State) : exec .mirCntRead s = (s.read R.MIR_CNT) := rfl

theorem exec_mirEccRead (s : State) : exec .mirEccRead s = (s.read R.MIR_ECC) := rfl

theorem exec_sysAccerrRead (s : State) : exec .sysAccerrRead s = (s.read R.SYS_ACCERR) := rfl

theorem exec_vmainLow (s : State) : exec .vmainLow s = (.next (if s.core.onVbat then s else s.reseat (((s.core.supply 0
    false).switchWhorl 1).enterBackup))) := rfl

theorem exec_vmainReturn (s : State) : exec .vmainReturn s = (.next (if s.core.onVbat then s.reseat (resetCore
    ((s.core.switchWhorl 0).supply 0 true) 2) else s)) := rfl

theorem exec_vcoreLow (s : State) : exec .vcoreLow s = (.next (s.railLow 1 3)) := rfl

theorem exec_vpllLow (s : State) : exec .vpllLow s = (.next (s.railLow 2 4)) := rfl

theorem exec_vsampLow (s : State) : exec .vsampLow s = (s.always fun _ c => c.supply 3 false) := rfl

theorem exec_pwrDoze (s : State) : exec .pwrDoze s = (s.run fun t c => c.pwrCtrl t 2) := rfl

theorem exec_pwrRun (s : State) : exec .pwrRun s = (s.run fun t c => c.pwrCtrl t 4) := rfl

theorem exec_pwrHib (s : State) : exec .pwrHib s = (s.run fun t c => c.pwrCtrl t 1) := rfl

theorem exec_dozeIdleExpiry (s : State) : exec .dozeIdleExpiry s = (s.run fun t c => c.dozeExpiry t) := rfl

theorem exec_hibIdleExpiry (s : State) : exec .hibIdleExpiry s = (s.run fun t c => c.hibExpiry t) := rfl

theorem exec_dozeBurstStart (s : State) : exec .dozeBurstStart s = (s.run fun t c => if c.burstDue (t.epoch + 1) && decide
    (fcPerHalf ≤ t.fc) then c.burstProject (t.epoch + 1) else c) := rfl

theorem exec_dozeOffPhase (s : State) : exec .dozeOffPhase s = (s.run fun t c => c.offBegin t.epoch) := rfl

theorem exec_dozeExit (s : State) : exec .dozeExit s = (s.run fun t c => c.dozeLeave t.epoch) := rfl

theorem exec_hibernateSave (s : State) : exec .hibernateSave s =
    (.next (if s.core.hibDue then { s with held := [], core := s.core.hibSave s.clk } else s)) := rfl

theorem exec_islandReady (s : State) : exec .islandReady s = (s.run fun _ c => c.islandReady) := rfl

theorem exec_oscillatorStop (s : State) : exec .oscillatorStop s = (s.always fun _ c => c.setOsf) := rfl

theorem exec_whorlBrownOut (s : State) : exec .whorlBrownOut s = (s.always fun _ c => c.brownOut) := rfl

theorem exec_setosf (s : State) : exec .setosf s = (s.run fun _ c => c.setOsf) := rfl

theorem exec_curvld (s : State) : exec .curvld s = (s.run fun _ c => c.curvld) := rfl

theorem exec_chargerClamp (s : State) : exec .chargerClamp s = (s.always fun _ c => c.chargerClamp) := rfl

theorem exec_whlCntLoRead (s : State) : exec .whlCntLoRead s = (s.read R.WHL_CNT_LO) := rfl

theorem exec_anchorWrite (s : State) : exec .anchorWrite s = (s.run fun t c => c.anchorWrite t.abs) := rfl

theorem exec_compactionStart (s : State) : exec .compactionStart s = (s.run fun _ c => c.compactStart) := rfl

theorem exec_compactionComplete (s : State) : exec .compactionComplete s = (s.run fun _ c => c.compactEnd) := rfl

theorem exec_nvmProgramDone (s : State) : exec .nvmProgramDone s = (s.run fun _ c => c.nvmDone 1) := rfl

theorem exec_nvmEraseDone (s : State) : exec .nvmEraseDone s = (s.run fun _ c => c.nvmDone 2) := rfl

theorem exec_nvmStatRead (s : State) : exec .nvmStatRead s = (s.read R.NVM_STAT) := rfl

theorem exec_sysDstshedRead (s : State) : exec .sysDstshedRead s = (s.read R.SYS_DSTSHED) := rfl

theorem exec_pllLock (s : State) : exec .pllLock s = (s.run fun _ c => applyIf c.bob.sclk Core.pllLock c) := rfl

theorem exec_windowOpComplete (s : State) : exec .windowOpComplete s = (s.run fun _ c => c.windowDone) := rfl

theorem exec_badcmd (s : State) : exec .badcmd s = (s.run fun _ c => if c.flag F.QSP_CFG.EN then c.badCmd else c) := rfl

theorem exec_qspCntRead (s : State) : exec .qspCntRead s = (s.read R.QSP_CNT) := rfl

theorem exec_frameTimeout (s : State) : exec .frameTimeout s = (s.run fun _ c => if c.distaffServes then c.dropFrame 0 else c) :=
    rfl

theorem exec_meas (s : State) : exec .meas s = (s.run fun _ c => c.meas) := rfl

theorem exec_pvt (s : State) : exec .pvt s = (s.run fun t c => c.pvt t) := rfl

theorem exec_time (s : State) : exec .time s = (s.run fun t c => c.timeMsg t) := rfl

theorem exec_event (s : State) : exec .event s = (s.run fun _ c => c.eventMsg) := rfl

theorem exec_sym (s : State) : exec .sym s = (s.run fun _ c => c.forward 2 2 (·.readSymq) R.LPE_SYMQ_HI) := rfl

theorem exec_plyev (s : State) : exec .plyev s = (s.run fun _ c => c.forward 2 4 (·.readEvq) R.LPE_EVQ_HI) := rfl

theorem exec_help (s : State) : exec .help s = (s.line .help fun t c => c.conHelp t) := rfl

theorem exec_sys (s : State) : exec .sys s = (s.line .sys fun t c => c.conSys t) := rfl

theorem exec_stream (s : State) : exec .stream s = (s.line .stream fun t c => c.conStream t) := rfl

theorem exec_track (s : State) : exec .track s = (s.line .track fun t c => c.conTrack t) := rfl

theorem exec_eddeugStore (s : State) : exec .eddeugStore s = (s.line .eddeugStore fun t c => c.conStore t) := rfl

theorem exec_serviceOn (s : State) : exec .serviceOn s = (s.line .serviceOn fun t c => c.conServiceOn t) := rfl

theorem exec_serviceConfirm (s : State) : exec .serviceConfirm s = (s.line .serviceConfirm fun t c => c.conConfirm t) := rfl

theorem exec_serviceOff (s : State) : exec .serviceOff s = (s.line .serviceOff fun t c => c.conServiceOff t) := rfl

theorem exec_serviceTimeout (s : State) : exec .serviceTimeout s = (s.run fun t c => c.serviceTimeout t) := rfl

theorem exec_reboot (s : State) : exec .reboot s =
    (if s.core.conLive && s.core.serviceMode && !s.core.conBusy then
       .next (s.reseat (resetCore s.core 1))
     else s.line .reboot fun t c => c.conLine t 15 true fun c => c) := rfl

theorem exec_ctrlC (s : State) : exec .ctrlC s = (s.run fun t c => c.ctrlC t) := rfl

theorem exec_longLine (s : State) : exec .longLine s = (s.run fun t c => c.longLine t) := rfl

theorem exec_relall (s : State) : exec .relall s = (s.run fun _ c => c.relAll) := rfl

theorem exec_rstNAssert (s : State) : exec .rstNAssert s = (.next (if s.core.onVbat then s else s.reseat (resetCore s.core 1))) :=
    rfl

theorem exec_lateJoin (s : State) : exec .lateJoin s = (s.run fun _ c => c.lateJoin) := rfl

theorem exec_syncLoss (s : State) : exec .syncLoss s = (s.run fun _ c => c.syncLoss) := rfl

theorem exec_setStatRead (s : State) : exec .setStatRead s = (s.read R.SET_STAT) := rfl

theorem exec_sysUnmapRead (s : State) : exec .sysUnmapRead s = (s.read R.SYS_UNMAP) := rfl

theorem exec_planEpochLoRead (s : State) : exec .planEpochLoRead s = (s.read R.PLAN_EPOCH_LO) := rfl

theorem exec_bobSidxLoRead (s : State) : exec .bobSidxLoRead s = (s.read R.BOB_SIDX_LO) := rfl

theorem exec_bobCurposLoRead (s : State) : exec .bobCurposLoRead s = (s.read R.BOB_CURPOS_LO) := rfl

theorem exec_wakeNFallingEdge (s : State) : exec .wakeNFallingEdge s = (s.run fun t c => c.activity t) := rfl

theorem exec_outputByteWait (s : State) : exec .outputByteWait s = (s.run fun _ c => c.byteWait) := rfl

end Sys2Proof.Machine
end

