-- ==== Sys2Proof/Laws/Faults.lean ====
section
/-! SUPPORT. What registering a fault, emitting a word and posting a message can do (R312, R315, R316, R336, R447). -/
namespace Sys2Proof.Machine

/-- The word of MIR_FAULT (R336). -/
def faultWord (t : Clock) (src pair copy : Nat) (inj : Bool) : Nat :=
  src * 2 ^ 28 + pair * 2 ^ 24 + copy * 2 ^ 22 + ofBool inj * 2 ^ 21 + ofBool (decide (fcPerHalf ≤ t.fc)) * 2 ^ 20 + t.fc

theorem Core.fault_eq (c : Core) (t : Clock) (src pair copy : Nat) (inj : Bool) :
    c.fault t src pair copy inj =
      ((((c.setReg R.MIR_FAULT (BitVec.ofNat 32 (faultWord t src pair copy inj))).setReg R.MIR_FEPOCH (BitVec.ofNat 32 t.epoch)).raise
        F.MIR_IRQ.FAULT).notify 3 (leBytes 4 (faultWord t src pair copy inj) ++ leBytes 4 t.epoch)).onMir
          fun m => { m with reports := m.reports ++ [[src, pair, copy, t.epoch]] } := by
  unfold Core.fault faultWord; rfl

/-- A fault changes registers, the list of reports and the notices, and nothing else. -/
theorem Core.fault_frame (c : Core) (t : Clock) (src pair copy : Nat) (inj : Bool) :
    (c.fault t src pair copy inj).force = c.force ∧ (c.fault t src pair copy inj).mem = c.mem ∧ (c.fault t src pair copy
    inj).hot = c.hot ∧ (c.fault t src pair copy inj).ckpt = c.ckpt ∧ (c.fault t src pair copy inj).plan = c.plan ∧ (c.fault t
    src pair copy inj).bob = c.bob ∧ (c.fault t src pair copy inj).lpe = c.lpe ∧ (c.fault t src pair copy inj).out = c.out ∧
    (c.fault t src pair copy inj).foc = c.foc ∧ (c.fault t src pair copy inj).prm = c.prm ∧ (c.fault t src pair copy inj).fly =
    c.fly ∧ (c.fault t src pair copy inj).reel = c.reel ∧ (c.fault t src pair copy inj).replay = c.replay ∧ (c.fault t src pair
    copy inj).pwr = c.pwr ∧ (c.fault t src pair copy inj).whl = c.whl ∧ (c.fault t src pair copy inj).nvm = c.nvm ∧ (c.fault t
    src pair copy inj).dst = c.dst ∧ (c.fault t src pair copy inj).otp = c.otp ∧ (c.fault t src pair copy inj).uarts = c.uarts ∧
    (c.fault t src pair copy inj).qsp = c.qsp ∧ (c.fault t src pair copy inj).pinOver = c.pinOver ∧ (c.fault t src pair copy
    inj).svc = c.svc ∧ (c.fault t src pair copy inj).boot = c.boot ∧ (c.fault t src pair copy inj).saved = c.saved ∧ (c.fault t
    src pair copy inj).readData = c.readData ∧ (c.fault t src pair copy inj).free = c.free ∧
    (c.fault t src pair copy inj).mir = { c.mir with reports := c.mir.reports ++ [[src, pair, copy, t.epoch]] } := by
  simp [Core.fault_eq]

/-- What it shows: MIR_FAULT, MIR_FEPOCH and the interrupt. -/
theorem Core.fault_shown (c : Core) (t : Clock) (src pair copy : Nat) (inj : Bool) :
    (c.fault t src pair copy inj).reg R.MIR_FAULT = BitVec.ofNat 32 (faultWord t src pair copy inj) ∧
      (c.fault t src pair copy inj).reg R.MIR_FEPOCH = BitVec.ofNat 32 t.epoch ∧ (c.fault t src pair copy inj).fld F.MIR_IRQ.FAULT = 1 := by
  rw [Core.fault_eq]
  generalize BitVec.ofNat 32 (faultWord t src pair copy inj) = w
  generalize BitVec.ofNat 32 t.epoch = v
  rw [Core.reg_onMir, Core.reg_onMir, Core.fld_onMir, Core.reg_notify, Core.reg_notify, Core.fld_notify]
  have h1 : F.MIR_IRQ.FAULT.addr ≠ R.MIR_FAULT := by decide
  have h2 : F.MIR_IRQ.FAULT.addr ≠ R.MIR_FEPOCH := by decide
  have h3 : R.MIR_FEPOCH ≠ R.MIR_FAULT := by decide
  refine ⟨?_, ?_, Core.fld_setFld_same _ 1 (by decide) (by decide)⟩
  · rw [Core.reg_raise_other _ h1, Core.reg_setReg_other _ _ h3, Core.reg_setReg_same]
  · rw [Core.reg_raise_other _ h2, Core.reg_setReg_same]

/-- A lockstep fault loses its half-epoch and suppresses what the pairs emit. -/
theorem Core.lockstep_lost (c : Core) (t : Clock) (src pair copy : Nat) (inj : Bool) :
    (c.lockstep t src pair copy inj).mir.lost = true ∧ (c.lockstep t src pair copy inj).plan.recs = [] ∧
      (c.lockstep t src pair copy inj).fld F.MIR_STAT.REC = 1 ∧ (c.lockstep t src pair copy inj).fld F.MIR_STAT.SUPP = 1 :=
  ⟨rfl, rfl, Core.fld_setFld_same _ 1 (by decide) (by decide),
    (Core.fld_setFld_other _ 1 (.inr (by decide))).trans (Core.fld_setFld_same _ 1 (by decide) (by decide))⟩

@[simp] theorem Core.lockstep_suppressed (c : Core) (t : Clock) (src pair copy : Nat) (inj : Bool) :
    (c.lockstep t src pair copy inj).suppressed = true := by
  have h := (c.lockstep_lost t src pair copy inj).2.2.2
  simp [Core.suppressed, Core.flag, h]

/-- A word that leaves a pair is emitted, and only the counts of words still to come before a disagreement change; or it is not emitted
and the occurrence is marked cut: the device is suppressed, or the copies disagree and that is caught. -/
theorem Core.emits_cases (c : Core) (pair : Nat) :
    ((c.emits pair).2 = true ∧ c.suppressed = false ∧
      (c.emits pair).1 = c.onMir fun m => { m with badOut := m.badOut.map fun b => if b.1 = pair then (b.1, b.2 - 1) else b }) ∨
    ((c.emits pair).2 = false ∧ (c.emits pair).1.mir.cut = true ∧
      (c.suppressed = true ∨ ∃ inj, (c.emits pair).1.mir.caught = some (pair, inj))) := by
  unfold Core.emits
  by_cases h : c.suppressed = true
  · exact .inr (by simp [h])
  · by_cases hi : c.mir.injOut = some pair
    · exact .inr (by simp [h, hi])
    · by_cases hb : c.mir.badOut.contains (pair, 0) = true
      · exact .inr (by simp only [h, hi, hb]; simp)
      · exact .inl (by simp only [h, hi, hb]; simp [Core.onMir])

/-- Nothing goes out on a link without a session, nor where the session has no form of the message. -/
theorem Core.tell_silent {c : Core} {l cls id : Nat} {full : List Byte} {always : Bool}
    (h : (c.link l).opened = false ∨ (c.link l).outgoing cls id full = none) : c.tell l cls id full always = c := by
  unfold Core.tell
  rcases h with h | h
  · simp [h]
  · rw [h]; simp

/-- A message is shed, or posted: no shed level sheds one that is marked MAND or is never shed (R393). -/
theorem Core.tell_posts {c : Core} {l cls id : Nat} {full : List Byte} {always : Bool} {cc ci : Nat} {p : List Byte} {mand : Bool}
    (h1 : (c.link l).opened = true) (h2 : (c.link l).outgoing cls id full = some (cc, ci, p, mand)) :
    c.tell l cls id full always =
      if 2 ≤ c.fld F.SYS_DSTLOAD.LEVEL ∧ mand = false ∧ always = false then c.countSat F.SYS_DSTSHED.OPT 1 else c.post l cc ci p := by
  unfold Core.tell
  rw [h2]; simp [h1]

end Sys2Proof.Machine
end

