-- ==== Sys2Proof/Laws/Fields.lean ====
section
/-! SUPPORT. Fields of registers set one after another: what they hold and what every other bit holds. -/
namespace Sys2Proof.Machine

/-- Fields set one after another. -/
def RegMap.setAll (m : RegMap) : List (Fld × Nat) → RegMap
  | [] => m
  | p :: r => (m.setFld p.1 p.2).setAll r

/-- Two fields that lie inside a word and do not overlap. -/
def fldApart (f g : Fld) : Bool := decide (f.addr ≠ g.addr ∨ f.hi < g.lo ∨ g.hi < f.lo)

/-- Fields inside a word, no two of which overlap. -/
def fldsApart : List (Fld × Nat) → Bool
  | [] => true
  | p :: r => decide (p.1.lo ≤ p.1.hi ∧ p.1.hi < 32) && r.all (fun q => fldApart p.1 q.1) && fldsApart r

theorem RegMap.setAll_other {m : RegMap} {ps : List (Fld × Nat)} {g : Fld} (hg : g.lo ≤ g.hi) (h : fldsApart ps = true)
    (ha : ∀ p ∈ ps, g.addr = p.1.addr → g.hi < p.1.lo ∨ p.1.hi < g.lo) : (m.setAll ps).fld g = m.fld g := by
  induction ps generalizing m with
  | nil => rfl
  | cons p r ih =>
    simp only [fldsApart, Bool.and_eq_true, decide_eq_true_eq] at h
    rw [RegMap.setAll, ih h.2 fun q hq => ha q (List.mem_cons_of_mem _ hq)]
    by_cases e : p.1.addr = g.addr
    · exact fld_setFld_bits e h.1.1.1 h.1.1.2 hg (ha p List.mem_cons_self e.symm)
    · exact fld_setFld_addr e

/-- Each of the fields holds its value, as wide as it is. -/
theorem RegMap.setAll_same {m : RegMap} {ps : List (Fld × Nat)} (h : fldsApart ps = true) :
    ∀ p ∈ ps, (m.setAll ps).fld p.1 = p.2 % 2 ^ (p.1.hi - p.1.lo + 1) := by
  induction ps generalizing m with
  | nil => simp
  | cons p r ih =>
    simp only [fldsApart, Bool.and_eq_true, decide_eq_true_eq, List.all_eq_true] at h
    intro q hq
    rcases List.mem_cons.1 hq with rfl | hq
    · rw [RegMap.setAll, setAll_other h.1.1.1 h.2, fld_setFld_same h.1.1.1 h.1.1.2]
      intro x hx e
      have := h.1.2 x hx
      simp only [fldApart, decide_eq_true_eq] at this
      exact this.resolve_left fun k => k e
    · exact ih h.2 q hq

/-- Fields set one after another are all that differs. -/
theorem FieldsSet.of {ps : List (Fld × Nat)} {c c' : Core} (h : fldsApart ps = true) (e : c'.regs = c.regs.setAll ps) :
    FieldsSet ps c c' := by
  refine ⟨fun p hp => ?_, fun a b hb hp => ?_⟩
  · show c'.regs.fld p.1 = _
    rw [e]; exact RegMap.setAll_same h p hp
  · show c'.regs.fld ⟨a, b, b⟩ = c.regs.fld ⟨a, b, b⟩
    rw [e]
    exact RegMap.setAll_other (Nat.le_refl b) h fun p hp' he => (hp p hp' he.symm)

/-- A command on the powered core that sets the fields and leaves the rest as in `u`. -/
theorem Leaves.of {i : Instr} {s : State} {ps : List (Fld × Nat)} {u : Core} {f : Clock → Core → Core} (hx : exec i s = s.run f)
    (hon : s.core.coreOn = true) (h : fldsApart ps = true) (hf : f s.clk s.core = { u with regs := s.core.regs.setAll ps }) :
    Leaves i s ps u := by
  refine ⟨f s.clk s.core, by rw [hx, State.run_on f hon], FieldsSet.of h (by rw [hf]), ?_⟩
  rw [hf]

/-- An event in every power state that sets the fields and leaves the rest as in `u`. -/
theorem LeavesAlways.of {i : Instr} {s : State} {ps : List (Fld × Nat)} {u : Core} {f : Clock → Core → Core}
    (hx : exec i s = s.always f) (h : fldsApart ps = true) (hf : f s.clk s.core = { u with regs := s.core.regs.setAll ps }) :
    LeavesAlways i s ps u :=
  ⟨f s.clk s.core, by rw [hx, State.always], FieldsSet.of h (by rw [hf]), by rw [hf]⟩

end Sys2Proof.Machine
end

