-- ==== Sys2Proof/Laws/Loupe.lean ====
section
/-! SUPPORT. The slices: what an update of one slice leaves alone, results sent into flight, and the integers of a 32-bit word. -/
namespace Sys2Proof.Machine

@[simp] theorem Core.slice_setSlice_same (c : Core) (k : Nat) (x : SliceSt) : (c.setSlice k x).slice k = x := by
  simp [Core.slice, Core.setSlice]

theorem Core.slice_setSlice_other (c : Core) {j k : Nat} (x : SliceSt) (h : j ≠ k) : (c.setSlice k x).slice j = c.slice j := by
  simp only [Core.slice, Core.setSlice, Core.onHot_hot]
  exact mapGet_put_other (Ne.symm h)

@[simp] theorem Core.slice_onSlice_same (c : Core) (k : Nat) (f : SliceSt → SliceSt) : (c.onSlice k f).slice k = f (c.slice k) := by
  simp [Core.onSlice]

theorem Core.slice_onSlice_other (c : Core) {j k : Nat} (f : SliceSt → SliceSt) (h : j ≠ k) : (c.onSlice k f).slice j = c.slice j :=
  Core.slice_setSlice_other c _ h

/-- An update of a slice changes the slices alone. -/
theorem Core.onSlice_only (c : Core) (k : Nat) (f : SliceSt → SliceSt) :
    c.onSlice k f = { c with hot := { c.hot with slices := (c.onSlice k f).hot.slices } } := rfl

@[simp] theorem Core.reg_onSlice (c : Core) (k : Nat) (f : SliceSt → SliceSt) (b : Nat) : (c.onSlice k f).reg b = c.reg b := rfl

@[simp] theorem Core.slice_raise (c : Core) (f : Fld) (k : Nat) : (c.raise f).slice k = c.slice k := rfl

@[simp] theorem Core.slice_setFld (c : Core) (f : Fld) (v k : Nat) : (c.setFld f v).slice k = c.slice k := rfl

@[simp] theorem Core.slice_sliceErr (c : Core) (f g : Fld) (k : Nat) : (c.sliceErr f g).slice k = c.slice k := rfl

/-- One result joins those in flight. -/
@[simp] theorem Core.slice_send_same (c : Core) (k f lat : Nat) (e : SliceEff) :
    (c.send k f lat e).slice k =
      { c.slice k with flight := insertFlight { due := (c.slice k).now + lat, field := f, eff := e } (c.slice k).flight } := by
  simp [Core.send]

theorem Core.slice_send_other (c : Core) {j k : Nat} (f lat : Nat) (e : SliceEff) (h : j ≠ k) :
    (c.send k f lat e).slice j = c.slice j := Core.slice_onSlice_other c _ h

theorem Core.send_only (c : Core) (k f lat : Nat) (e : SliceEff) :
    c.send k f lat e = { c with hot := { c.hot with slices := (c.send k f lat e).hot.slices } } := rfl

/-- Results in flight are not read by operands (R226). -/
@[simp] theorem Core.sreg_send (c : Core) (k f lat : Nat) (e : SliceEff) (j id : Nat) : (c.send k f lat e).sreg j id = c.sreg j id := by
  by_cases h : j = k
  · subst h; simp [Core.sreg]; rfl
  · simp only [Core.sreg, Core.slice_send_other c f lat e h]; rfl

@[simp] theorem Core.dmemWord_send (c : Core) (k f lat : Nat) (e : SliceEff) (j a : Nat) :
    (c.send k f lat e).dmemWord j a = c.dmemWord j a := rfl

/-! ### Words as integers -/

theorem sw_eq (w : Word) : sw w = w.toInt := by
  have := w.isLt
  unfold sw signedOf BitVec.toInt
  rw [Nat.mod_eq_of_lt this]
  split <;> split <;> first | rfl | omega

theorem ofInt32_eq (i : Int) : ofInt32 i = BitVec.ofInt 32 i := by
  apply BitVec.eq_of_toNat_eq
  rw [ofInt32, unsignedOf, BitVec.toNat_ofNat, BitVec.toNat_ofInt]
  have h1 : 0 ≤ i % ((2 ^ 32 : Nat) : Int) := Int.emod_nonneg _ (by norm_num)
  have h2 : i % ((2 ^ 32 : Nat) : Int) < ((2 ^ 32 : Nat) : Int) := Int.emod_lt_of_pos _ (by norm_num)
  apply Nat.mod_eq_of_lt
  omega

theorem signedOf_eq {n : Nat} (v : Nat) (h : 0 < n) : signedOf n v = (BitVec.ofNat n v).toInt := by
  unfold signedOf BitVec.toInt
  rw [BitVec.toNat_ofNat]
  obtain ⟨m, rfl⟩ : ∃ m, n = m + 1 := ⟨n - 1, by omega⟩
  have : 2 ^ (m + 1) = 2 * 2 ^ m := by ring
  have hlt := Nat.mod_lt v (Nat.two_pow_pos (m + 1))
  simp only [Nat.add_sub_cancel]
  split <;> split <;> first | rfl | omega

theorem bits_eq (w : Word) (hi lo : Nat) : BitVec.ofNat (hi - lo + 1) (bits w hi lo) = w.extractLsb' lo (hi - lo + 1) := by
  apply BitVec.eq_of_toNat_eq
  simp [bits, Nat.shiftRight_eq_div_pow]

end Sys2Proof.Machine
end

