-- ==== Sys2Proof/Tests/Slice0.lean ====
section
/-! SUPPORT. Tests: terms that WellFormed refuses, single steps against the spec's own numbers, and for each statement states and operands
that meet its hypotheses. -/
section Tests
open Sys2Proof Sys2Proof.Machine Sys2Proof.Claims

namespace Sys2Proof.Tests

/- One theorem after another: each is evaluated by the kernel, and many at once would need many threads. -/
set_option Elab.async false

/-- A state with some register fields set. -/
def put (ps : List (Fld × Nat)) (s : State) : State := { s with core := ps.foldl (fun c p => c.setFld p.1 p.2) s.core }
/-- A device whose epochs run. -/
def up : State := put [(F.SYS_BOOT.STAGE, 10)] State.reset
/-- The same at an instant. -/
def upAt (epoch fc : Nat) : State := { up with clk := { epoch := epoch, fc := fc } }
/-- A device with a change of its core. -/
def mk (f : Core → Core) : State := { up with core := f up.core }
/-- A field after a command, 0 where the command does not go on. -/
def after (i : Instr) (s : State) (f : Fld) : Nat := match exec i s with | .next t => t.core.fld f | _ => 0
/-- What a command leaves in the read data. -/
def readBack (i : Instr) (s : State) : List Word := match exec i s with | .next t => t.core.readData | _ => []

/-- An event tag with its words, and no time. -/
def tag (ws : List Word) : EventTag := { words := ws, time := none }
def noInput : HalfInput := { pins := [], mism := [], ckptErr := false, flyBad := false, temp := 2500, hank := [] }
def env : BootEnv := { BootEnv.reset with straps := 0x08, ref := some 0 }
def req : TwineHead := { link := 0, seq := 1, old := none }
def job (cls : Nat) (phase : JobPhase) : Job :=
  { tag := 5, cls := cls, seq := 0, prio := 0, phase := phase, desc := [0, 0, 0],
    cursor := some { stream := 0, next := 0, offset := some 0, snap := false, waiting := true, lost := false, ovtk := false },
    prism := none, total := 8, moved := 8 }
def withJob (j : Job) : State := mk fun c => { c with plan := { c.plan with jobs := [j] } }

/-! ### Terms that WellFormed refuses, one for each of its checks, and one that it takes -/

theorem test_wf_sliceOp : Instr.wellFormed (.add 0 3 0 false) = false ∧ Instr.wellFormed (.endOp 8 3 0 true) = true := by decide +kernel
theorem test_wf_samples : Instr.wellFormed (.epochBoundary { noInput with pins := [(8, [])] }) = false := by decide +kernel
theorem test_wf_runs : Instr.wellFormed (.checkPoint { noInput with pins := [(0, [(40961, 0)])] }) = false := by decide +kernel
theorem test_wf_pairs : Instr.wellFormed (.checkPoint { noInput with mism := [10] }) = false := by decide +kernel
theorem test_wf_slot : Instr.wellFormed (.slotStart 4096 none) = false ∧ Instr.wellFormed (.slotOverrun 4096) = false := by decide +kernel
theorem test_wf_sweep : Instr.wellFormed (.trainingComplete 0 []) = false := by decide +kernel
theorem test_wf_satellite : Instr.wellFormed (.satelliteEntryPublish 0 []) = false := by decide +kernel
def handover : HandoffReq := { ply := 1024, eh := 0, fd := 0, cph := 0, sidx0 := 0, cpc0 := 0, binding := none, verify := 0, sigid := 0, svid := 0 }
theorem test_wf_handoff : Instr.wellFormed (.handoff handover) = false := by decide +kernel
theorem test_wf_straps : Instr.wellFormed (.startUp { env with straps := 256 }) = false := by decide +kernel
theorem test_wf_fails : Instr.wellFormed (.startUp { env with fails := 1024 }) = false := by decide +kernel
theorem test_wf_ecc : Instr.wellFormed (.wake 1 { env with ecc := 4 } 0 false) = false := by decide +kernel
theorem test_wf_ref : Instr.wellFormed (.startUp { env with ref := some 5 }) = false ∧
    Instr.wellFormed (.refclkDetectRetry (some 5)) = false := by decide +kernel
theorem test_wf_bootSweep : Instr.wellFormed (.startUp { env with sweeps := [(0, [])] }) = false := by decide +kernel
theorem test_wf_supply : Instr.wellFormed (.testSupply []) = false := by decide +kernel
theorem test_wf_tsg : Instr.wellFormed (.tsg 0 0 []) = false := by decide +kernel
theorem test_wf_stats : Instr.wellFormed (.spoolRecordWrite true none (some (List.replicate 241 0))) = false := by decide +kernel
theorem test_wf_window : Instr.wellFormed (.rdwin 0 4095 2) = false := by decide +kernel
theorem test_wf_scale : Instr.wellFormed (.timeScaleTableWrite 6 (Vector.replicate 3 none) none none) = false := by decide +kernel
theorem test_wf_takes : Instr.wellFormed (.startUp env) = true ∧ Instr.wellFormed (.epochBoundary noInput) = true := by decide +kernel

/-! ### Single steps -/

/-- R502: SYS_ID reads part 0x9472, revision 0xB0. -/
theorem test_sysId : (State.reset.core.regRead State.reset.clk R.SYS_ID).2 = 0x947200B0#32 := by decide +kernel
/-- R41: a commit at an offset of 655,296 fc is for the next boundary, one later for the boundary after. -/
theorem test_commit_limit : ((match exec (.planCommit 1) (upAt 7 655296) with | .next t => t.core.plan.commitAt | _ => []) = [(0, 8)]) ∧
    ((match exec (.planCommit 1) (upAt 7 655297) with | .next t => t.core.plan.commitAt | _ => []) = [(0, 9)]) := by decide +kernel
/-- R499: a write to an address in no range is counted. -/
theorem test_unmapped : after (.registerWrite 0x50000000 1) up F.SYS_UNMAP.COUNT = 1 := by decide +kernel
/-- R418: UART0 takes 6,000,000 baud and no more. -/
theorem test_uart_rate : after (.uartRateWrite 0 6000000) up (F.UART_STAT.BADW 0) = 0 ∧
    after (.uartRateWrite 0 6000001) up (F.UART_STAT.BADW 0) = 1 := by decide +kernel
/-- R373: SETOSF makes Whorl untrusted. -/
theorem test_setosf : after .setosf up F.WHL_TRUST.OSF = 1 ∧ after .setosf up F.WHL_TRUST.SUM = 2 := by decide +kernel
/-- R384: the key of WHL_CHG is 0xC4. -/
theorem test_charger_key : after (.whlChgWrite 0xC4000021) up ⟨R.WHL_CHG, 31, 0⟩ = 0x21 ∧ after (.whlChgWrite 0xC5000021) up F.WHL_STAT.BADW = 1 := by
  decide +kernel
/-- R377: from 65,536 on the accumulator gives one more tick. -/
theorem test_tick_advance : tickAdvance 65536 = (2, 0) ∧ tickAdvance 65535 = (1, 65535) ∧ tickAdvance (-65536) = (0, 0) := by decide +kernel
/-- R27: PLAN_PHASE shows the offset, the half and the plan phase. -/
theorem test_plan_phase : Clock.phaseWord { epoch := 1999, fc := 655359 } = BitVec.ofNat 32 (655359 * 4096 + 1024 + 999) := by decide +kernel
/-- R506: 2 is newer than 65,535 modulo 2^16, and values half the range apart are unordered. -/
theorem test_serial : serialNewer 16 2 65535 = true ∧ serialNewer 16 0x8000 0 = false ∧ serialNewer 16 0 0x8000 = false := by decide +kernel
/-- R438: the check value of the frame's CRC over "123456789" is 0xCBF43926. -/
theorem test_crc32 : crc32 [0x31, 0x32, 0x33, 0x34, 0x35, 0x36, 0x37, 0x38, 0x39] = 0xCBF43926#32 := by decide +kernel
/-- R232: the worked example of the accumulator that wraps: a0 = 2^47 - 16, plus 10 × 10, then minus 25 × 40. -/
def accs (es : List SliceEff) : Nat × Nat :=
  let c := es.foldl (fun c e => c.landOne 0 e) (State.reset.core.landOne 0 (.acc 0 0x7FFFFFFFFFF0))
  (vecAt 0 (c.slice 0).accs 0, (c.slice 0).sst)
theorem test_acc_wraps : accs [.mac 0 100] = (0x800000000054, 4) ∧ accs [.mac 0 100, .mac 0 (-1000)] = (0x7FFFFFFFFC6C, 4) := by decide +kernel
/-- R378: the worked example: P15 = -1,210, P16 = -1,520, 37.3 °C. -/
theorem test_correction : correction (curveError (List.replicate 15 0 ++ [-1210, -1520]) 0 373) = 29047 := by decide +kernel
/-- R310: the worked example of a make-up. -/
def slept : Core :=
  (((State.reset.core.setReg R.REEL_MKRATE 0x09C40326).setFld (F.REEL_CFG.ARM 2) 1).setFld (F.REEL_CFG.PER 2) 1).onRc 2 fun x =>
    { x with run := true, base := 50000000000, cmp := 55000000000, inc := 81920000 }
theorem test_makeUp : let c := slept.makeUp 0 3932161 true
    (c.reel.amount, c.fld F.REEL_MKFRAC.FRAC, (c.rc 2).base, (c.rc 2).cmp, c.reg (R.REEL_SKIP 2), c.fld F.REEL_MKERR.ERR) =
      (9830450860, 806, 59830450860, 59833280000, 58#32, 2501) := by decide +kernel
/-- Vector Tracking: 26 states, at most 128 measurements, no aiding cost 36,266 fc. -/
theorem test_focusCost : focusCost 26 128 0 = 36266 := by decide +kernel
/-- R387: leap years of the calendar service. -/
theorem test_leap_year : leapYear 2000 = true ∧ leapYear 2100 = false ∧ dayNumber 1980 1 6 = 0 := by decide +kernel
/-- R225: 1 + 1 = 2 and 2 × 3 = 6 in binary32. -/
theorem test_fadd : fadd 0x3F800000#32 0x3F800000#32 = 0x40000000#32 ∧ fmul 0x40000000#32 0x40400000#32 = 0x40C00000#32 := by decide +kernel
/-- R498, R499: an unaligned access is answered as one in no range. -/
theorem test_unaligned : after (.registerWrite 0x40001001 1) up F.SYS_UNMAP.VALID = 1 := by decide +kernel
/-- A step with nothing waiting lets one fc pass, and none at the end of a half-epoch. -/
theorem test_idle : (match step (upAt 3 5) with | .next t => t.clk | _ => up.clk) = { epoch := 3, fc := 6 } := by decide +kernel

/-! ### States and operands that meet the hypotheses of the statements -/

/-- A slot entry's 16 bytes. -/
def slotBytes (start phase length period resource kind index a : Nat) : List Byte :=
  leBytes 4 (start + phase * 2 ^ 20) ++ leBytes 4 (length + period * 2 ^ 18) ++ leBytes 4 (resource + kind * 2 ^ 12 + index * 2 ^ 16) ++ leBytes 4 a
/-- An image whose plan has these slots. -/
def planImage (l : List (List Byte)) : Image :=
  { product := 0, patchLvl := 0, secs := [(2, leBytes 2 1 ++ leBytes 2 l.length ++ leBytes 4 7 ++ List.replicate 8 0 ++ l.flatten)] }
/-- A PORT slot of port 0 in the first half of every epoch, and a RECORD slot in the second. -/
def twoSlots : Image := planImage [slotBytes 2048 0 161792 0 0 6 0 0, slotBytes 409600 0 1344 0 0x30 4 0 256]
/-- Island 0 on, port 0 open. -/
def portUp : State :=
  let s := put [(F.FAB_SKSTAT.PWR, 1)] (upAt 0 2048)
  { s with core := { s.core with plan := { s.core.plan with img := twoSlots, opened := [{ slot := 0, epoch := 0 }] } } }
def pushMem (k a : Nat) (w : Word) (s : State) : State := { s with core := s.core.putDmem k a [w] }

theorem witness_slices : SliceRuns up 8 ∧ SliceRuns portUp 0 ∧ SliceRuns portUp 8 := by unfold SliceRuns; decide +kernel
/-- Every operation in each of its fields, with operand bits at their ends. -/
theorem witness_operations :
    ([0x01, 0x02, 0x03, 0x05, 0x06, 0x07, 0x08, 0x09, 0x0A, 0x0D, 0x0E, 0x18, 0x19, 0x04, 0x0B, 0x0C, 0x0F, 0x12, 0x10, 0x11, 0x21].all fun o =>
      opOk 0 (sliceWord o 0) && opOk 1 (sliceWord o 0)) ∧
    ([0x28, 0x29, 0x2A, 0x2B, 0x2C, 0x2D].all fun o => opOk 1 (sliceWord o 0)) ∧
    ([0x30, 0x31, 0x32, 0x33, 0x34, 0x35, 0x38, 0x39].all fun o => opOk 2 (sliceWord o 0)) ∧
    ([0x44, 0x45, 0x46, 0x47, 0x48, 0x49, 0x4A, 0x4B].all fun o => opOk 3 (sliceWord o 0)) ∧
    ([0x1A, 0x1B, 0x1C, 0x20].all fun o => opOk 0 (sliceWord o 0xA00000) && opOk 1 (sliceWord o 0xAC0000)) ∧
    ([0x1D, 0x1E, 0x1F].all fun o => opOk 0 (sliceWord o 0x028001) && opOk 1 (sliceWord o 0x7EB000)) ∧
    opOk 2 (sliceWord 0x36 0x800000) ∧ opOk 3 (sliceWord 0x40 0x000003) ∧ opOk 3 (sliceWord 0x40 0xBF1FFF) ∧
    opOk 3 (sliceWord 0x41 0x000001) ∧ opOk 3 (sliceWord 0x41 0xFFFFFF) ∧ opOk 3 (sliceWord 0x42 0xC00FD0) ∧
    opOk 3 (sliceWord 0x43 1) ∧ opOk 3 (sliceWord 0x43 255) ∧ opOk 3 (sliceWord 0x50 0x800000) ∧
    opOk 3 (sliceWord 0x51 0x020000) ∧ opOk 3 (sliceWord 0x52 0x020001) ∧ opOk 0 (sliceWord 0x00 0) ∧ opOk 3 (sliceWord 0x00 0) := by
  decide +kernel
/-- GLD inside and outside its ranges, PRD with and without its port. -/
theorem witness_SliceMemory : gldOk 8 0x3007FFFC = true ∧ gldOk 8 0 = false ∧ portFor (issuing portUp 0) 0 255 = true ∧
    portFor (issuing portUp 0) 0 256 = false ∧ portFor up.core 8 0 = false := by decide +kernel
/-- PWB with its port open and no entry waiting for its strand; with a KR of 2^46; without a port. -/
theorem witness_writeBack :
    let a := (oA portUp.core 0 (sliceWord 0x51 0x020000)).toNat
    let s := pushMem 0 a 0x3000 portUp
    let t := pushMem 0 (a + 8) 0x40000000 s
    portFor (issuing s 0) 0 ((s.core.dmemWord 0 a).toNat % 2048) = true ∧ (s.core.dmemWord 0 a).getLsbD 13 = true ∧
    (s.core.dmemWord 0 (a + 8)).toNat / 2 ^ 16 * 2 ^ 32 + (s.core.dmemWord 0 (a + 12)).toNat < 2 ^ 46 ∧
    (∀ b ∈ s.core.hot.wbq, b.strand ≠ 0) ∧ (t.core.dmemWord 0 (a + 8)).toNat / 2 ^ 16 * 2 ^ 32 = 2 ^ 46 ∧
    portFor up.core 8 ((up.core.dmemWord 8 0).toNat % 2048) = false := by decide +kernel
/-- LOOPR with a source that is clamped and one that is not; QPUSH with room and without. -/
theorem witness_SliceControl :
    up.core.suppressed = false ∧ up.core.mir.badOut = [] ∧ up.core.mir.injOut ≠ some 8 ∧
    (mk fun c => { c with mir := { c.mir with injOut := some 8 } }).core.mir.injOut = some 8 ∧ up.core.lpe.evq.length < 1024 ∧ up.core.lpe.symq.length < 4096 ∧
    (mk fun c => { c with lpe := { c.lpe with evq := List.replicate 1024 (0, 0) } }).core.lpe.evq.length = 1024 ∧
    (mk fun c => { c with lpe := { c.lpe with symq := List.replicate 4096 (0, 0) } }).core.lpe.symq.length = 4096 ∧
    (up.core.sreg 8 0).toNat ≤ 2 ^ 0 ∧ 2 ^ 0 < ((mk fun c => c.landOne 8 (.reg 1 2)).core.sreg 8 1).toNat := by decide +kernel
theorem witness_SliceUndefinedOperationChangesNothing : (Instr.add 8 3 0 false).opWord = some (3, sliceWord 1 0) ∧
    opOk 3 (sliceWord 1 0) = false ∧ up.core.coreOn = true ∧ (put [(F.PWR_STAT.STATE, 5)] up).core.coreOn = false := by decide +kernel
/-- A result due at the fc that the bundle ends in, one due after it, and a product. -/
def inFlight (n : Nat) (e : SliceEff) : State := mk fun c => c.onSlice 8 fun x => { x with flight := [{ due := n, field := 1, eff := e }] }
theorem witness_SlicePipeline :
    let x := (inFlight 1 (.reg 39 7)).core.slice 8
    x.flight = [{ due := 1, field := 1, eff := .reg 39 7 }] ∧ x.ends = .plain ∧ x.branch = 0 ∧ x.sst / 16 % 16 = 0 ∧ x.sst < 1024 ∧
    1 ≤ x.now + x.width ∧ x.now + x.width < 2 ∧ ((inFlight 1 (.mac 3 (-1))).core.slice 8).flight.length = 1 := by decide +kernel
theorem witness_SliceBranchesAndLoops : AtRest (up.core.slice 8) ∧ up.core.plan.xdone = [] ∧ (up.core.slice 8).pc < 8190 := by
  unfold AtRest; decide +kernel
/-- A program with a doorbell vector, one interrupt allowed, SST.IE set and a doorbell pending. -/
def handlerImage : Image :=
  { product := 0, patchLvl := 0, secs := [(7, leBytes 2 1 ++ List.replicate 14 0 ++ leBytes 2 0 ++ leBytes 2 1 ++ leBytes 4 1 ++
      List.replicate 14 0 ++ leBytes 2 0 ++ leBytes 2 0xFFFF ++ List.replicate 38 0 ++ List.replicate 16 0)] }
def rung : State :=
  let c := ((up.core.setFld (F.LPE_DBELL.PEND 8) 1).setFld (F.LPE_SLSTAT.RUN 8) 1).setSst 8 1
  { up with core := { c with plan := { c.plan with img := handlerImage } } }
theorem witness_SliceInterrupts : ∃ p, rung.core.sliceProgram 8 = some p ∧ SliceRuns rung 8 ∧
    rung.core.fld (F.LPE_SLSTAT.RUN 8) = 1 ∧ (rung.core.slice 8).rerun = none ∧ (rung.core.slice 8).flight = [] ∧
    rung.core.fld (F.LPE_DBELL.PEND 8) = 1 ∧ up.core.fld (F.LPE_DBELL.PEND 8) = 0 ∧ p.vdbell ≠ 0xFFFF ∧
    bitOf (rung.core.slice 8).sst 0 = true ∧ bitOf (rung.core.slice 8).sst 9 = false ∧ (rung.core.slice 8).branch = 0 ∧
    (rung.core.slice 8).irqs < p.irqmax ∧ (rung.core.slice 8).sst < 1024 ∧ (rung.core.slice 8).pc < 2 ^ 32 :=
  ⟨programAt (handlerImage.sec .loupeProg) 16, by unfold SliceRuns; decide +kernel⟩

/-- Queues with an entry, and empty. -/
def queued : State := mk fun c => { c with
  lpe := { c.lpe with evq := [(1, 2)], symq := [(3, 4)] }
  fly := { c.fly with evq := [tag [1, 2, 3, 4]] }
  plan := { c.plan with doneFifo := [(15, 15, 255)], jobs := [job 3 (.done 15)] } }
/-- A capture of counter 7 at an fc. -/
def captured (at' : Nat) : State := mk fun c => c.onRc 7 fun x => { x with capAt := some (at', 9) }
theorem witness_ReadsWithSideEffects :
    ((captured 0).core.rc 7).capAt = some (655360 * up.clk.epoch + up.clk.fc, 9) ∧ (captured 1).clk.fc = 0 ∧ (up.core.rc 7).capAt = none ∧ queued.core.coreOn = true ∧ queued.core.lpe.evq = [(1, 2)] ∧ queued.core.lpe.symq = [(3, 4)] ∧
    queued.core.fly.evq = [tag [1, 2, 3, 4]] ∧ queued.core.plan.doneFifo = [(15, 15, 255)] ∧ up.core.coreOn = true ∧ up.core.lpe.evq = [] ∧
    up.core.lpe.symq = [] ∧ up.core.fly.evq = [] ∧ up.core.plan.doneFifo = [] := by decide +kernel
/-- LOAD while a check runs, while armed, with the inactive slot not VALID and VALID. -/
theorem witness_PlanLoadStartsACheck :
    let v := put [(F.NVM_IMG_SLOTA.STATE, 3), (F.NVM_IMG_SLOTB.STATE, 3)] up
    (put [(F.PLAN_STAT.STATE, 1)] up).core.fld F.PLAN_STAT.STATE = 1 ∧ (put [(F.PLAN_STAT.STATE, 4)] up).core.fld F.PLAN_STAT.STATE = 4 ∧
    up.core.fld F.PLAN_STAT.STATE = 0 ∧ up.core.fld (slotStateFld up.core.inactiveSlot) ≠ 3 ∧
    v.core.fld F.PLAN_STAT.STATE = 0 ∧ v.core.fld (slotStateFld v.core.inactiveSlot) = 3 := by decide +kernel
/-- A candidate that fails its check; one that passes, while its islands power up and after. -/
def checking (i : Image) (powering : List Nat) : State :=
  let s := put [(F.PLAN_STAT.STATE, 1)] up
  { s with core := { s.core with plan := { s.core.plan with cand := some (i, .slotB) }, pwr := { s.core.pwr with powering := powering } } }
theorem witness_PlanCheckEndsWithItsVerdict : (checking Image.blank [0]).core.fld F.PLAN_STAT.STATE = 1 ∧
    (checking Image.blank [0]).core.pwr.powering = [0] ∧ (checking twoSlots []).core.fld F.PLAN_STAT.STATE = 1 ∧
    (checking twoSlots []).core.pwr.powering = [] ∧ (planCheck Image.blank).code = 1 ∧ (planCheck twoSlots).code = 0 := by decide +kernel
def armed (e : Nat) : State :=
  let s := put [(F.PLAN_STAT.STATE, 4)] (upAt 7 655296)
  { s with core := { s.core with plan := { s.core.plan with switchAt := some e } } }
/-- ARM in no READY state; in READY for an epoch reached and for one to come; DISARM 64 fc before the boundary and later. -/
theorem witness_PlanArmAndDisarm :
    let r := fun e => put [(F.PLAN_STAT.STATE, 2), (F.PLAN_SWEPOCH_LO.SWEPOCH_LO, e)] (upAt 7 655296)
    up.core.fld F.PLAN_STAT.STATE ≠ 2 ∧ (r 7).core.fld F.PLAN_STAT.STATE = 2 ∧ armTarget (r 7) ≤ 7 ∧ 7 < armTarget (r 8) ∧
    armTarget (r 0) = 8 ∧ (armed 8).core.fld F.PLAN_STAT.STATE = 4 ∧ (armed 8).core.plan.switchAt = some 8 ∧
    655360 * 7 + 655296 + 64 ≤ 655360 * 8 ∧ (655360 * 7 : Nat) < 655360 * 7 + 655296 + 64 ∧ up.core.plan.switchAt = none := by decide +kernel
/-- Groups 0 and 14 asked for, one of them pending; a write to each of the five windows at its first and last word, sealed and not. -/
theorem witness_StagingAndCommits :
    let s := put [(F.PLAN_CMTSTAT.PEND, 1), (F.PLAN_CMTSTAT.SEAL, 31), (F.FAB_SKSTAT.PWR, 255)] (upAt 3 655297)
    s.core.coreOn = true ∧ bitOf (s.core.fld F.PLAN_CMTSTAT.PEND) 0 = true ∧ bitOf (s.core.fld F.PLAN_CMTSTAT.SEAL) 14 = false ∧
    ([(0, 0x30000000), (0, 0x3001FFFC), (1, 0x32120000), (1, 0x321207FC), (2, 0x31000000), (2, 0x3100FFFC), (3, 0x31020000), (3, 0x310207FC),
      (4, 0x31030000), (4, 0x310301FC)].all fun p => bitOf (s.core.fld F.PLAN_CMTSTAT.SEAL) p.1 && !bitOf (up.core.fld F.PLAN_CMTSTAT.SEAL) p.1 &&
        decide (s.core.deadIsland p.2 = none ∧ (portUp.core.deadIsland p.2 = none ∨ p.2 = 0x3001FFFC) ∧ p.2 % 4 = 0)) = true := by decide +kernel
/-- A cursor that waits at fc 8 for the sample of index 0, or `n`: nothing was written, written to no ring, or in the snapshot. -/
def waits (n : Nat) (snap wrote : Bool) : State :=
  let j := { job 1 .running with cursor := some { stream := 0, next := n, offset := none, snap := snap, waiting := true, lost := false, ovtk := false } }
  let s := { withJob j with clk := { epoch := 0, fc := 8 } }
  if wrote then { s with core := s.core.onStream 0 fun x => { x with wrote := [{ epoch := 0, pos := 0, kept := true, zf := [], tsg := false }] } } else s
def cursorIn (s : State) : Option Cursor := (s.core.job 5).bind (·.cursor)
def findsOf (s : State) : Option CursorAns := (cursorIn s).map fun u => s.core.cursorRule s.clk { u with waiting := false }
/-- A Prism job that runs, with no step under way, and with one that ends at fc `ends`. -/
def stepping (ends : Option Nat) : State :=
  let s := withJob (job 0 .running)
  { s with core := s.core.onPrm fun p => { p with busy := ends.map fun e => ⟨5, e⟩ } }
/-- Jobs of every phase, the transfer whose turn it is, and every answer of the cursor rule. -/
theorem witness_JobsAndTransfers :
    up.core.job 5 = none ∧ (withJob (job 1 .queued)).core.job 5 = some (job 1 .queued) ∧
    (stepping none).core.job 5 = some (job 0 .running) ∧ (stepping none).core.prm.busy = none ∧
    (stepping (some 0)).core.prm.busy = some ⟨5, 0⟩ ∧ (stepping (some 1)).core.prm.busy = some ⟨5, 1⟩ ∧ (stepping none).clk.fc = 0 ∧
    (withJob (job 2 .running)).core.job 5 = some (job 2 .running) ∧ (withJob (job 2 .cancelling)).core.job 5 = some (job 2 .cancelling) ∧
    (job 2 .running).live = true ∧ (job 2 .cancelling).live = true ∧ (job 1 .running).total ≤ (job 1 .running).moved ∧
    ((((withJob (job 3 .running)).core.plan.jobs.filter fun j => decide (1 ≤ j.cls) && j.live).head?.map (·.tag)) = some 5) ∧
    findsOf (waits 0 false false) = some .overtaken ∧ findsOf (waits 0 false true) = some .lost ∧ findsOf (waits 0 true false) = some .deliver ∧
    findsOf (waits 1 false false) = some .wait ∧ (cursorIn (waits 0 false false)).map (·.waiting) = some true := by decide +kernel
/-- A transfer in its turn with one sample to send, its link open with room for its frame of 21 bytes, with a byte too little, and closed. -/
def sends (opened : Bool) (room : Nat) : State :=
  let s := put [(F.BOB_STRSTAT.RINGACT 0, 1)] (waits 0 false true)
  let c := s.core.onLink 0 fun k => { k with opened := opened, outq := List.replicate (16384 - room) 0 }
  { s with core := { c with plan := { c.plan with jobs := c.plan.jobs.map fun j => { j with moved := 0 } } } }
theorem witness_TransferFrames :
    ((cursorIn (sends true 21)).map fun u => (sends true 21).core.deliverable (sends true 21).clk u (min 4088 (8 - max 0 0))) = some 1 ∧
    ((sends true 21).core.job 5).map (fun j => (j.moved, j.total, (wordOf j.desc 0).toNat, (wordOf j.desc 2).toNat)) = some (0, 8, 0, 0) ∧
    ((sends true 21).core.link 0).opened = true ∧ 12 + 8 + 1 ≤ 16384 - ((sends true 21).core.link 0).outq.length ∧
    16384 - ((sends true 20).core.link 0).outq.length < 12 + 8 + 1 ∧ ((sends false 21).core.link 0).opened = false := by decide +kernel
/-- Epochs run, at the ends of both halves; a slot at its START and after it; an owner that runs at its last fc. -/
def running (fc : Nat) (opened : Bool) : State :=
  let s := upAt 0 fc
  { s with core := { s.core with plan := { s.core.plan with img := twoSlots, opened := if opened then [{ slot := 1, epoch := 0 }] else [] } } }
theorem witness_EpochsAndSlots :
    Runs (running 0 false) ∧ Runs (running 327679 false) ∧ Runs (running 327680 false) ∧ Runs (running 655359 false) ∧ ¬ Runs State.reset ∧
    (running 0 false).core.slots[2]? = none ∧ (running 2048 false).core.slots.length = 2 ∧
    MayStart (running 2048 false) 0 (slotAt (twoSlots.sec .plan) 0) ∧ ¬ MayStart (running 2049 false) 0 (slotAt (twoSlots.sec .plan) 0) ∧
    (slotAt (twoSlots.sec .plan) 0).kind = 6 ∧ { slot := 1, epoch := 0 } ∈ (running 410943 true).core.plan.opened ∧
    (slotAt (twoSlots.sec .plan) 1).last = 410943 ∧ 410943 ≤ lastOfHalf (running 410943 true) := by
  unfold Runs MayStart; decide +kernel
/-- Groups 12 and 14 accepted, and refused for a reserved bit and for a range. -/
theorem witness_CommittedGroupsTakeEffect :
    ¬ Group12Rsv up.core ∧ ¬ Group12Range up.core ∧ Group12Rsv (put [(⟨R.FLY_CFG, 31, 31⟩, 1)] up).core ∧
    Group12Range (put [(F.FLY_CFG.RETN, 0)] up).core ∧ Group12Range (mk fun c => c.setReg R.FLY_SLEW 100001).core ∧
    ¬ Group12Range (mk fun c => c.setReg R.FLY_SLEW 100000).core ∧ up.core.fld F.SET_CFG.LOSSLIM ≠ 0 ∧ up.core.fld F.SET_TRDLY.TRDLY ≤ 20000 ∧
    20000 < (put [(F.SET_TRDLY.TRDLY, 20001)] up).core.fld F.SET_TRDLY.TRDLY ∧
    (∀ g ∈ up.core.plan.applied, g < 15) ∧ (∀ g ∈ [0, 14], g < 15) ∧
    (mk fun c => c.markApplied 1 [0, 14] [14]).core.plan.applied = [0, 14] ∧
    (mk fun c => (c.markApplied 1 [0] []).markApplied 2 [14] [14]).core.plan.applied = [0, 14] := by
  unfold Group12Rsv Group12Range; decide +kernel

/-- Fields as they are in force. -/
def force (ps : List (Fld × Nat)) (s : State) : State :=
  { s with core := { s.core with force := ps.foldl (fun m p => m.setFld p.1 p.2) s.core.force } }

theorem witness_ImagesAndTheBootRecord :
    up.core.fld F.NVM_IMG_STAT.BUSY = 0 ∧ (put [(F.NVM_IMG_STAT.BUSY, 1)] up).core.fld F.NVM_IMG_STAT.BUSY ≠ 0 ∧
    up.core.fld (slotStateFld 0) ≠ 2 ∧ up.core.fld (slotStateFld 1) ≠ 2 ∧ (put [(slotStateFld 0, 2)] up).core.fld (slotStateFld 0) = 2 ∧
    (put [(slotStateFld 1, 2)] up).core.fld (slotStateFld 1) = 2 ∧ (put [(slotStateFld 1, 2)] up).core.fld (slotStateFld 0) ≠ 2 ∧
    (put [(slotStateFld up.core.inactiveSlot, 3)] up).core.fld (slotStateFld up.core.inactiveSlot) = 3 := by decide +kernel
/-- Focus has a solution. -/
def solved : State := mk fun c => { c with hot := { c.hot with foc := { c.hot.foc with state := 3 } } }
theorem witness_NothingToFollow : NothingToFollow up.core ∧ NothingToFollow solved.core := by unfold NothingToFollow; decide +kernel
/-- A load at 16 times the limit, one above it, at half of it; 98 and 99 low frames; level 3. -/
theorem witness_DistaffsFrame :
    let lim := up.core.settingNat 18
    0 < lim ∧ up.core.hot.foc.state ≠ 3 ∧ up.core.hot.foc.state ≠ 4 ∧ solved.core.hot.foc.state = 3 ∧ solved.core.rxValid = false ∧
    bitOf (solved.core.fld F.PLAN_CMTSTAT.SEAL) 9 = false ∧ bitOf (solved.core.fld F.PLAN_CMTSTAT.PEND) 9 = false ∧
    up.core.fld F.SYS_DSTLOAD.LEVEL < 3 ∧ 16 * lim < 16 * lim + 1 ∧ 2 * (8 * lim) ≤ 16 * lim ∧ 16 * lim < 2 * (8 * lim + 1) ∧
    8 * lim + 1 ≤ 16 * lim ∧ (put [(F.SYS_DSTLOAD.LEVEL, 3)] up).core.fld F.SYS_DSTLOAD.LEVEL = 3 ∧ up.core.dst.low < 99 ∧
    (mk fun c => { c with dst := { c.dst with low := 99 } }).core.dst.low = 99 ∧ up.core.dst.locked = false ∧
    (mk fun c => { c with dst := { c.dst with locked := true } }).core.dst.locked = true := by decide +kernel
/-- A record in front of an empty journal; statistics and a week with Spool read-only. -/
def recording (ro : Nat) : State :=
  let s := put [(F.NVM_STAT.RDONLY, ro)] up
  { s with core := { s.core with nvm := { s.core.nvm with queue := [bootRec 0 1], tail := 32 } } }
/-- The half is dirty; a full week is known. -/
def fouled (week : Option Nat) : State := mk fun c => { c with nvm := { c.nvm with dirty := true }, dst := { c.dst with week := week } }
/-- The full week that a decoded one of a system stands for, at the rollover anchor `wr`. -/
def weekFor (wr w b : Nat) : Nat := wr + (w % 2 ^ b + 2 ^ b - wr % 2 ^ b) % 2 ^ b
theorem witness_SpoolRecords :
    (recording 0).core.mir.reports[(recording 0).core.dst.filed]? = none ∧ (recording 0).core.nvm.queue.head? = some (bootRec 0 1) ∧
    (recording 0).core.fld F.SYS_DSTLOAD.LEVEL < 3 ∧ (recording 0).core.fld F.NVM_STAT.RDONLY = 0 ∧
    (recording 0).core.nvm.tail + recSize (bootRec 0 1).payload.length ≤ 0x40000 ∧ (recording 1).core.fld F.NVM_STAT.RDONLY = 1 ∧
    (recording 0).core.nvm.dirty = false ∧ (fouled none).core.nvm.dirty = true ∧ (fouled none).core.fld F.NVM_STAT.RDONLY = 0 ∧
    (fouled none).core.dst.week = none ∧ (fouled (some 2400)).core.dst.week = some 2400 ∧ up.core.nvm.queue = [] ∧
    (put [(F.NVM_STAT.RDONLY, 1)] up).core.fld F.NVM_STAT.RDONLY = 1 ∧ (put [(F.NVM_STAT.RDONLY, 1)] up).core.nvm.queue = [] ∧
    (let wr := up.core.dst.wroll; [10, 13, 12].all fun b => decide (wr + 52 ≤ weekFor wr (wr + 52) b) && decide (weekFor wr (wr + 51) b < wr + 52)) ∧
    (let wr := up.core.dst.wroll; wr + 52 ≤ weekFor wr (wr + 52 - 1356 + 1356) 13) := by decide +kernel
def flash (l : List (Nat × Nat × Nat)) : State := mk fun c => { c with nvm := { c.nvm with ops := l } }
def journal (dirty mounted tail : Nat) (moving : Option Nat) : State :=
  let s := put [(F.NVM_SPOOL.MOUNTED, mounted)] up
  { s with core := { s.core with nvm := { s.core.nvm with dirty := decide (dirty = 1), tail := tail, compactTo := moving } } }
/-- The cache was written at an fc. -/
def cached (at' : Nat) : State :=
  { mk (fun c => { c with nvm := { c.nvm with cacheAt := some at' } }) with clk := { epoch := 0, fc := 1 } }
theorem witness_FlashCompactionAndCaches :
    (cached 1).core.nvm.cacheAt = some 1 ∧ 0 < (cached 1).core.settingNat 19 ∧ up.core.nvm.cacheAt = none ∧    (flash [(1, 3, 2)]).core.nvm.ops = [(1, 3, 2)] ∧ (flash [(2, 31, 1), (1, 0, 1)]).core.nvm.ops = (2, 31, 1) :: [(1, 0, 1)] ∧
    up.core.nvm.ops.head?.map (·.1) ≠ some 1 ∧ (flash [(1, 3, 2)]).core.nvm.ops.head?.map (·.1) ≠ some 2 ∧
    ((journal 0 1 229377 none).core.fld F.NVM_SPOOL.MOUNTED ≠ 0 ∧ (journal 0 1 229377 none).core.nvm.compactTo = none ∧
      0x40000 - (journal 0 1 229377 none).core.nvm.tail < 32768) ∧ ¬ 0x40000 - (journal 0 1 229376 none).core.nvm.tail < 32768 ∧
    (journal 1 1 32 none).core.nvm.dirty = true ∧ (journal 0 1 32 none).core.nvm.dirty = false ∧ (journal 0 0 32 none).core.fld F.NVM_SPOOL.MOUNTED = 0 ∧
    (journal 0 1 32 (some 1)).core.nvm.compactTo = some 1 ∧ (put [(F.SYS_DSTLOAD.LEVEL, 3)] up).core.fld F.SYS_DSTLOAD.LEVEL = 3 ∧
    up.core.fld F.SYS_DSTLOAD.LEVEL ≠ 3 := by decide +kernel
/-- A stream enabled, training, LOCKED, with its strobe lost; eyes of 64 transitions and 16 taps and one less. -/
def stream (state snap : Nat) (lost : Bool) (mask : Nat) : State :=
  let s := force [(F.BOB_STRCFG.EN 7, 1)] (put [(F.BOB_LVDS_STAT.STATE 7, state), (F.BOB_SNAP_STAT.STATE, snap)] up)
  { s with core := (s.core.onStream 7 fun x => { x with strobeLost := lost }).onBob fun b => { b with snapMask := mask } }
def pair (t w : Nat) : PairSweep := { transitions := t, first := 10, width := w }
theorem witness_StreamTrainingAndStrobes :
    (stream 1 0 false 0).core.fld (F.BOB_LVDS_STAT.STATE 7) = 1 ∧ (stream 2 2 false 128).core.fld (F.BOB_LVDS_STAT.STATE 7) = 2 ∧
    up.core.fld (F.BOB_LVDS_STAT.STATE 7) ≠ 1 ∧ (stream 1 0 false 0).core.streamEn 7 = true ∧ up.core.streamEn 7 = false ∧
    ([pair 64 16, pair 63 0])[1]? = some (pair 63 0) ∧ ([pair 64 15])[0]? = some (pair 64 15) ∧
    (∀ p ∈ List.replicate 4 (pair 64 16), 64 ≤ p.transitions ∧ 16 ≤ p.width) ∧ ((stream 2 0 false 0).core.stream 7).strobeLost = false ∧
    ((stream 2 0 true 0).core.stream 7).strobeLost = true ∧ (stream 2 2 false 128).core.fld F.BOB_SNAP_STAT.STATE = 2 ∧
    bitOf (stream 2 2 false 128).core.bob.snapMask 7 = true := by decide +kernel
/-- A snapshot to arm: 76 ring units of one stream, 77, with the stream off, for an epoch that is past. -/
def snap (state mask nep start : Nat) : State :=
  force [(F.BOB_STRCFG.EN 0, 1)] (put [(F.BOB_SNAP_STAT.STATE, state), (F.BOB_SNAP_CFG.MASK, mask), (F.BOB_SNAP_CFG.NEP, nep),
    (F.BOB_SNAP_START_LO.START, start)] (upAt 7 655296))
def held (state start nep : Nat) (feoff rxOff : Bool) : State :=
  let s := snap state 1 1 0
  { s with core := s.core.onBob fun b => { b with snapStart := start, snapNep := nep, snapFeoff := feoff, rxOff := rxOff, feAt := if rxOff then some start else none } }
theorem witness_Snapshots :
    (snap 1 1 1 0).core.fld F.BOB_SNAP_STAT.STATE ≠ 0 ∧ (snap 0 1 76 8).core.fld F.BOB_SNAP_STAT.STATE = 0 ∧
    (snap 0 1 76 8).core.fld F.BOB_SNAP_CFG.NEP = 76 ∧ (snap 0 1 77 8).core.fld F.BOB_SNAP_CFG.NEP = 77 ∧
    (snap 0 1 76 7).core.fld F.BOB_SNAP_START_LO.START ≤ 7 ∧ (snap 0 1 76 8).core.streamEn 0 = true ∧ (snap 0 2 1 8).core.streamEn 1 = false ∧
    (held 1 8 1 false false).core.fld F.BOB_SNAP_STAT.STATE = 1 ∧ 7 + 1 ≤ (held 1 8 1 false false).core.bob.snapStart ∧
    (held 1 7 1 false false).core.bob.snapStart < 7 + 1 ∧
    (held 2 6 1 false false).core.fld F.BOB_SNAP_STAT.STATE = 2 ∧ (held 2 6 1 true false).core.bob.snapStart + 1 ≤ 7 ∧
    (held 2 6 1 true false).core.bob.snapFeoff = true ∧ (held 2 6 1 true false).core.fld F.PWR_STAT.STATE < 3 ∧
    (held 3 6 1 true true).core.fld F.BOB_SNAP_STAT.STATE = 3 ∧ (held 3 6 1 true true).core.fld F.BOB_SNAP_STAT.JOBS = 0 ∧
    (held 4 6 1 true true).core.fld F.BOB_SNAP_STAT.STATE = 4 ∧ (held 4 7 1 true true).core.bob.feAt = some 7 ∧
    (held 4 7 1 true true).clk.epoch = 7 ∧ (held 4 8 1 true true).core.bob.feAt = some 8 ∧ (held 4 6 1 true false).core.bob.feAt = none ∧
    (held 4 7 1 true true).core.streamEn 0 = true ∧ (held 4 7 1 true true).core.tsgOn 0 = false ∧ up.core.streamEn 0 = false := by
  decide +kernel
/-- Hank RAM with a VALID code of 1,023 chips at its start: byte 127 lies in it, byte 128 does not. -/
def coded : State := mk fun c => { c with mem := (c.mem.putWord 0x32120000 0).putWord 0x32120004 (BitVec.ofNat 32 (2 ^ 31 + 1023)) }
theorem witness_hankRam : HankInUse coded.core 127 ∧ ∀ j, j < 256 → ¬ (bits (up.core.mem.word (0x32120000 + 8 * j + 4)) 31 31 = 1) ∧
    ¬ (bits (up.core.force.reg (0x32120000 + 8 * j + 4)) 31 31 = 1) :=
  ⟨⟨0, by decide, (coded.core.mem.word 0x32120000, coded.core.mem.word 0x32120004), by simp, by decide +kernel⟩, by decide +kernel⟩
def aided (last : Nat) (lost : Bool) : State :=
  let s := force [(F.FOC_CFG.AIDEN, 1)] { up with clk := { epoch := 50, fc := 7 } }
  { s with core := { s.core with hot := { s.core.hot with foc := { s.core.hot.foc with aidAt := some last, aidLost := lost } } } }
/-- A Galileo satellite that failed authentication, with authentication in force and its policy set. -/
def barred : State :=
  let c := (((up.core.setKey up.clk 271 (leBytes 4 1)).1.setKey up.clk 272 (leBytes 4 1)).1.onDst fun d => { d with osnFail := [7], sigs := [(0, 0x2F, 7)] })
  { up with core := c }
theorem witness_LoopCommandsAndEntries :
    barred.core.settingNat 15 = 1 ∧ barred.core.settingNat 16 = 1 ∧ (barred.core.sigOf 0).1 / 16 = 2 ∧
    (barred.core.sigOf 0).2 ∈ barred.core.dst.osnFail ∧ up.core.settingNat 15 = 0 ∧
    (List.replicate 15 (0 : Word)).length = 15 ∧ up.core.foc.fifo.length < 64 ∧
    (mk fun c => { c with foc := { c.foc with fifo := List.replicate 64 [] } }).core.foc.fifo.length = 64 ∧
    (aided 7 false).core.inForce F.FOC_CFG.AIDEN ≠ 0 ∧ (aided 7 false).core.hot.foc.aidLost = false ∧
    (aided 7 false).core.hot.foc.aidAt = some 7 ∧ (7 : Nat) + 50 * 655360 ≤ 655360 * 50 + 7 ∧ up.core.inForce F.FOC_CFG.AIDEN = 0 := by
  decide +kernel
/-- A search of one block of GPS L1 C/A in the snapshot. -/
def searchDesc : List Word :=
  [BitVec.ofNat 32 (2 ^ 23 + 10 * 2 ^ 12 + 2 ^ 5), BitVec.ofNat 32 (2 ^ 8 + 1), 1, 0, 0, 0, 0, BitVec.ofNat 32 1023000, 33#32] ++ List.replicate 7 0
def submitting (max : Nat) (js : List Job) : State :=
  let s := put [(F.PLAN_JQ_PRMMAX.PRMMAX, max)] up
  let c := forBelow 16 (fun (c : Core) k => c.setReg (R.PRM_JD k) (searchDesc.getD k 0)) s.core
  { s with core := { c with plan := { c.plan with jobs := js } } }
def held256 : List Job := (List.range 256).map fun t => { job 1 .queued with tag := t }
theorem witness_PrismSubmission :
    let ws := (List.range 16).map fun k => (submitting 256 []).core.reg (R.PRM_JD k)
    (submitting 256 []).core.prmRefusal ws = 0 ∧ up.core.prmRefusal (List.replicate 16 0) ≠ 0 ∧
    ¬ min 256 ((submitting 256 []).core.fld F.PLAN_JQ_PRMMAX.PRMMAX) ≤ ((submitting 256 []).core.plan.jobs.filter fun j => j.cls == 0).length ∧
    (submitting 1 [job 0 .queued]).core.fld F.PLAN_JQ_PRMMAX.PRMMAX = 1 ∧
    (held256.map (·.tag) = List.range 256) ∧ (submitting 256 []).core.plan.jobs = [] := by decide +kernel
/-- A Prism slot of fc 0 to `last`, a job whose first step is ready, and one under way. -/
def searching (last next : Nat) (phase : JobPhase) (busy : Option PrismBusy) (have_ : Bool) : State :=
  let r : PrismRun := ⟨1, false, next, [], [], [], [accZero], [], 0, false, false⟩
  let u : Cursor := { stream := 0, next := 0, offset := none, snap := true, waiting := false, lost := false, ovtk := false }
  let j : Job := { job 0 phase with desc := searchDesc, prism := some r, cursor := some u }
  mk fun c => ({ c with plan := { c.plan with jobs := if have_ then [j] else [] }, prm := { c.prm with slot := some last, busy := busy } } : Core)
theorem witness_PrismSteps :
    let t : Clock := { epoch := 0, fc := 4 }
    let s := searching 245759 0 .queued none true
    let c := (s.goTo 4).core
    (s.core.epochsRun = true ∧ s.clk.fc ≤ 4 ∧ 4 ≤ s.clk.halfLast ∧ c.coreOn = true) ∧ c.prm.slot = some 245759 ∧ c.prm.busy = none ∧
    ((c.nextPrism t).map fun j => (PrmDesc.of j.desc).step 0) = some (.code 0) ∧
    4 + c.stepDur (PrmDesc.of searchDesc) (.code 0) ≤ 245760 ∧ 8 < 4 + c.stepDur (PrmDesc.of searchDesc) (.code 0) ∧
    ((searching 7 0 .queued none false).goTo 4).core.nextPrism t = none ∧ (job 0 .running).live = true ∧
    min 400000 s.clk.halfLast = 327679 ∧ (PrmDesc.of searchDesc).steps = 3 ∧ (job 0 .cancelling).live = true ∧
    (∀ k, k < 64 → (PrmDesc.of searchDesc).step 0 ≠ .load k) := by decide +kernel
/-- A step that ends at fc 4: the last of its job, an earlier one, and one of a cancelled job. -/
theorem witness_PrismStepsEnd :
    ([(2, JobPhase.running), (0, .running), (0, .cancelling)].all fun x =>
      let s := searching 245759 x.1 x.2 (some ⟨5, 4⟩) true
      let c := (s.goTo 4).core
      decide (s.core.prm.busy = some ⟨5, 4⟩) && s.core.epochsRun && decide (4 ≤ s.clk.halfLast) && c.coreOn && decide (c.prm.busy = some ⟨5, 4⟩) &&
        match c.job 5 with
        | some j => j.live && decide (j.cls = 0 ∧ j.phase = x.2 ∧ (j.prism.map (·.next)) = some x.1 ∧ (PrmDesc.of j.desc).steps = 3)
        | none => false) = true := by decide +kernel
theorem witness_VerificationAndHandoff : (2 : Fin 4).val ≥ 2 ∧ (1 : Fin 4).val < 2 ∧ (2 : Nat) < 1024 ∧
    ∀ g ∈ [0, 2], bitOf (up.core.fld F.PLAN_CMTSTAT.SEAL) g = false ∧ bitOf (up.core.fld F.PLAN_CMTSTAT.PEND) g = false := by decide +kernel
theorem witness_TablesThatDistaffWrites :
    (#v[none, some (3, -1), some (4, 0)] : Vector (Option (Int × Int)) 3).toList.findSome? id = some (3, -1) ∧
    (3 * (1000000000 * 65536) + -1 : Int) < 2 ^ 62 ∧ (-(2 ^ 62) : Int) ≤ 3 * (1000000000 * 65536) + -1 ∧ leAt (up.core.setting 9) 0 4 = 0 ∧ (-(2 ^ 62) : Int) ≤ -(2 ^ 62) ∧ (2 ^ 62 - 1 : Int) < 2 ^ 62 := by
  decide +kernel
def fly (state : Nat) (acc : Option Nat) (epoch unc : Nat) : State :=
  let s := { put [(F.FLY_STAT.STATE, state)] up with clk := { epoch := epoch, fc := 0 } }
  force [(F.FLY_CFG.HOLDDLY, 3), (F.FLY_HOLDLIM.HOLDLIM, 10), (F.FLY_UNCLIM.UNCLIM, 1000)]
    { s with core := s.core.onFly fun f => { f with lastAcc := acc, model := { f.model with cov := ((unc ^ 2 : Nat) : Rat) :: List.replicate 15 0 } } }
theorem witness_FlywheelStateEntries :
    (fly 1 (some 0) 3000 0).core.fld F.FLY_STAT.STATE = 1 ∧ (fly 1 (some 0) 3000 0).core.inForce F.FLY_CFG.HOLDDLY * 1000 = 3000 ∧
    (fly 2 (some 0) 10000 0).core.fld F.FLY_STAT.STATE = 2 ∧ (fly 2 (some 0) 10000 0).core.inForce F.FLY_HOLDLIM.HOLDLIM = 10 ∧
    (fly 2 (some 0) 0 1001).core.inForce F.FLY_UNCLIM.UNCLIM = 1000 ∧ (1000 ^ 2 : Rat) < (fly 2 (some 0) 0 1001).core.uncSq 0 ∧
    ¬ (1000 ^ 2 : Rat) < (fly 2 (some 0) 0 1000).core.uncSq 0 ∧
    (fly 0 none 0 0).core.fld F.FLY_STAT.STATE = 0 := by decide +kernel
/-- An output that runs, its next edge due at fc 100 in a state in which pulses are not suppressed, and its inactive edge at fc 200. -/
def pulsing (state : Nat) (step : Bool) : State :=
  let s := fly state none 0 0
  let e : Rat := (100 : Rat) * 15625 / 10240
  let x : TpSt := { TpSt.reset with act := { TpSt.reset.act with mode := 1 }, on := true, tgt := e, offAt := some (2 * e), first := step }
  let c := s.core.onFly fun f => { f with tps := putAt f.tps 3 x }
  { s with core := { c with fly := { c.fly with model := { c.fly.model with x := c.rxNs } } } }
theorem witness_PulsesAndEvents :
    (pulsing 1 true).core.tpRuns 3 = true ∧ (pulsing 1 true).clk.place ((pulsing 1 true).core.edgeAt 3) = some 100 ∧
    (pulsing 1 true).core.epochsRun = true ∧ ((pulsing 1 true).goTo 100).core.coreOn = true ∧ ((pulsing 1 true).goTo 200).core.coreOn = true ∧ 100 ≤ (pulsing 1 true).clk.halfLast ∧
    ((pulsing 1 true).core.tp 3).offAt.bind (pulsing 1 true).clk.place = some 200 ∧ ((pulsing 1 true).core.tp 3).stepNext = true ∧
    (pulsing 1 false).core.tpSuppressed = false ∧ (pulsing 1 false).core.tpRuns 3 = true ∧ (pulsing 3 false).core.fld F.FLY_STAT.STATE = 3 := by
  decide +kernel
def edges (sel : Nat) (last : Option Nat) (n : Nat) : State := mk fun c =>
  (c.setReg R.FLY_EVCFG (BitVec.ofNat 32 (sel * 2 ^ 14))).onFly fun f => { f with evLast := putAt f.evLast 7 last, evq := List.replicate n (tag []) }
theorem witness_EventsAreTagged :
    (edges 1 none 255).core.fly.evWas = none ∧ (let s := mk fun c => c.onFly fun f => { f with evWas := some (0, 0x4000) }
      s.core.fly.evWas = some (s.clk.sidx, 0x4000) ∧ bits (0x4000 : Word) 15 14 = 1) ∧
    (let s := mk fun c => c.onFly fun f => { f with evWas := some (1, 0) }; s.clk.sidx = 0) ∧
    bits ((edges 1 none 255).core.reg R.FLY_EVCFG) 15 14 = 1 ∧ bits ((edges 2 none 256).core.reg R.FLY_EVCFG) 15 14 = 2 ∧
    bits ((edges 0 none 0).core.reg R.FLY_EVCFG) 15 14 = 0 ∧ (edges 1 (some 0) 0).core.fly.evLast[7] = some 0 ∧
    (edges 1 none 255).core.fly.evq.length < 256 ∧ 256 ≤ (edges 2 none 256).core.fly.evq.length := by decide +kernel
/-- A counter that runs from 90, armed at 100 with OE, and one that stands. -/
def counting (run : Bool) (cmp : Nat) : State :=
  let s := put [(F.REEL_CFG.ARM 7, 1), (F.REEL_CFG.OE 7, 1), (F.REEL_CFG.CAPSRC 7, 7), (F.REEL_CFG.CAPEDGE 7, 2)] up
  { s with core := s.core.onRc 7 fun x => { x with run := run, base := 90, cmp := cmp } }
theorem witness_ReelCounters :
    ((counting true 100).core.rc 7).run = true ∧ ((counting false 100).core.rc 7).run = false ∧ (counting true 100).core.nextMatch 7 0 = some 10 ∧
    ((counting true 100).goTo 80).core.coreOn = true ∧ (counting true 100).core.reel.seen = 0 ∧ (counting true 100).core.epochsRun = true ∧ 8 * 10 ≤ (counting true 100).clk.halfLast ∧
    (counting true 90).core.fld (F.REEL_CFG.ARM 7) ≠ 0 ∧ 90 ≤ ((counting true 90).core.rc 7).count 0 ∧
    (counting true 100).core.fld (F.REEL_CFG.OE 7) ≠ 0 ∧ up.core.fld (F.REEL_CFG.OE 7) = 0 := by decide +kernel
theorem witness_CapturesSetTheirFlags : (captured 0).clk.fc = 0 ∧ ((captured 1).core.rc 7).capAt = some (1, 9) ∧ (up.core.rc 7).capAt = none ∧ up.core.coreOn = true ∧ (counting true 0).core.fld (F.REEL_CFG.CAPSRC 7) = 7 ∧
    2 ≤ (counting true 0).core.fld (F.REEL_CFG.CAPEDGE 7) ∧ up.core.fld (F.REEL_CFG.CAPEDGE 7) = 0 := by decide +kernel
/-- A replay at an fc after C_b, with what it has still to do. -/
def replaying (fc : Nat) (ms : List MergeItem) (rs : List Occurrence) (run : Bool) : State :=
  let s := mk fun c => { c with replay := some { cb := 0, corr := decide (ms ≠ []), merges := ms, base := c.hot, img := c.plan.img, force := c.force, foc := c.foc, bells := [], reruns := rs, running := run } }
  { s with clk := { epoch := fc / 655360, fc := fc % 655360 } }
def mergeItem : MergeItem := { strand := 0, acc := [], nocode := false, wipex := false, zf := false, mism := false, tsg := false, seen := 0 }
def rerun (supp : Bool) : Occurrence := { slot := 0, epoch := 0, entry := slotAt (twoSlots.sec .plan) 1, supp := supp }
/-- The resource of the occurrence has a slot planned at fc 409,600 to 410,943, and none before. -/
theorem witness_RerunWaits :
    let s := fun fc => let r := replaying fc [mergeItem] [rerun true] true
      { r with core := { r.core with plan := { r.core.plan with img := twoSlots } } }
    RerunWaits (s 409600) (rerun true) ∧ RerunWaits (s 410943) (rerun false) ∧ ¬ RerunWaits (s 409599) (rerun true) ∧
    ¬ RerunWaits (s 410944) (rerun true) ∧ (rerun true).entry.kind = kRecord ∧
    (replaying 1310721 [] [] true).core.replay.map (·.cb) = some 0 ∧ (replaying 1310721 [] [] true).clk = { epoch := 2, fc := 1 } := by
  unfold RerunWaits; decide +kernel
theorem witness_ReplayGoesOn : up.core.replay = none ∧ ([172032, 172033, 511, 512, 1310719, 1310720].all fun fc =>
    let s := replaying fc [mergeItem] [rerun false, rerun true] true
    decide (655360 * s.clk.epoch + s.clk.fc = fc) && decide (s.core.replay.map (·.cb) = some 0)) = true ∧
    ((replaying 0 [] [rerun true] false).core.replay.map (·.running)) = some false := by decide +kernel
/-- R315, R330: a disagreement of the replay correlators of skein 3 is fault source 10 and abandons the replay with REFAULT (4). -/
theorem test_refault :
    (match exec (.replayCorrelationComplete (some 3) 0) (replaying 4096 [mergeItem] [rerun true] false) with
      | .next t => decide (bits (t.core.reg R.MIR_FAULT) 31 24 = 0xA3 ∧ t.core.fld F.MIR_RPSTAT.REASON = 4 ∧ t.core.replay = none)
      | _ => false) = true ∧
    after (.replayCorrelationComplete none 1) (replaying 4096 [mergeItem] [] false) F.MIR_RPSTAT.NOREP = 1 := by decide +kernel
/-- R334: an event that cannot be read is delivered with all fields zero, and counted against row 7. -/
theorem test_lost_event :
    (match exec (.scrub 7 1 true false 0) (mk fun c => { c with lpe := { c.lpe with evq := [(5, 6), (7, 8)] } }) with
      | .next t => decide (readBack .lpeEvqLoRead t = [0x80000000#32] ∧ t.core.fld F.MIR_ECC.MEM = 7 ∧ t.core.lpe.evq = [(0, 0), (7, 8)])
      | _ => false) = true := by decide +kernel
theorem witness_DistaffFaultsAndScrubbing :
    let s := put [(F.SVC_STAT.SVCMODE, 1)] up
    let k : Word := 0x4D490901#32
    let warm := fun (l : Option Nat) => mk fun c => { c with mir := { c.mir with lastWarm := l } }
    bits k 31 16 = 0x4D49 ∧ bits k 0 0 = 1 ∧ bits k 11 8 = 9 ∧ bits k 5 4 = 0 ∧ bits (k ||| 16) 5 4 = 1 ∧ bits (k ||| 32) 5 4 = 2 ∧
    bits (k ||| 48) 5 4 = 3 ∧ s.core.fld F.SVC_STAT.SVCMODE ≠ 0 ∧ up.core.fld F.SVC_STAT.SVCMODE = 0 ∧
    (warm (some 0)).core.mir.lastWarm = some 0 ∧ (warm none).core.mir.lastWarm = none := by decide +kernel

def onPwr (f : PwrSt → PwrSt) (s : State) : State := { s with core := { s.core with pwr := f s.core.pwr } }
theorem witness_ResetsAndSupplies :
    let vb := put [(F.WHL_STAT.SRC, 1)] up
    vb.core.fld F.WHL_STAT.SRC ≠ 0 ∧ up.core.fld F.WHL_STAT.SRC = 0 ∧ (put [(F.PWR_STAT.STATE, 4)] up).core.fld F.PWR_STAT.STATE = 4 ∧
    up.core.fld F.PWR_STAT.STATE ≠ 4 ∧ bitOf (up.core.fld F.PWR_SUPSTAT.OK) 3 = true := by decide +kernel
/-- Each code of R367 but 0 needs a cause of its own; `ready` meets all of R354's conditions, with PER, DOZEON and COASTLIM at their ends. -/
def ready (ps : List (Fld × Nat)) (state : Nat) (js : List Job) : State :=
  let s := force [(F.FOC_LIM1.COASTLIM, 9995)] (put ([(F.PWR_CFG.DOZEEN, 1), (F.PWR_CFG.HIBEN, 1), (F.PWR_DOZECFG.PER, 10000), (F.PWR_DOZECFG.DOZEON, 5)] ++ ps) up)
  { s with core := { s.core with hot := { s.core.hot with foc := { s.core.hot.foc with state := state } }, plan := { s.core.plan with jobs := js } } }
theorem witness_dozeCodes : dozeCode (ready [] 3 []).core 0 ∧ dozeCode (ready [(F.PWR_CFG.DOZEEN, 0)] 3 []).core 1 ∧
    dozeCode (ready [] 2 []).core 2 ∧ dozeCode (ready [] 3 [job 0 .queued]).core 3 ∧ dozeCode (ready [(F.BOB_SNAP_STAT.STATE, 1)] 3 []).core 4 ∧
    dozeCode (ready [(F.PLAN_STAT.STATE, 1)] 3 []).core 5 ∧ dozeCode (ready [(F.PWR_DOZECFG.DOZEON, 4)] 3 []).core 6 ∧
    dozeCode (ready [(F.PWR_DOZECFG.DOZEON, 101)] 3 []).core 6 ∧ dozeCode (ready [(F.PWR_DOZECFG.PER, 10001)] 3 []).core 6 := by
  refine ⟨?_, ?_, ?_, ?_, ?_, ?_, ?_, ?_, ?_⟩ <;> (unfold dozeCode DozeFits; dsimp only; decide +kernel)
theorem witness_PowerCommandsAndDoze :
    (ready [] 3 []).core.fld F.PWR_STAT.STATE = 0 ∧ (ready [] 3 []).core.fld F.PWR_CFG.HIBEN = 1 ∧ up.core.fld F.PWR_CFG.HIBEN = 0 ∧
    (ready [(F.BOB_SNAP_STAT.STATE, 2)] 3 []).core.fld F.BOB_SNAP_STAT.STATE = 2 ∧ (ready [] 3 [job 1 .running]).core.plan.jobs = [job 1 .running] ∧
    (put [(F.PWR_STAT.STATE, 3)] up).core.fld F.PWR_STAT.STATE = 3 ∧ (put [(F.SVC_STAT.SVCMODE, 1)] up).core.fld F.SVC_STAT.SVCMODE = 1 ∧
    (let s := { up with core := (up.core.setReg R.PWR_DOZEIDLE 7).setReg R.PWR_HIBIDLE 8, clk := { epoch := 7000, fc := 0 } }
     (s.core.reg R.PWR_DOZEIDLE).toNat ≤ idleSeconds s ∧ ¬ (s.core.reg R.PWR_HIBIDLE).toNat ≤ idleSeconds s) := by
  unfold idleSeconds; decide +kernel
/-- DOZE in its burst, its off phase and at its end. -/
def dozing (off epoch fc : Nat) (exit : Option Nat) : State :=
  onPwr (fun p => { p with dozeAt := 0, dozeExit := exit })
    (put [(F.PWR_STAT.STATE, 2), (F.PWR_STAT.OFFPH, off), (F.PWR_DOZECFG.PER, 100), (F.PWR_DOZECFG.DOZEON, 5)] (upAt epoch fc))
theorem witness_DozePhases :
    (dozing 1 99 327680 none).core.fld F.PWR_STAT.OFFPH ≠ 0 ∧ (99 + 1 - (dozing 1 99 327680 none).core.pwr.dozeAt) % 100 = 0 ∧
    (dozing 1 99 327680 none).core.pwr.projected = false ∧ (dozing 0 5 0 none).core.fld F.PWR_DOZECFG.DOZEON = 5 ∧
    (dozing 0 5 0 none).core.fld F.PWR_STAT.OFFPH = 0 ∧ (dozing 0 4 0 none).core.fld F.PWR_STAT.STATE = 2 ∧
    (dozing 0 7 0 (some 7)).core.pwr.dozeExit = some 7 ∧ (dozing 1 6 327680 (some 7)).core.pwr.dozeExit = some 7 := by decide +kernel
/-- A HIBERNATE entry with nothing left to write, the sleep, and its wake source. -/
def asleep (saved : Option Saved) (src : Nat) : State :=
  let s := put [(F.PWR_STAT.STATE, 4), (F.PWR_WAKEEN.SRC, src)] up
  { s with core := { s.core with saved := saved } }
theorem witness_HibernateAndWake :
    let h := onPwr (fun p => { p with hib := 3 }) up
    h.core.pwr.hib = 3 ∧ h.core.nvm.queue = [] ∧ h.core.nvm.ops = [] ∧ h.core.nvm.compactTo = none ∧ up.core.pwr.hib = 0 ∧
    ((1 : BitVec 6).toNat &&& 31) &&& (asleep none 1).core.fld F.PWR_WAKEEN.SRC ≠ 0 ∧ (asleep none 1).core.saved = none ∧
    (asleep (some { tick := 0, sidx := 0, staged := [] }) 1).core.saved.isSome = true ∧ (asleep none 1).core.fld F.PWR_STAT.STATE = 4 ∧
    ((2 : BitVec 6).toNat &&& 31) &&& (asleep none 1).core.fld F.PWR_WAKEEN.SRC = 0 ∧
    (let s := onPwr (fun p => { p with tick := some 0 }) (asleep none 32)
     s.core.pwr.tick = some s.core.whl.count ∧ ((32 : BitVec 6).toNat &&& (31 + 32)) &&& s.core.fld F.PWR_WAKEEN.SRC ≠ 0) ∧
    (asleep none 32).core.pwr.tick ≠ some (asleep none 32).core.whl.count ∧ (put [(F.PWR_WAKEEN.SRC, 1)] h).core.fld F.PWR_STAT.STATE ≠ 4 := by
  decide +kernel
theorem witness_IslandsAndBias : (onPwr (fun p => { p with powering := [7, 0] }) up).core.pwr.powering = 7 :: [0] ∧ (7 : Nat) < 8 ∧
    up.core.pwr.powering = [] ∧ up.core.fld F.PWR_STAT.STATE ≤ 1 ∧ up.core.fld F.PWR_CFG.BBMODE ≠ 1 ∧ (-1 : Int) < 0 ∧ (500 : Int) < 501 := by
  decide +kernel
/-- A UART with `rx` received entries, `tx` characters to send, one being sent, and `w` kept by the wake receiver. -/
def serial (n : Nat) (en rx tx w : Nat) (shift : Option Byte) : State :=
  let s := put [(F.UART_CFG.EN n, en), (F.UART_RATE.RATE n, 115200)] up
  { s with core := s.core.onUart n fun u => { u with rx := List.replicate rx 65, tx := List.replicate tx 66, shift := shift, wake := List.replicate w 0 } }
theorem witness_Uarts :
    ((serial 0 1 0 63 0 none).core.uart 0).tx.length < 64 ∧ 64 ≤ ((serial 0 1 0 64 0 none).core.uart 0).tx.length ∧
    ¬ bits (1200 : Word) 22 0 < 1200 ∧ bits (1199 : Word) 22 0 < 1200 ∧ 921600 < bits (921601 : Word) 22 0 ∧
    bits (12 : Word) 3 2 = 3 ∧ bits (8 : Word) 3 2 ≠ 3 ∧ rateWaits (put [(F.UART_STAT.CLKSRC 0, 1)] up).core 0 230401 ∧
    ¬ rateWaits (put [(F.UART_STAT.CLKSRC 0, 1)] up).core 0 230400 ∧
    (serial 1 0 0 0 0 none).core.fld (F.UART_CFG.EN 1) = 0 ∧ (serial 1 1 0 0 0 none).core.fld (F.UART_CFG.EN 1) ≠ 0 ∧
    ¬ rateWaits (serial 1 1 0 0 0 none).core 1 115200 ∧ (serial 1 1 0 0 0 none).core.fld (F.UART_CFG.LOOP 1) = 0 ∧
    (put [(F.UART_CFG.LOOP 1, 1)] up).core.fld (F.UART_CFG.LOOP 1) ≠ 0 ∧ ((serial 1 1 64 0 0 none).core.uart 1).rx.length = 64 ∧
    ((serial 1 1 0 0 0 (some 7)).core.uart 1).shift.isSome = true ∧ ((serial 1 1 0 1 0 none).core.uart 1).tx = 66 :: [] ∧
    bitOf (entryOf up.core 0 { start := false, data := 0, parity := false, stop := false }) 10 = true ∧
    (let s := put [(F.PWR_STAT.STATE, 4), (F.PWR_WAKEEN.SRC, 2)] (serial 1 1 0 0 32 none)
     s.core.fld F.PWR_STAT.STATE = 4 ∧ bitOf (s.core.fld F.PWR_WAKEEN.SRC) 1 = true ∧ s.core.fld (F.UART_RATE.RATE 1) ≤ 230400 ∧
       32 ≤ (s.core.uart 1).wake.length) ∧
    (let s := put [(F.PWR_STAT.STATE, 4), (F.PWR_WAKEEN.SRC, 2)] (serial 1 1 0 0 31 none)
     s.core.fld (F.UART_CFG.EN 1) ≠ 0 ∧ s.core.fld (F.UART_RATE.RATE 1) = 115200 ∧ (s.core.uart 1).wake.length < 32) := by
  unfold rateWaits; decide +kernel
def qspi (qpi ready busy : Nat) (op : Option Nat) (image : List Byte) : State :=
  let s := put [(F.QSP_CFG.EN, 1), (F.QSP_FLAGS.QPI, qpi), (F.QSP_FLAGS.READY, ready), (F.QSP_FLAGS.WBUSY, busy)] up
  { s with core := { s.core with qsp := { s.core.qsp with op := op, image := image, awaiting := true } } }
theorem witness_QspiPort :
    (put [(F.QSP_CFG.EN, 0)] up).core.fld F.QSP_CFG.EN = 0 ∧ (qspi 1 1 0 none []).core.fld F.QSP_CFG.EN ≠ 0 ∧ (qspi 1 1 0 none []).core.fld F.QSP_FLAGS.QPI ≠ 0 ∧
    (2 : Fin 4) ≠ 3 ∧ (qspi 0 0 0 none []).core.fld F.QSP_FLAGS.READY = 0 ∧ (qspi 0 1 0 none []).core.fld F.QSP_FLAGS.READY ≠ 0 ∧
    windowCode (qspi 0 1 0 none []).core 0 4096 false = 0 ∧ windowCode (qspi 0 1 0 none []).core 0 4 false = 0 ∧
    windowCode (qspi 0 1 0 none []).core 0 4100 false = 1 ∧ windowCode (qspi 0 1 1 none []).core 0 4 false = 2 ∧
    windowCode (qspi 0 1 0 none []).core 0 4 true = 3 ∧ (qspi 0 1 1 (some 6) []).core.qsp.op = some 6 ∧ up.core.qsp.op = none ∧
    (qspi 0 1 0 none []).core.qsp.awaiting = true ∧ (0 : Word).toNat = (qspi 0 1 0 none []).core.qsp.image.length ∧
    ((qspi 0 1 0 none []).core.qsp.image ++ (qspi 0 1 0 none []).core.qsp.win.reads 0 8).length < 12 ∧
    8192 - (up.core.link 1).rx.length = 8192 ∧ (put [(F.PWR_STAT.STATE, 4)] up).core.coreOn = false := by decide +kernel
/-- A session of version 1.0 on both links. -/
def talking (f : LinkSt → LinkSt) : State :=
  { up with core := (up.core.onLink 0 fun k => f { k with opened := true, major := 1 }).onLink 1 fun k => f { k with opened := true, major := 1 } }
theorem witness_hears : Hears up ∧ ¬ Hears (put [(F.SYS_BOOT.STAGE, 7)] up) ∧ NewRequest (talking id) req 0 ∧ req.old = none := by
  unfold Hears NewRequest; decide +kernel
/-- A message of the session's catalogue and a payload in its layout. -/
def inCat (s : State) (cls id n : Nat) : Bool :=
  match (s.core.link 0).entry req cls id with
  | some m => m.lengthOk (s.core.link 0).version n && m.expand (s.core.link 0).version (List.replicate n 0) == List.replicate n 0
  | none => false
theorem witness_InCatalogue : ([(0, 3, 0), (0, 6, 0), (1, 1, 8), (1, 3, 8), (1, 3, 12), (5, 1, 36), (6, 1, 64), (6, 2, 4), (7, 1, 8), (7, 2, 4), (7, 4, 0),
    (7, 5, 0), (8, 1, 8), (8, 2, 4), (8, 3, 4), (9, 1, 16)].all fun x => inCat (talking id) x.1 x.2.1 x.2.2) = true ∧
    ([(7, 6), (7, 7), (8, 5), (8, 6), (8, 7)].all fun x => ((talking id).core.link 0).entry req x.1 x.2 |>.isSome) = true := by decide +kernel
/-- A request executed before, one unknown, one of a wrong length, one too many; a frame that fits its queue and one that does not. -/
theorem witness_TwineFramesAndRules :
    let s := talking fun k => { k with memory := [(1, frameCrc 0 6 1 [], [])] }
    ((s.core.link 0).memory.find? fun m => m.1 == 1 && m.2.1 == frameCrc 0 6 1 []) = some (1, frameCrc 0 6 1 [], []) ∧
    (up.core.link 0).opened = false ∧ ((talking fun k => { k with cat := some [] }).core.link 0).entry req 6 1 = none ∧
    (((talking id).core.link 0).entry req 0 6).map (fun m => m.lengthOk 256 1) = some false ∧
    4 ≤ ((talking fun k => { k with waiting := List.replicate 4 { link := 0, seq := 9, crc := 0, cls := 7, id := 4 } }).core.link 0).waiting.length ∧
    (up.core.link 0).outq.length + 16384 ≤ 16384 ∧ ¬ up.core.qsp.out.length + 32769 ≤ 32768 := by decide +kernel
def hello (a b c d : Nat) (z : Nat) : List Byte := leBytes 1 a ++ leBytes 1 b ++ leBytes 1 c ++ leBytes 1 d ++ leBytes 4 7 ++ leBytes 8 z
theorem witness_TwineSessions :
    (hello 1 0 1 0 0).length = 16 ∧ zeroAt (hello 1 0 1 0 0) 8 8 = true ∧ zeroAt (hello 1 0 1 0 1) 8 8 = false ∧
    stdCat.negotiate 1 1 = some (1, 0) ∧ stdCat.negotiate 200 201 = none ∧ ((talking id).core.link 0).opened = true ∧
    (up.core.link 0).opened = false ∧ NewRequest (talking id) req (frameCrc 0 1 1 (hello 200 0 201 0 0)) ∧
    ((taken up req (frameCrc 0 1 1 (hello 1 0 1 0 0)) 0 1).helloCat.1).isNone = true := by
  unfold NewRequest; decide +kernel
/-- Payloads at the ends of the requests' ranges. -/
theorem witness_twinePayloads :
    (leAt (leBytes 4 4 ++ leBytes 4 1022) 0 4 % 4 = 0 ∧ leAt (leBytes 4 4 ++ leBytes 4 1022) 4 2 = 1022 ∧ leAt (leBytes 4 4 ++ leBytes 4 1023) 4 2 = 1023) ∧
    leAt (leBytes 4 255) 0 4 = 255 ∧ leAt (leBytes 4 256) 0 4 = 256 ∧ fuseOk .kldoff false = true ∧
    (0x200000 - 4) % 4 = 0 ∧ (up.core.setKey up.clk 256 (leBytes 4 1)).2 = true ∧ (up.core.setKey up.clk 0xFFFF []).2 = false := by decide +kernel
theorem witness_TwineStorageRequests :
    (up.core.persistItems.any fun x => x.1 == 256) = true ∧ (up.core.persistItems.all fun x => x.1 != 0xFFFF) = true ∧
    up.core.fld F.NVM_STAT.RDONLY = 0 ∧ (put [(F.NVM_STAT.RDONLY, 1)] up).core.fld F.NVM_STAT.RDONLY ≠ 0 ∧
    leAt (leBytes 2 0x8000 ++ leBytes 2 0) 0 2 = 0x8000 ∧
    (let d : CalDate := ⟨1980, 1, 6, 0, 0, 0, 0⟩
     up.core.dateOk d 0 = true ∧ up.core.dateOk { d with day := 5 } 0 = false ∧ up.core.scaleOfs 0 = none ∧
       (mk fun c => { c with mem := c.mem.putWord (timeScale 0) 0x80000000#32 }).core.scaleOfs 0 = some 0) ∧
    (put [(F.FLY_STAT.STATE, 1)] up).core.fld F.FLY_STAT.STATE = 1 ∧
    ((talking fun k => { k with nonce := some (7, 0) }).core.link 0).nonce = some (7, 0) ∧ (0 : Nat) ≤ 0 + 655360000 := by decide +kernel
/-- A solution, a job that ended and one under way, an event, entries in both queues, notices, a pulse output that announces itself. -/
def telling : State :=
  let s := put [(F.PLAN_OWR.OWR, 2)] (talking fun k => { k with notices := [(1, [])], lost := 3 })
  let x : TpSt := { TpSt.reset with act := { TpSt.reset.act with mode := 1 }, on := true }
  let c := s.core.onFly fun f => { f with evq := [tag [1, 2, 3, 4]], tps := putAt f.tps 0 x }
  force [(F.FLY_TP_CFG.MSG 0, 1)] { s with core := { c.setFld F.FLY_STAT.STATE 1 with
    lpe := { c.lpe with symq := [(1, 2)], evq := [(3, 4)] }
    out := { c.out with sols := [([], false)] }
    plan := { c.plan with jobs := [job 0 (.done 0)] } } }
theorem witness_DeviceMessages :
    Silent State.reset ∧ ¬ Silent telling ∧ telling.core.epochsRun = true ∧ telling.clk.epoch = 0 ∧
    (put [(F.SYS_BOOT.STAGE, 7)] up).core.epochsRun = false ∧ AnySession telling ∧ ¬ AnySession up ∧ up.core.outFill = 0 ∧ telling.core.outFill ≠ 0 ∧
    up.core.out.sols = [] ∧ telling.core.out.sols.length = 1 ∧ up.core.gpsSecond 999 = up.core.gpsSecond 998 ∧
    up.core.gpsSecond 1000 ≠ up.core.gpsSecond 999 ∧ telling.core.tpRuns 0 = true ∧ telling.core.inForce (F.FLY_TP_CFG.MSG 0) ≠ 0 ∧
    100000000 ≤ tpPeriod (telling.core.tp 0).act.period ∧ up.core.tpRuns 0 = false ∧ telling.core.fly.evq = [tag [1, 2, 3, 4]] ∧
    telling.core.job 5 = some (job 0 (.done 0)) ∧ (job 0 (.done 0)).live = false ∧ (job 0 .running).live = true ∧ up.core.job 5 = none := by
  unfold Silent AnySession; decide +kernel
/-- A solution of epoch 100, with GGA on; the sentence of its epoch was sent, or one of an epoch before. -/
def spoken (last : Option Nat) (level : Nat) : State :=
  let s := put [(F.SYS_DSTLOAD.LEVEL, level)] { telling with clk := { epoch := 100, fc := 0 } }
  let c := (s.core.setKey s.clk 256 (leBytes 4 127)).1
  { s with core := { c with out := { c.out with sols := [(leBytes 4 100, false)] }, dst := { c.dst with nmeaAt := putAt c.dst.nmeaAt 6 last } } }
theorem witness_sentences :
    up.core.newestSol = none ∧ (spoken none 0).core.newestSol = some (leBytes 4 100) ∧ bitOf ((spoken none 0).core.settingNat 0) 6 = true ∧
    fullEpoch 100 (leAt (leBytes 4 100) 0 4) = 100 ∧ (spoken none 0).core.nmeaDue 6 100 = true ∧ (spoken (some 100) 0).core.nmeaDue 6 100 = false ∧
    (spoken none 1).core.fld F.SYS_DSTLOAD.LEVEL = 1 ∧ (spoken none 1).core.nmeaDue 6 100 = true ∧ (spoken none 0).core.fld F.SYS_DSTLOAD.LEVEL = 0 ∧
    (spoken none 0).core.coreOn = true ∧ (spoken none 0).core.distaffServes = true := by decide +kernel
theorem witness_QueuesNoticesAndSentences :
    telling.core.coreOn = true ∧ telling.core.distaffServes = true ∧ telling.core.lpe.symq ≠ [] ∧ telling.core.lpe.evq ≠ [] ∧
    up.core.lpe.symq = [] ∧ (telling.core.link 0).lost = 3 ∧ (telling.core.link 0).outq.length + 28 ≤ 16384 ∧
    ((talking fun k => { k with notices := [(1, [])] }).core.link 0).notices = (1, []) :: [] ∧
    ¬ ((talking fun k => { k with outq := List.replicate 16357 0 }).core.link 0).outq.length + 28 ≤ 16384 ∧ ((talking id).core.link 1).notices = [] ∧
    bitOf (up.core.settingNat 0) 3 = false ∧ bitOf (up.core.settingNat 0) 2 = true ∧ (let c := (up.core.setKey up.clk 256 (leBytes 4 127)).1; bitOf (c.settingNat 0) 6 = true) ∧
    (let c := (up.core.setKey up.clk 259 (leBytes 4 127)).1; bitOf (c.settingNat 3) 6 = true) ∧ bitOf (up.core.settingNat 3) 0 = false ∧
    (put [(F.SYS_DSTLOAD.LEVEL, 1)] up).core.fld F.SYS_DSTLOAD.LEVEL = 1 := by decide +kernel
theorem witness_DeviceMessagesOnALink : (up.core.link 0).opened = false ∧ ((talking id).core.link 0).opened = true ∧
    (((talking id).core.link 0).outgoing 3 1 (List.replicate 64 0)).isSome = true ∧ (((talking id).core.link 0).outgoing 31 31 []).isNone = true ∧
    (((talking id).core.link 0).outgoing 2 3 (List.replicate 32 0)).map (·.2.2.2) = some false ∧
    (put [(F.SYS_DSTLOAD.LEVEL, 2)] up).core.fld F.SYS_DSTLOAD.LEVEL = 2 ∧ up.core.fld F.SYS_DSTLOAD.LEVEL < 2 ∧ (up.core.link 0).outq.length + (64 + 12) ≤ 16384 := by decide +kernel
/-- The console with a self-test running, with the service arm given, with overrides. -/
def console (svc : Nat) (test : Option RunTest) (armed : Option Nat) (over' : List (Nat × Nat)) (epoch : Nat) : State :=
  let s := { put [(F.SVC_STAT.SVCMODE, svc)] up with clk := { epoch := epoch, fc := 0 } }
  { s with core := { s.core with svc := { s.core.svc with test := test, armed := armed }, pinOver := over' } }
def ranTest (kind arg : Nat) : RunTest := { kind := kind, arg := arg, start := 0, base := 0, tag := none, kept := [] }
theorem witness_Console :
    ConsoleUp (console 0 none none [] 0) ∧ (console 0 none none [] 0).core.conBusy = false ∧ (console 1 (some (ranTest 35 7)) none [] 0).core.conBusy = true ∧
    (console 1 none none [] 0).core.fld F.SVC_STAT.SVCMODE ≠ 0 ∧ up.core.fld F.SVC_STAT.SVCMODE = 0 ∧
    (console 0 none (some 0) [] 10000).core.svc.armed = some 0 ∧ now (console 0 none (some 0) [] 10000) = 0 + 6553600000 ∧
    (console 1 none none [] 1800000).core.svc.lastInput + 1179648000000 ≤ now (console 1 none none [] 1800000) := by
  unfold ConsoleUp now; decide +kernel
theorem witness_MeterMode :
    pinBank 40 ≠ none ∧ pinBank 200 = none ∧ ballDenied 39 1 ∧ ¬ ballDenied 40 2 ∧ ballDenied 41 3 ∧ ballDenied 102 1 ∧
    (console 1 none none [] 0).core.pinPowered 68 = true ∧ (put [(F.PWR_SUPSTAT.OK, 1)] up).core.pinPowered 68 = false ∧
    (∀ o ∈ (console 1 none none ((List.range 8).map fun k => (60 + k, 1)) 0).core.pinOver, o.1 ≠ 68) ∧
    (console 1 none none ((List.range 8).map fun k => (60 + k, 1)) 0).core.pinOver.length = 8 ∧
    (console 1 none none [(68, 2)] 0).core.overMode 68 = some 2 ∧ pinBank (up.core.fld F.SVC_PINSEL.PIN) ≠ none := by
  unfold ballDenied; decide +kernel
theorem witness_SelfTests :
    ([34, 35, 36, 37, 41, 42, 44, 45].all fun k => decide ((console 1 (some (ranTest k 0)) none [] 10000).core.svc.test = some (ranTest k 0))) = true ∧
    now (console 1 (some (ranTest 41 0)) none [] 10000) = (ranTest 41 0).start + 6553600000 ∧
    now (console 1 (some (ranTest 42 0)) none [] 1000) = (ranTest 42 0).start + 655360000 ∧ up.core.fld (F.BOB_LVDS_STAT.STATE 0) ≠ 1 ∧
    up.core.mir.inj = none ∧ up.core.fld F.MIR_STAT.REC = 0 ∧ up.core.longestPrism = 0 ∧
    bitOf ((put [(F.PLAN_CMTSTAT.SEAL, 8192)] up).core.fld F.PLAN_CMTSTAT.SEAL) 13 = true ∧ bitOf (up.core.fld F.PLAN_CMTSTAT.SEAL) 13 = false ∧
    (∀ x ∈ [760, 3600, 1100, 1710, 1890, 1700, 3600].zip [(760, 880), (1700, 3600), (1100, 3600), (1710, 1890), (1710, 1890), (1700, 3600), (1700, 3600)],
      x.2.1 ≤ x.1 ∧ x.1 ≤ x.2.2) := by unfold now; decide +kernel
/-- Whorl one edge before a day boundary; with a write waiting; with its two copies apart. -/
def ticking (f : WhlSt → WhlSt) : State := { up with core := up.core.onWhl f }
theorem witness_dayEdge : DayEdge (ticking fun w => { w with cntA := 2831155199, cntB := 2831155199 }).core.whl 0 0 ∧
    ∀ i, i < (edgeStep up.core.whl.acc).1 → ((edgeBase up.core.whl 0 0).1 + i + 1) % 2831155200 ≠ up.core.whl.phase :=
  ⟨⟨0, by decide +kernel, by decide +kernel⟩, by decide +kernel⟩
theorem witness_WhorlCountsAndRate :
    up.core.coreOn = true ∧ (edgeBase up.core.whl 1 1).2 ∧ (edgeBase up.core.whl 3 0).2 ∧ ¬ (edgeBase up.core.whl 1 0).2 ∧
    (ticking fun w => { w with pend := [(R.WHL_WDAY, 6, 1)] }).core.whl.pend = [(R.WHL_WDAY, 6, 1)] ∧ up.core.whl.pend = [] ∧
    (ticking fun w => { w with edges := 32768 }).core.whl.edges = 32768 ∧ up.core.whl.edges < 32768 ∧
    (put [(F.WHL_STAT.SRC, 1)] up).core.fld F.WHL_STAT.SRC ≠ 0 ∧ edgeStep 65536 = (2, 0) ∧ edgeStep (-65536) = (0, 0) ∧ edgeStep 65535 = (1, 65535) := by
  unfold edgeBase; decide +kernel
theorem witness_WhorlTrustAndWrites : (6 : BitVec 3) ≠ 7 ∧ (0xC4000000#32).toNat / 2 ^ 24 = 0xC4 ∧ (0xC5000000#32).toNat / 2 ^ 24 ≠ 0xC4 ∧
    (ticking fun w => { w with chg := 0x21, vbat := 3299 }).core.whl.chg = 0x21 ∧ (ticking fun w => { w with alive := false }).core.whl.alive = false ∧
    (ticking fun w => { w with alive := true }).core.whl.alive = true := by decide +kernel
theorem witness_BackupRamAndAnchors : (put [(F.FLY_STAT.STATE, 1), (F.FLY_UNC.UNC, 999)] up).core.fld F.FLY_UNC.UNC < 1000 ∧
    ¬ (put [(F.FLY_UNC.UNC, 1000)] up).core.fld F.FLY_UNC.UNC < 1000 ∧ up.core.fld F.FLY_STAT.STATE ≠ 1 ∧ up.core.fly.anchored = none ∧
    (let s := { mk (fun c => c.onFly fun f => { f with anchored := some 0 }) with clk := { epoch := 3600000, fc := 0 } }
     s.core.fly.anchored = some 0 ∧ 0 + 3600 * 655360000 ≤ 655360 * s.clk.epoch + s.clk.fc) := by decide +kernel
/-- A device at step 2 whose supplies are good; one that holds with NOREF or NOLOCK, alone or in a set. -/
def holding (code id : Nat) : State :=
  let s := put [(F.SYS_BOOT.CODE, code), (F.SET_STRAP.SET_ID, id), (F.SET_STRAP.REFSEL, 5)] up
  { s with core := { s.core with boot := { s.core.boot with cand := some (twoSlots, .slotA), env := { env with lock := false } } } }
theorem witness_StartUpReachesItsFirstEpoch :
    let s := put [(F.SYS_BOOT.STAGE, 2)] State.reset
    (s.core.fld F.SYS_BOOT.STAGE = 2 ∧ s.core.coreOn = true ∧ s.core.fld F.PWR_SUPSTAT.OK % 8 = 7) ∧
    s.core.fld F.PWR_RSTCAUSE.CAUSE ≤ 2 ∧ s.core.saved = none ∧ ¬ (put [(F.PWR_RSTCAUSE.CAUSE, 3)] s).core.fld F.PWR_RSTCAUSE.CAUSE ≤ 2 ∧
    (bitOf env.straps 3 = true ∧ env.straps % 4 = 0 ∧ env.lock = true ∧ env.lockA = true ∧ env.straps / 16 % 8 ≤ 4) ∧ (0x58 / 16 % 8 = 5) ∧ (4 : Nat) / 4 % 4 = 1 ∧ ¬ (9 : Nat) % 4 = 0 ∧
    (holding 1 0).core.fld F.SYS_BOOT.CODE = 1 ∧ (holding 1 0).core.boot.cand = some (twoSlots, .slotA) ∧
    (holding 1 0).core.fld F.SET_STRAP.REFSEL = 5 ∧ twoSlots.has .syscfg = false ∧ (holding 1 0).core.boot.env.lock = false ∧
    (holding 2 0).core.fld F.SYS_BOOT.CODE = 2 ∧ (holding 2 3).core.fld F.SET_STRAP.SET_ID ≠ 0 := by decide +kernel
/-- A member of a set in each of its states. -/
def member (st frames miss epoch fc : Nat) : State :=
  let s := put [(F.SET_STRAP.SET_ID, 1), (F.SET_STAT.STATE, st)] (upAt epoch fc)
  force [(F.SET_CFG.LOSSLIM, 3)] { s with core := { s.core with boot := { s.core.boot with frames := frames, miss := miss, expect := 8, cand := some (twoSlots, .slotA) } } }
theorem witness_FollowersOfASet :
    ([2, 3, 4, 5, 6].all fun st => decide ((member st 0 0 7 327680).core.fld F.SET_STAT.STATE = st)) = true ∧
    up.core.fld F.SET_STRAP.SET_ID = 0 ∧ (member 2 0 0 7 0).core.fld F.SET_STRAP.SET_ID ≠ 0 ∧ (member 3 2 0 7 0).core.boot.frames = 2 ∧
    (member 3 2 0 7 0).core.boot.cand = some (twoSlots, .slotA) ∧ (1525 : Int).natAbs = 1525 ∧ (-1526 : Int).natAbs = 1526 ∧
    (member 4 0 3 7 0).core.inForce F.SET_CFG.LOSSLIM = 3 ∧ (member 4 0 3 7 0).core.boot.miss = 3 ∧ (member 4 0 0 7 327679).clk.fc < 327680 := by
  decide +kernel
theorem witness_RegisterWritesByFieldType :
    (BitVec.ofNat 32 R.PLAN_IRQEN).toNat = R.PLAN_IRQEN ∧ (BitVec.ofNat 32 R.FLY_SLEW).toNat = R.FLY_SLEW ∧ (0x40015000 : Nat) ≤ (0x40015000#32).toNat ∧
    (0x40000001#32).toNat % 4 ≠ 0 ∧ bitOf ((put [(F.PLAN_CMTSTAT.SEAL, 4096)] up).core.fld F.PLAN_CMTSTAT.SEAL) 12 = true ∧
    bitOf (up.core.fld F.PLAN_CMTSTAT.SEAL) 12 = false ∧ up.core.fld F.SYS_UNMAP.VALID = 0 := by decide +kernel
theorem witness_Structural :
    TimeOk up ∧ TimeOk (upAt 0 655359) ∧ up.pending = [] ∧ up.held = [] ∧ up.core.conBusy = false ∧
    (put [(F.PWR_STAT.STATE, 5)] up).core.coreOn = false ∧ (put [(F.PWR_STAT.STATE, 4)] up).core.coreOn = false ∧
    (running 327678 false).clk.fc < lastOfHalf (running 327678 false) ∧ ¬ (running 327679 false).clk.fc < lastOfHalf (running 327679 false) ∧
    { up with held := [.help] }.held = .help :: [] := by
  unfold TimeOk; decide +kernel
theorem witness_kinds : ¬ Restarts .help ∧ Restarts .reboot ∧ ¬ NeedsNoCore .help ∧ Occurs 15 999 999 ∧ ¬ Occurs 15 999 1000 :=
  ⟨id, trivial, id, by unfold Occurs; decide +kernel, by unfold Occurs; decide +kernel⟩
theorem witness_invariants : TrustOk up.core ∧ TrustOk (put [(F.WHL_TRUST.OSF, 0), (F.WHL_TRUST.BOR, 0), (F.WHL_TRUST.LBV, 1), (F.WHL_TRUST.SUM, 1)] up).core ∧
    up.core.mem.wf = true ∧ coded.core.mem.wf = true ∧ ¬ WritesManyWords .setosf ∧
    (up.core.slice 0).sst < 1024 ∧ Fits48 (accValue up.core 0 0 + ([2 ^ 47 - 1] : List Int).sum) ∧ ¬ Fits48 (2 ^ 47) ∧
    after .setosf (put [(F.WHL_TRUST.OSF, 0), (F.WHL_TRUST.BOR, 0), (F.WHL_TRUST.SUM, 0)] up) F.WHL_TRUST.SUM = 2 :=
  ⟨by unfold TrustOk; decide +kernel, by unfold TrustOk; decide +kernel, by decide +kernel, by decide +kernel, id, by decide +kernel,
    by unfold Fits48; decide +kernel, by unfold Fits48; decide +kernel, by decide +kernel⟩
/-- R231's own example: GOV is set although the final sum fits. -/
theorem witness_AccumulatorSumsAreExact : let c := State.reset.core.landOne 0 (.acc 0 0x7FFFFFFFFFF0)
    Fits48 (accValue c 0 0 + ([100, -1000] : List Int).sum) ∧ bitOf (c.slice 0).sst 2 = false ∧
    bitOf ((landAllOf c 0 0 [100, -1000]).slice 0).sst 2 = true := by unfold Fits48; decide +kernel
theorem witness_MemoryKeepsItsForm : MemoryWf State.reset.core :=
  ⟨by decide, ⟨by decide, by decide⟩, ⟨by decide, by decide⟩, by decide, by decide, by decide, by intro r h; cases h⟩
end Sys2Proof.Tests
end Tests
end

section
/-! The slots that occur in an epoch (R30): the model's `SlotEntry.occurs` against the period table. -/
namespace Sys2Proof.Machine

theorem planPhase_add_thousand (epoch : Nat) : planPhase (epoch + 1000) = planPhase epoch := Nat.add_mod_right epoch 1000

theorem SlotEntry.occurs_iff (s : SlotEntry) (epoch : Nat) : s.occurs epoch = true ↔ epoch % 1000 % periodOf s.period = s.phase :=
  decide_eq_true_iff

/-- Whether a slot occurs depends on the plan phase alone, so any pattern of slots repeats every 1,000 epochs. -/
theorem SlotEntry.occurs_add_thousand (s : SlotEntry) (epoch : Nat) : s.occurs (epoch + 1000) = s.occurs epoch := by
  simp only [SlotEntry.occurs, planPhase_add_thousand]

end Sys2Proof.Machine

namespace Sys2Proof.Claims
open Sys2Proof.Machine

/-- A period code is four bits wide, so reading it modulo 16 changes nothing. -/
theorem periodOf_eq_periods (code : Fin 16) : periodOf code = periods.getD code 1 := by
  rw [periodOf, Nat.mod_eq_of_lt code.isLt, periods]

/-- R30: every period divides 1,000. -/
theorem thousand_mod_periods : ∀ code : Fin 16, 1000 % periods.getD code 1 = 0 := by decide

theorem occurs_iff_mod (code : Fin 16) (ph epoch : Nat) : Occurs code ph epoch ↔ epoch % 1000 % periods.getD code 1 = ph := by
  rw [Occurs, SlotEntry.occurs_iff, periodOf_eq_periods]

theorem occurs_add_thousand_iff (code ph epoch : Nat) : Occurs code ph (epoch + 1000) ↔ Occurs code ph epoch := by
  rw [Occurs, SlotEntry.occurs_add_thousand, Occurs]

/-- Settles O60: the occurrence test is R30's, and the epoch enters it only modulo 1,000. -/
theorem slotsOccurWithTheirPeriod : Obligations.SlotsOccurWithTheirPeriod := fun code ph epoch =>
  ⟨occurs_iff_mod code ph epoch, thousand_mod_periods code, occurs_add_thousand_iff code ph epoch⟩

end Sys2Proof.Claims
end

section
/-! The accumulators of a slice (R231): a product that lands adds modulo 2^48, and sets GOV where the sum does not fit. -/
namespace Sys2Proof.Machine

theorem bitOf_eq_testBit (v i : Nat) : bitOf v i = v.testBit i := Nat.testBit_eq_decide_div_mod_eq.symm

theorem ofNat_unsignedOf (n : Nat) (i : Int) : BitVec.ofNat n (unsignedOf n i) = BitVec.ofInt n i := by
  have hpos : ((2 ^ n : Nat) : Int) ≠ 0 := by positivity
  have hlt := Int.emod_lt_of_pos i (show (0 : Int) < ((2 ^ n : Nat) : Int) by positivity)
  have hnonneg := Int.emod_nonneg i hpos
  apply BitVec.eq_of_toNat_eq
  rw [unsignedOf, BitVec.toNat_ofNat, BitVec.toNat_ofInt, Nat.mod_eq_of_lt (by omega)]

theorem satSigned_48_eq_self_iff (i : Int) : satSigned 48 i = i ↔ Claims.Fits48 i := by
  unfold satSigned clampInt Claims.Fits48
  split
  · omega
  · split <;> omega

@[simp] theorem Core.slice_applyIf_sliceErr (c : Core) (b : Bool) (f g : Fld) (k : Nat) :
    (applyIf b (fun c => c.sliceErr f g) c).slice k = c.slice k := by
  cases b <;> rfl

/-- A write of SST changes of its slice SST and what is pending of FLAG. -/
theorem Core.slice_setSst_same (c : Core) (k v : Nat) :
    ∃ p, (c.setSst k v).slice k = { (c.slice k).put idSst (BitVec.ofNat 32 v) with flagPend := p } := by
  simp [Core.setSst]

@[simp] theorem Core.accs_setSst (c : Core) (k v : Nat) : ((c.setSst k v).slice k).accs = (c.slice k).accs := by
  obtain ⟨p, h⟩ := c.slice_setSst_same k v
  rw [h]; rfl

@[simp] theorem Core.sst_setSst (c : Core) (k v : Nat) : ((c.setSst k v).slice k).sst = v % 2 ^ 32 := by
  obtain ⟨p, h⟩ := c.slice_setSst_same k v
  rw [h]; simp [SliceSt.sst, SliceSt.put, idSst]

/-- GOV is bit 2 of SST. -/
theorem Core.gov_setSst_or_four (c : Core) (k v : Nat) : bitOf ((c.setSst k (v ||| 4)).slice k).sst 2 = true := by
  have hbit : Nat.testBit 4 2 = true := by decide
  rw [Core.sst_setSst, bitOf_eq_testBit, Nat.testBit_mod_two_pow, Nat.testBit_or, hbit, Bool.or_true]; rfl

/-- A product that lands: its sum modulo 2^48, and GOV beside it unless the sum fits (R231). -/
theorem Core.landOne_mac (c : Core) (k a : Nat) (p : Int) :
    c.landOne k (.mac a p) =
      let sum := Claims.accValue c k a + p
      let c1 := c.onSlice k fun x => { x with accs := putAt x.accs a (unsignedOf 48 sum) }
      if satSigned 48 sum = sum then c1 else c1.setSst k ((c1.slice k).sst ||| 4) := by
  rw [Core.landOne, signedOf_eq _ (by decide)]; rfl

theorem Core.accs_landOne_mac (c : Core) (k a : Nat) (p : Int) :
    ((c.landOne k (.mac a p)).slice k).accs = putAt (c.slice k).accs a (unsignedOf 48 (Claims.accValue c k a + p)) := by
  rw [Core.landOne_mac]
  dsimp only
  split <;> simp

/-- GOV after a product has landed: it is sticky, and the sum sets it where it does not fit. -/
theorem Core.gov_landOne_mac (c : Core) (k a : Nat) (p : Int) :
    bitOf ((c.landOne k (.mac a p)).slice k).sst 2 = true ↔
      bitOf (c.slice k).sst 2 = true ∨ ¬ Claims.Fits48 (Claims.accValue c k a + p) := by
  rw [Core.landOne_mac, ← satSigned_48_eq_self_iff]
  dsimp only
  split
  case isTrue h => simp [h, SliceSt.sst]
  case isFalse h => simp only [Core.gov_setSst_or_four, h, not_false_eq_true, or_true]

end Sys2Proof.Machine

namespace Sys2Proof.Claims
open Sys2Proof.Machine

/-- An accumulator's value is its own residue among those of 48 signed bits. -/
theorem accValue_bmod (c : Core) (k a : Nat) : (accValue c k a).bmod (2 ^ 48) = accValue c k a := BitVec.toInt_bmod_cancel _

theorem Fits48.bmod_eq {i : Int} (h : Fits48 i) : i.bmod (2 ^ 48) = i := by
  obtain ⟨hlo, hhi⟩ := h
  exact Int.bmod_eq_of_le (by omega) (by omega)

/-- One product adds modulo 2^48. -/
theorem accValue_landOne_mac (c : Core) (k : Nat) {a : Nat} (p : Int) (ha : a < 4) :
    accValue (c.landOne k (.mac a p)) k a = (accValue c k a + p).bmod (2 ^ 48) := by
  rw [accValue, Core.accs_landOne_mac, vecAt_putAt_same ha, ofNat_unsignedOf, BitVec.toInt_ofInt]

/-- Any number of products add modulo 2^48: only their sum counts. -/
theorem accValue_landAllOf (c : Core) (k : Nat) {a : Nat} (ps : List Int) (ha : a < 4) :
    accValue (landAllOf c k a ps) k a = (accValue c k a + ps.sum).bmod (2 ^ 48) := by
  induction ps generalizing c with
  | nil => rw [List.sum_nil, add_zero, accValue_bmod]; rfl
  | cons p ps ih =>
    calc accValue (landAllOf (c.landOne k (.mac a p)) k a ps) k a
        = ((accValue c k a + p).bmod (2 ^ 48) + ps.sum).bmod (2 ^ 48) := by rw [ih, accValue_landOne_mac c k p ha]
      _ = (accValue c k a + (p :: ps).sum).bmod (2 ^ 48) := by rw [Int.bmod_add_bmod, List.sum_cons, add_assoc]

/-- One of the additions of `ps` to a 48-bit accumulator that holds `v` wraps. -/
def SomeSumWraps (v : Int) (ps : List Int) : Prop := ∃ l p r, ps = l ++ p :: r ∧ ¬ Fits48 ((v + l.sum).bmod (2 ^ 48) + p)

theorem not_someSumWraps_nil (v : Int) : ¬ SomeSumWraps v [] := by simp [SomeSumWraps]

/-- The first addition wraps, or a later one, from the value that the first leaves. -/
theorem someSumWraps_cons (v p : Int) (ps : List Int) :
    SomeSumWraps v (p :: ps) ↔ ¬ Fits48 (v.bmod (2 ^ 48) + p) ∨ SomeSumWraps ((v + p).bmod (2 ^ 48)) ps := by
  have later (l : List Int) : ((v + p).bmod (2 ^ 48) + l.sum).bmod (2 ^ 48) = (v + (p :: l).sum).bmod (2 ^ 48) := by
    rw [Int.bmod_add_bmod, List.sum_cons, add_assoc]
  constructor
  · rintro ⟨l, q, r, hsplit, hwrap⟩
    rcases List.cons_eq_append_iff.mp hsplit with ⟨rfl, htail⟩ | ⟨l', rfl, htail⟩
    · obtain ⟨rfl, rfl⟩ := List.cons.inj htail
      exact .inl (by simpa using hwrap)
    · exact .inr ⟨l', q, r, htail, by rwa [later]⟩
  · rintro (hfirst | ⟨l, q, r, rfl, hwrap⟩)
    · exact ⟨[], p, ps, rfl, by simpa using hfirst⟩
    · exact ⟨p :: l, q, r, rfl, by rwa [← later]⟩

/-- GOV after any number of products: it was set, or one of the additions has wrapped. -/
theorem gov_landAllOf (c : Core) (k : Nat) {a : Nat} (ps : List Int) (ha : a < 4) :
    bitOf ((landAllOf c k a ps).slice k).sst 2 = true ↔
      bitOf (c.slice k).sst 2 = true ∨ SomeSumWraps (accValue c k a) ps := by
  induction ps generalizing c with
  | nil => simp [landAllOf, not_someSumWraps_nil]
  | cons p ps ih =>
    rw [someSumWraps_cons, accValue_bmod, ← accValue_landOne_mac c k p ha, ← or_assoc, ← Core.gov_landOne_mac]
    exact ih (c.landOne k (.mac a p))

/-- An operation whose one effect is to send one result into flight issues that result. -/
theorem issues_of_send {mk : Fin 9 → Fin 4 → BitVec 24 → Bool → Instr} {op : Nat} {g : Core → Nat → Nat → Word → Core} (lat : Nat)
    (e : Core → Nat → Word → SliceEff) (hexec : ∀ k f w last s, exec (mk k f w last) s = s.op op k f w last g)
    (hg : ∀ c k f w, g c k f w = c.send k f lat (e c k w)) : Issues mk op (fun c k w => [(lat, e c k w)]) := by
  rintro k f w s ⟨hon, hslice⟩ hok
  refine ⟨_, (hexec k f w false s).trans (State.op_on false g hon hslice hok), ?_⟩
  simp only [hg, Bool.false_eq_true, if_false]
  exact ⟨Core.slice_send_same _ _ _ _ _, fun j hj => Core.slice_send_other _ _ _ _ hj, Core.send_only _ _ _ _ _⟩

theorem halfOf_eq (v : Word) (hi : Bool) : halfOf v hi = (v.extractLsb' (if hi then 16 else 0) 16).toInt := by
  cases hi
  · exact (signedOf_eq _ (by decide)).trans (congrArg BitVec.toInt (bits_eq v 15 0))
  · exact (signedOf_eq _ (by decide)).trans (congrArg BitVec.toInt (bits_eq v 31 16))

/-- A bit of field C of an operation word is that bit of the word. -/
theorem bitOf_fC (w : Word) {i : Nat} (h : i < 6) : bitOf (fC w) i = w.getLsbD i := by
  rw [bitOf_eq_testBit, fC, bits, Nat.pow_zero, Nat.div_one, Nat.testBit_mod_two_pow, decide_eq_true h, Bool.true_and]; rfl

/-- The product of MAC and MSU: bits 0 and 1 of the operation word select a half of A and of B (R225). -/
theorem halfProduct_eq (c : Core) (k : Nat) (w : Word) :
    c.halfProduct k w = ((oA c k w).extractLsb' (if w.getLsbD 0 then 16 else 0) 16).toInt *
      ((oB c k w).extractLsb' (if w.getLsbD 1 then 16 else 0) 16).toInt := by
  rw [Core.halfProduct, halfOf_eq, halfOf_eq, bitOf_fC w (by decide), bitOf_fC w (by decide)]; rfl

/-- R231's example before its first step: accumulator 0 of slice 0 stands 16 below 2^47. -/
def nearlyFull : Core := State.reset.core.landOne 0 (.acc 0 0x7FFFFFFFFFF0)

theorem accValue_nearlyFull : accValue nearlyFull 0 0 = 0x7FFFFFFFFFF0 := by decide +kernel

theorem gov_nearlyFull : bitOf (nearlyFull.slice 0).sst 2 = false := by decide +kernel

/-- The addition of 100 wraps, although the later one of -1,000 brings the sum back. -/
theorem someSumWraps_nearlyFull : SomeSumWraps (accValue nearlyFull 0 0) [100, -1000] := by
  rw [someSumWraps_cons, accValue_bmod, accValue_nearlyFull]
  exact .inl (by unfold Fits48; decide)

/-- Settles O53: sums of products count modulo 2^48, and GOV tells whether one of the additions on the way has wrapped. -/
theorem accumulatorSumsAreExact : Obligations.AccumulatorSumsAreExact := by
  refine ⟨fun c k a ps _ => ⟨?value, fun hfits => ?exact, ?gov⟩, ?mac, ?msu, nearlyFull, [100, -1000], ?fits, gov_nearlyFull, ?wrapped⟩
  case value => rw [BitVec.toInt_ofInt]; exact accValue_landAllOf c k ps a.isLt
  case exact => exact (accValue_landAllOf c k ps a.isLt).trans hfits.bmod_eq
  case gov => simp only [BitVec.toInt_ofInt]; exact gov_landAllOf c k ps a.isLt
  case mac =>
    simp only [← halfProduct_eq]
    exact issues_of_send 3 _ exec_mac fun _ _ _ _ => rfl
  case msu =>
    simp only [← halfProduct_eq]
    exact issues_of_send 3 _ exec_msu fun _ _ _ _ => rfl
  case fits => rw [accValue_nearlyFull]; unfold Fits48; decide
  case wrapped => exact (gov_landAllOf nearlyFull 0 _ (by decide)).mpr (.inr someSumWraps_nearlyFull)

end Sys2Proof.Claims
end

section
/-! Captures of Reel (R303 to R305): what a capture of one counter writes, what it leaves of the others, and the read that clears CAPF. -/
namespace Sys2Proof.Machine

/-! ### One bit of a number, and of a field -/

theorem ofBool_bitOf (v i : Nat) : ofBool (bitOf v i) = v / 2 ^ i % 2 := by
  unfold bitOf ofBool
  split
  case isTrue h => exact (of_decide_eq_true h).symm
  case isFalse h => exact (Nat.mod_two_ne_one.mp (of_decide_eq_false (Bool.eq_false_iff.mpr h))).symm

/-- The lowest bit replaced: the bits above it stay. -/
theorem half_replaceLowest (q : Nat) (b : Bool) : (q - q % 2 + ofBool b) / 2 = q / 2 := by
  cases b
  · show (q - q % 2 + 0) / 2 = q / 2
    omega
  · show (q - q % 2 + 1) / 2 = q / 2
    omega

theorem lowest_replaceLowest (q : Nat) (b : Bool) : decide ((q - q % 2 + ofBool b) % 2 = 1) = b := by
  cases b
  · show decide ((q - q % 2 + 0) % 2 = 1) = false
    exact decide_eq_false (by omega)
  · show decide ((q - q % 2 + 1) % 2 = 1) = true
    exact decide_eq_true (by omega)

/-- The number that `Core.setBit` writes: its bits from `i` up. -/
theorem div_replaceBit (v i : Nat) (b : Bool) :
    (v - ofBool (bitOf v i) * 2 ^ i + ofBool b * 2 ^ i) / 2 ^ i = v / 2 ^ i - v / 2 ^ i % 2 + ofBool b := by
  rw [ofBool_bitOf, Nat.add_mul_div_right _ _ (Nat.two_pow_pos i), Nat.mul_comm, Nat.sub_mul_div]

/-- The number that `Core.setBit` writes: its bits below `i`. -/
theorem mod_replaceBit (v i : Nat) (b : Bool) : (v - ofBool (bitOf v i) * 2 ^ i + ofBool b * 2 ^ i) % 2 ^ i = v % 2 ^ i := by
  have hle : 2 ^ i * (v / 2 ^ i % 2) ≤ v := (Nat.mul_le_mul_left _ (Nat.mod_le _ 2)).trans (Nat.mul_div_le v (2 ^ i))
  rw [ofBool_bitOf, Nat.add_mul_mod_self_right, Nat.mul_comm, Nat.sub_mul_mod hle]

/-- Bit `i` is replaced and every other bit stays. -/
theorem bitOf_replaceBit (v i j : Nat) (b : Bool) :
    bitOf (v - ofBool (bitOf v i) * 2 ^ i + ofBool b * 2 ^ i) j = if j = i then b else bitOf v j := by
  have hdiv := div_replaceBit v i b
  have hmod := mod_replaceBit v i b
  generalize v - ofBool (bitOf v i) * 2 ^ i + ofBool b * 2 ^ i = w at hdiv hmod
  rcases Nat.lt_trichotomy j i with hlt | rfl | hgt
  case inl =>
    have low (x : Nat) : bitOf x j = (x % 2 ^ i).testBit j := by
      rw [bitOf_eq_testBit, Nat.testBit_mod_two_pow, decide_eq_true hlt, Bool.true_and]
    rw [if_neg (Nat.ne_of_lt hlt), low, low, hmod]
  case inr.inl =>
    rw [if_pos rfl, bitOf, hdiv, lowest_replaceLowest]
  case inr.inr =>
    obtain ⟨k, rfl⟩ := Nat.exists_eq_add_of_lt hgt
    have high (x : Nat) : bitOf x (i + k + 1) = (x / 2 ^ i / 2).testBit k := by
      rw [bitOf_eq_testBit, ← Nat.testBit_succ, Nat.testBit_div_two_pow]
      congr 1; omega
    rw [if_neg (Nat.ne_of_gt hgt), high, high, hdiv, half_replaceLowest]

/-- A bit of a field that lies inside a word is set: that bit takes the value and the field's other bits stay. -/
theorem Core.bitOf_fld_setBit_same (c : Core) {f : Fld} (i : Nat) (b : Bool) {j : Nat} (hle : f.lo ≤ f.hi) (hhi : f.hi < 32)
    (hj : j ≤ f.hi - f.lo) : bitOf ((c.setBit f i b).fld f) j = if j = i then b else bitOf (c.fld f) j := by
  rw [Core.setBit, Core.fld_setFld_same _ _ hle hhi, bitOf_eq_testBit, Nat.testBit_mod_two_pow,
    decide_eq_true (Nat.lt_succ_of_le hj), Bool.true_and, ← bitOf_eq_testBit, bitOf_replaceBit]

theorem Core.fld_setBit_other (c : Core) {f g : Fld} (i : Nat) (b : Bool)
    (h : f.addr ≠ g.addr ∨ (f.lo ≤ f.hi ∧ f.hi < 32 ∧ g.lo ≤ g.hi ∧ (g.hi < f.lo ∨ f.hi < g.lo))) :
    (c.setBit f i b).fld g = c.fld g := Core.fld_setFld_other c _ h

theorem Core.reg_setBit_other (c : Core) {f : Fld} {a : Nat} (i : Nat) (b : Bool) (h : f.addr ≠ a) :
    (c.setBit f i b).reg a = c.reg a := Core.reg_setFld_other c _ h

/-! ### A capture of one counter (R303, R304) -/

/-- The counter after a capture at an fc counted from epoch 0: the count is held, and beside it what a read in that cycle returns. -/
def ReelCnt.captured (x : ReelCnt) (now : Nat) : ReelCnt :=
  { x with cap := x.count (now / 8), capAt := if x.capAt.any (·.1 == now) then x.capAt else some (now, x.cap) }

/-- CAPOVR and its interrupt, where a capture of counter `n` finds CAPF set. -/
def Core.noteOverrun (c : Core) (n : Nat) : Core :=
  applyIf (bitOf (c.fld F.REEL_CAPSTAT.CAPF) n) (fun c => (c.setBit F.REEL_CAPSTAT.CAPOVR n true).raise F.REEL_IRQ.CAPOVR) c

/-- What a capture of counter `n` shows in the registers, once the counter holds its new value. -/
def Core.showCapture (c : Core) (n : Nat) : Core := ((c.noteOverrun n).setBit F.REEL_CAPSTAT.CAPF n true).setBit F.REEL_IRQ.CAP n true

theorem Core.noteOverrun_full (c : Core) {n : Nat} (h : bitOf (c.fld F.REEL_CAPSTAT.CAPF) n = true) :
    c.noteOverrun n = (c.setBit F.REEL_CAPSTAT.CAPOVR n true).raise F.REEL_IRQ.CAPOVR := by
  rw [Core.noteOverrun, h]; rfl

theorem Core.noteOverrun_clear (c : Core) {n : Nat} (h : bitOf (c.fld F.REEL_CAPSTAT.CAPF) n = false) : c.noteOverrun n = c := by
  rw [Core.noteOverrun, h]; rfl

/-- What CAPOVR and its interrupt leave alone stays in either case. -/
theorem Core.noteOverrun_keeps {α : Type} (view : Core → α) (c : Core) (n : Nat)
    (h : view ((c.setBit F.REEL_CAPSTAT.CAPOVR n true).raise F.REEL_IRQ.CAPOVR) = view c) : view (c.noteOverrun n) = view c := by
  cases hfull : bitOf (c.fld F.REEL_CAPSTAT.CAPF) n
  · rw [c.noteOverrun_clear hfull]
  · rw [c.noteOverrun_full hfull, h]

theorem Core.capf_noteOverrun (c : Core) (n : Nat) : (c.noteOverrun n).fld F.REEL_CAPSTAT.CAPF = c.fld F.REEL_CAPSTAT.CAPF :=
  Core.noteOverrun_keeps (·.fld _) c n <|
    (Core.fld_raise_other _ (.inl (by decide))).trans (Core.fld_setBit_other _ _ _ (.inr (by decide)))

theorem Core.irqCap_noteOverrun (c : Core) (n : Nat) : (c.noteOverrun n).fld F.REEL_IRQ.CAP = c.fld F.REEL_IRQ.CAP :=
  Core.noteOverrun_keeps (·.fld _) c n <|
    (Core.fld_raise_other _ (.inr (by decide))).trans (Core.fld_setBit_other _ _ _ (.inl (by decide)))

theorem Core.capovr_noteOverrun (c : Core) (n : Nat) {k : Nat} (hk : k < 8) :
    bitOf ((c.noteOverrun n).fld F.REEL_CAPSTAT.CAPOVR) k =
      if bitOf (c.fld F.REEL_CAPSTAT.CAPF) n = true ∧ k = n then true else bitOf (c.fld F.REEL_CAPSTAT.CAPOVR) k := by
  cases hfull : bitOf (c.fld F.REEL_CAPSTAT.CAPF) n
  · rw [c.noteOverrun_clear hfull, if_neg fun h => Bool.false_ne_true h.1]
  · rw [c.noteOverrun_full hfull, Core.fld_raise_other _ (.inl (by decide)),
      Core.bitOf_fld_setBit_same _ _ _ (by decide) (by decide) (Nat.le_of_lt_succ hk)]
    simp only [true_and]

theorem Core.irqCapovr_noteOverrun (c : Core) (n : Nat) :
    (c.noteOverrun n).fld F.REEL_IRQ.CAPOVR = if bitOf (c.fld F.REEL_CAPSTAT.CAPF) n = true then 1 else c.fld F.REEL_IRQ.CAPOVR := by
  cases hfull : bitOf (c.fld F.REEL_CAPSTAT.CAPF) n
  · rw [c.noteOverrun_clear hfull, if_neg Bool.false_ne_true]
  · rw [c.noteOverrun_full hfull, if_pos rfl, Core.fld_raise_same _ (by decide) (by decide)]

theorem Core.reg_noteOverrun_other (c : Core) (n : Nat) {a : Nat} (hstat : R.REEL_CAPSTAT ≠ a) (hirq : R.REEL_IRQ ≠ a) :
    (c.noteOverrun n).reg a = c.reg a :=
  Core.noteOverrun_keeps (·.reg a) c n <| (Core.reg_raise_other _ hirq).trans (Core.reg_setBit_other _ _ _ hstat)

theorem Core.capture_eq (c : Core) (n now : Nat) : c.capture n now = (c.onRc n (·.captured now)).showCapture n := rfl

/-- What a capture shows changes nothing but registers. -/
theorem Core.showCapture_only (c : Core) (n : Nat) : ∃ r, c.showCapture n = { c with regs := r } := by
  have hset (d : Core) (f : Fld) : ∃ r, d.setBit f n true = { d with regs := r } := ⟨_, rfl⟩
  have hover : ∃ r, c.noteOverrun n = { c with regs := r } := by
    cases h : bitOf (c.fld F.REEL_CAPSTAT.CAPF) n
    · exact ⟨_, c.noteOverrun_clear h⟩
    · exact ⟨_, c.noteOverrun_full h⟩
  obtain ⟨r1, h1⟩ := hover
  obtain ⟨r2, h2⟩ := hset { c with regs := r1 } F.REEL_CAPSTAT.CAPF
  obtain ⟨r3, h3⟩ := hset { c with regs := r2 } F.REEL_IRQ.CAP
  exact ⟨r3, by rw [Core.showCapture, h1, h2, h3]⟩

theorem Core.rc_showCapture (c : Core) (n k : Nat) : (c.showCapture n).rc k = c.rc k := by
  obtain ⟨r, h⟩ := c.showCapture_only n
  rw [h]; rfl

theorem Core.rc_capture_same (c : Core) {n : Nat} (now : Nat) (hn : n < 8) : (c.capture n now).rc n = (c.rc n).captured now := by
  rw [Core.capture_eq, Core.rc_showCapture, Core.onRc, Core.rc_setRc_same _ _ hn]

theorem Core.rc_capture_other (c : Core) {n k : Nat} (now : Nat) (h : n ≠ k) : (c.capture n now).rc k = c.rc k := by
  rw [Core.capture_eq, Core.rc_showCapture, Core.onRc, Core.rc_setRc_other _ _ h]

/-- CAPF of the counter that captures is set, and of the others stays. -/
theorem Core.capf_capture (c : Core) (n now : Nat) {k : Nat} (hk : k < 8) :
    bitOf ((c.capture n now).fld F.REEL_CAPSTAT.CAPF) k = if k = n then true else bitOf (c.fld F.REEL_CAPSTAT.CAPF) k := by
  rw [Core.capture_eq, Core.showCapture, Core.fld_setBit_other _ _ _ (.inl (by decide)),
    Core.bitOf_fld_setBit_same _ _ _ (by decide) (by decide) (Nat.le_of_lt_succ hk),
    Core.capf_noteOverrun]
  rfl

/-- IRQ.CAP of the counter that captures is set, and of the others stays. -/
theorem Core.irqCap_capture (c : Core) (n now : Nat) {k : Nat} (hk : k < 8) :
    bitOf ((c.capture n now).fld F.REEL_IRQ.CAP) k = if k = n then true else bitOf (c.fld F.REEL_IRQ.CAP) k := by
  rw [Core.capture_eq, Core.showCapture, Core.bitOf_fld_setBit_same _ _ _ (by decide) (by decide) (Nat.le_of_lt_succ hk),
    Core.fld_setBit_other _ _ _ (.inl (by decide)), Core.irqCap_noteOverrun]
  rfl

/-- CAPOVR of the counter that captures is set where CAPF was set; every other CAPOVR stays. -/
theorem Core.capovr_capture (c : Core) (n now : Nat) {k : Nat} (hk : k < 8) :
    bitOf ((c.capture n now).fld F.REEL_CAPSTAT.CAPOVR) k =
      if bitOf (c.fld F.REEL_CAPSTAT.CAPF) n = true ∧ k = n then true else bitOf (c.fld F.REEL_CAPSTAT.CAPOVR) k := by
  rw [Core.capture_eq, Core.showCapture, Core.fld_setBit_other _ _ _ (.inl (by decide)),
    Core.fld_setBit_other _ _ _ (.inr (by decide)), Core.capovr_noteOverrun _ _ hk]
  rfl

/-- A capture raises IRQ.CAPOVR where CAPF was set. -/
theorem Core.irqCapovr_capture (c : Core) (n now : Nat) :
    (c.capture n now).fld F.REEL_IRQ.CAPOVR =
      if bitOf (c.fld F.REEL_CAPSTAT.CAPF) n = true then 1 else c.fld F.REEL_IRQ.CAPOVR := by
  rw [Core.capture_eq, Core.showCapture, Core.fld_setBit_other _ _ _ (.inr (by decide)),
    Core.fld_setBit_other _ _ _ (.inl (by decide)), Core.irqCapovr_noteOverrun]
  rfl

theorem Core.reg_capture_other (c : Core) (n now : Nat) {a : Nat} (h : a ∉ [R.REEL_CAPSTAT, R.REEL_IRQ]) :
    (c.capture n now).reg a = c.reg a := by
  simp only [List.mem_cons, List.not_mem_nil, or_false, not_or] at h
  obtain ⟨hstat, hirq⟩ := h
  rw [Core.capture_eq, Core.showCapture, Core.reg_setBit_other _ _ _ (Ne.symm hirq), Core.reg_setBit_other _ _ _ (Ne.symm hstat),
    Core.reg_noteOverrun_other _ _ (Ne.symm hstat) (Ne.symm hirq)]
  rfl

theorem Core.capture_only (c : Core) (n now : Nat) :
    c.capture n now = { c with regs := (c.capture n now).regs, reel := { c.reel with cnts := (c.capture n now).reel.cnts } } := by
  obtain ⟨r, h⟩ := (c.onRc n (·.captured now)).showCapture_only n
  rw [Core.capture_eq, h]; rfl

/-! ### The read of the held value (R305) -/

/-- The row of REEL_CAPn_LO in the register table. -/
def reelCapLoRow : RegRow := ⟨"REEL_CAP_LO", 0x40008118, 64, 8, none, [⟨31, 0, .rl⟩]⟩

theorem regRow_reelCapLo : ∀ n : Fin 8, regRow (R.REEL_CAP_LO n.val) = some reelCapLoRow := by
  decide +kernel

theorem Core.specialRead_reelCapLo (c : Core) (t : Clock) (n : Fin 8) :
    c.specialRead t reelCapLoRow (R.REEL_CAP_LO n.val) = some (c.readReelCap t.abs n.val) := by
  fin_cases n <;> rfl

/-- No pair holds the captures, so a read of one is never withheld. -/
theorem Core.regRead_reelCapLo (c : Core) (t : Clock) (n : Fin 8) :
    c.regRead t (R.REEL_CAP_LO n.val) = c.readReelCap t.abs n.val := by
  have hplace : ∀ n : Fin 8, inRange backupRam 0x100 (R.REEL_CAP_LO n.val) = false ∧ distaffOnly (R.REEL_CAP_LO n.val) = false ∧
      (pairReg (R.REEL_CAP_LO n.val)).isSome = false := by decide
  obtain ⟨hram, hdistaff, hpair⟩ := hplace n
  exact Core.regRead_special hram hdistaff (regRow_reelCapLo n) (c.specialRead_reelCapLo t n) (by rw [hpair, Bool.false_and])

/-- Where no capture has come in the read's own cycle, the read returns the held value and clears CAPF. -/
theorem Core.readReelCap_apart (c : Core) (now n : Nat) (h : ∀ q, (c.rc n).capAt = some q → q.1 ≠ now) :
    c.readReelCap now n = ((c.setReg (R.REEL_CAP_HI n) (BitVec.ofNat 32 ((c.rc n).cap / 2 ^ 32))).setBit F.REEL_CAPSTAT.CAPF n false,
      BitVec.ofNat 32 (c.rc n).cap) := by
  have hnone : (c.rc n).capAt.filter (·.1 == now) = none :=
    Option.filter_eq_none_iff.mpr fun q hq => by simpa using h q hq
  rw [Core.readReelCap, hnone]

end Sys2Proof.Machine

namespace Sys2Proof.Claims
open Sys2Proof.Machine

/-- `c'` differs from `c` by captures alone: REEL_CAPSTAT, REEL_IRQ and the counters. -/
def ByCaptures (c c' : Core) : Prop :=
  RegsBut [R.REEL_CAPSTAT, R.REEL_IRQ] c c' ∧ c' = { c with regs := c'.regs, reel := { c.reel with cnts := c'.reel.cnts } }

theorem ByCaptures.refl (c : Core) : ByCaptures c c := ⟨fun _ _ => rfl, rfl⟩

theorem ByCaptures.trans {c c' c'' : Core} (h : ByCaptures c c') (h' : ByCaptures c' c'') : ByCaptures c c'' := by
  obtain ⟨hregs, honly⟩ := h
  obtain ⟨hregs', honly'⟩ := h'
  refine ⟨fun a ha => (hregs' a ha).trans (hregs a ha), ?_⟩
  rw [honly] at honly'
  exact honly'

theorem byCaptures_capture (c : Core) (n now : Nat) : ByCaptures c (c.capture n now) :=
  ⟨fun _ ha => c.reg_capture_other n now ha, c.capture_only n now⟩

/-- A register that captures do not write keeps its fields. -/
theorem ByCaptures.fld_eq {c c' : Core} (h : ByCaptures c c') {f : Fld} (hf : f.addr ∉ [R.REEL_CAPSTAT, R.REEL_IRQ]) : c'.fld f = c.fld f :=
  congrArg (fun w => bits w f.hi f.lo) (h.1 f.addr hf)

/-- What captures of the other counters leave of counter `n`: its value and its flags; IRQ.CAPOVR, which they share, stays set. -/
structure OthersCaptured (n : Nat) (c c' : Core) : Prop where
  only : ByCaptures c c'
  rc : c'.rc n = c.rc n
  capf : bitOf (c'.fld F.REEL_CAPSTAT.CAPF) n = bitOf (c.fld F.REEL_CAPSTAT.CAPF) n
  irqCap : bitOf (c'.fld F.REEL_IRQ.CAP) n = bitOf (c.fld F.REEL_IRQ.CAP) n
  capovr : bitOf (c'.fld F.REEL_CAPSTAT.CAPOVR) n = bitOf (c.fld F.REEL_CAPSTAT.CAPOVR) n
  irqCapovr : c.fld F.REEL_IRQ.CAPOVR = 1 → c'.fld F.REEL_IRQ.CAPOVR = 1

theorem OthersCaptured.refl (n : Nat) (c : Core) : OthersCaptured n c c := ⟨.refl c, rfl, rfl, rfl, rfl, id⟩

theorem OthersCaptured.trans {n : Nat} {c c' c'' : Core} (h : OthersCaptured n c c') (h' : OthersCaptured n c' c'') :
    OthersCaptured n c c'' :=
  ⟨h.only.trans h'.only, h'.rc.trans h.rc, h'.capf.trans h.capf, h'.irqCap.trans h.irqCap, h'.capovr.trans h.capovr,
    h'.irqCapovr ∘ h.irqCapovr⟩

theorem othersCaptured_capture (c : Core) {n k : Nat} (now : Nat) (hn : n < 8) (h : n ≠ k) : OthersCaptured n c (c.capture k now) where
  only := byCaptures_capture c k now
  rc := c.rc_capture_other now h.symm
  capf := by rw [c.capf_capture k now hn, if_neg h]
  irqCap := by rw [c.irqCap_capture k now hn, if_neg h]
  capovr := by rw [c.capovr_capture k now hn, if_neg fun hk => h hk.2]
  irqCapovr := fun hone => by rw [c.irqCapovr_capture k now, hone, ite_self]

theorem captured_capture (c : Core) {n : Nat} (now : Nat) (hn : n < 8) : Captured c n now (c.capture n now) := by
  refine ⟨?value, ?capf, ?irqCap, fun hfull => ⟨?capovr, ?irqCapovr⟩⟩
  case value =>
    rw [c.rc_capture_same now hn, ReelCnt.captured]
    rcases hat : (c.rc n).capAt with _ | ⟨fc, held⟩
    · rfl
    · by_cases hnow : fc = now <;> simp [hnow]
  case capf => rw [c.capf_capture n now hn, if_pos rfl]
  case irqCap => rw [c.irqCap_capture n now hn, if_pos rfl]
  case capovr => rw [c.capovr_capture n now hn, if_pos ⟨hfull, rfl⟩]
  case irqCapovr => rw [c.irqCapovr_capture n now, if_pos hfull]

/-- Captures of other counters, before and after, do not change what a capture is. -/
theorem Captured.amongOthers {c0 c1 c2 c3 : Core} {n now : Nat} (before : OthersCaptured n c0 c1) (h : Captured c1 n now c2)
    (after : OthersCaptured n c2 c3) : Captured c0 n now c3 := by
  obtain ⟨hvalue, hcapf, hirqCap, hover⟩ := h
  rw [before.rc] at hvalue
  rw [before.capf] at hover
  exact ⟨after.rc.trans hvalue, after.capf.trans hcapf, after.irqCap.trans hirqCap, fun hfull =>
    ⟨after.capovr.trans (hover hfull).1, after.irqCapovr (hover hfull).2⟩⟩

/-! ### An edge (R303) -/

/-- The capture of counter `n` chooses an edge of EVTc. -/
abbrev ChoosesEdge (c : Core) (n ch : Nat) (falling : Bool) : Prop :=
  c.fld (F.REEL_CFG.CAPSRC n) = ch ∧
    if falling then 2 ≤ c.fld (F.REEL_CFG.CAPEDGE n) else c.fld (F.REEL_CFG.CAPEDGE n) = 1 ∨ c.fld (F.REEL_CFG.CAPEDGE n) = 3

/-- An edge as counter `n` takes it. -/
def captureChosen (ch now : Nat) (falling : Bool) (c : Core) (n : Nat) : Core :=
  if ChoosesEdge c n ch falling then c.capture n now else c

theorem captureEdge_eq (c : Core) (ch now : Nat) (falling : Bool) :
    c.captureEdge ch now falling = (List.range 8).foldl (captureChosen ch now falling) c := rfl

theorem ByCaptures.choosesEdge_iff {c c' : Core} (h : ByCaptures c c') {n : Nat} (ch : Nat) (falling : Bool) :
    ChoosesEdge c' n ch falling ↔ ChoosesEdge c n ch falling := by
  have hcfg : R.REEL_CFG n ∉ [R.REEL_CAPSTAT, R.REEL_IRQ] := by
    simp only [List.mem_cons, List.not_mem_nil, or_false, not_or, R.REEL_CFG, R.REEL_CAPSTAT, R.REEL_IRQ]
    omega
  rw [ChoosesEdge, ChoosesEdge, h.fld_eq (f := F.REEL_CFG.CAPSRC n) hcfg, h.fld_eq (f := F.REEL_CFG.CAPEDGE n) hcfg]

theorem othersCaptured_captureChosen (c : Core) {n k : Nat} (ch now : Nat) (falling : Bool) (hn : n < 8) (h : n ≠ k) :
    OthersCaptured n c (captureChosen ch now falling c k) := by
  unfold captureChosen
  split
  · exact othersCaptured_capture c now hn h
  · exact .refl n c

/-- An edge as any counters but `n` take it. -/
theorem othersCaptured_foldl (c : Core) {n : Nat} {ks : List Nat} (ch now : Nat) (falling : Bool) (hn : n < 8) (h : n ∉ ks) :
    OthersCaptured n c (ks.foldl (captureChosen ch now falling) c) :=
  List.foldlRecOn ks _ (OthersCaptured.refl n c) fun _ hsofar _ hk =>
    hsofar.trans (othersCaptured_captureChosen _ ch now falling hn fun e => h (e ▸ hk))

/-- An edge, seen from counter `n`: the counters below it take the edge, then it does, then those above it. -/
theorem captureEdge_seen (c : Core) {n : Nat} (ch now : Nat) (falling : Bool) (hn : n < 8) :
    ∃ c1, OthersCaptured n c c1 ∧ OthersCaptured n (captureChosen ch now falling c1 n) (c.captureEdge ch now falling) := by
  obtain ⟨below, above, hsplit⟩ := List.append_of_mem (List.mem_range.mpr hn)
  have hnodup : (n :: (below ++ above)).Nodup := List.nodup_middle.mp (hsplit ▸ List.nodup_range)
  have hnot : n ∉ below ∧ n ∉ above := by simpa using (List.nodup_cons.mp hnodup).1
  refine ⟨_, othersCaptured_foldl c ch now falling hn hnot.1, ?_⟩
  rw [captureEdge_eq, hsplit, List.foldl_append, List.foldl_cons]
  exact othersCaptured_foldl _ ch now falling hn hnot.2

theorem captured_captureEdge (c : Core) {n ch : Nat} (now : Nat) {falling : Bool} (hn : n < 8) (h : ChoosesEdge c n ch falling) :
    Captured c n now (c.captureEdge ch now falling) := by
  obtain ⟨c1, hbefore, hafter⟩ := captureEdge_seen c ch now falling hn
  rw [captureChosen, if_pos ((hbefore.only.choosesEdge_iff ch falling).mpr h)] at hafter
  exact (captured_capture c1 now hn).amongOthers hbefore hafter

theorem othersCaptured_captureEdge (c : Core) {n ch : Nat} (now : Nat) {falling : Bool} (hn : n < 8) (h : ¬ ChoosesEdge c n ch falling) :
    OthersCaptured n c (c.captureEdge ch now falling) := by
  obtain ⟨c1, hbefore, hafter⟩ := captureEdge_seen c ch now falling hn
  rw [captureChosen, if_neg fun h1 => h ((hbefore.only.choosesEdge_iff ch falling).mp h1)] at hafter
  exact hbefore.trans hafter

theorem byCaptures_captureEdge (c : Core) (ch now : Nat) (falling : Bool) : ByCaptures c (c.captureEdge ch now falling) := by
  rw [captureEdge_eq]
  refine List.foldlRecOn _ _ (ByCaptures.refl c) fun d hsofar k _ => hsofar.trans ?_
  unfold captureChosen
  split
  · exact byCaptures_capture d k now
  · exact .refl d

/-! ### The obligation -/

/-- Settles O22: by CAPSW, and by an edge that the counter chooses whatever the other counters do with it, a capture replaces the held
value and sets its flags (R303, R304); a read in another cycle than a capture's clears CAPF (R305, log entry 179). -/
theorem capturesSetTheirFlags : Obligations.CapturesSetTheirFlags := by
  intro s n hon
  refine ⟨⟨_, (exec_capsw n s).trans (State.run_on _ hon), ?capsw⟩,
    fun ch falling => ⟨_, (exec_captureEdge ch falling s).trans (State.run_on _ hon), ?chosen, ?other, ?edge⟩,
    fun hapart => ⟨_, (exec_reelCapLoRead n s).trans (State.read_on _ hon), ?read⟩⟩
  case capsw => exact ⟨captured_capture _ _ n.isLt, byCaptures_capture _ _ _⟩
  case chosen => exact captured_captureEdge _ _ n.isLt
  case other =>
    intro hnot
    have h := othersCaptured_captureEdge s.core s.clk.abs n.isLt hnot
    exact ⟨h.rc, h.capf, h.irqCap⟩
  case edge => exact byCaptures_captureEdge _ _ _ _
  case read =>
    rw [Core.regRead_reelCapLo, s.core.readReelCap_apart s.clk.abs n.val hapart]
    refine ⟨?_, rfl, rfl⟩
    exact (Core.bitOf_fld_setBit_same _ _ _ (by decide) (by decide) (Nat.le_of_lt_succ n.isLt)).trans (if_pos rfl)

end Sys2Proof.Claims
end

section
/-! WHL_TRUST.SUM and the requests of Twine (R375, R443, R448). ACQ_SUBMIT writes its payload word by word from PRM_JD0 up, at the length
that the session's catalogue gives it. A later minor may append fields to a message, and a field that a request omits is taken as zero
(R443): a catalogue that appends enough of them carries the writes past PRM_JD15, up to WHL_TRUST. -/
namespace Sys2Proof.Machine

/-! ### Bytes and words of zero -/

theorem leNat_replicate_zero (n : Nat) : leNat (List.replicate n 0#8) = 0 := by
  induction n with
  | zero => rfl
  | succ n ih => rw [List.replicate_succ, leNat, ih]; rfl

theorem wordsOf_replicate_zero (n : Nat) : wordsOf (List.replicate n 0#8) = List.replicate (n / 4) 0#32 := by
  simp only [wordsOf, leAt, List.drop_replicate, List.take_replicate, leNat_replicate_zero, List.length_replicate, List.map_const',
    List.length_range]

/-- Fields read from bytes of zero are zero, those that the bytes no longer reach too (R443). -/
theorem expandFields_replicate_zero (v : Nat) (fs : List CatFld) (n : Nat) :
    (expandFields v fs (List.replicate n 0#8)).1.flatten = List.replicate (fs.map (·.size)).sum 0#8 ∧
      (expandFields v fs (List.replicate n 0#8)).2 = List.replicate (n - presentSize v fs) 0#8 := by
  induction fs generalizing n with
  | nil => simp [expandFields, presentSize]
  | cons f fs ih =>
    cases hpresent : f.present v
    case false =>
      obtain ⟨hfields, hrest⟩ := ih n
      simp [expandFields, hpresent, hfields, hrest, presentSize]
    case true =>
      obtain ⟨hfields, hrest⟩ := ih (n - f.size)
      have hfield : min f.size n + (f.size - min f.size n) = f.size := by omega
      constructor
      · simp [expandFields, hpresent, hfields, hfield]
      · simp [expandFields, hpresent, hrest, presentSize, Nat.sub_add_eq]

/-- A message of zeros stays one in the catalogue's layout. -/
theorem CatMsg.expand_replicate_zero {m : CatMsg} (hrep : m.rep = false) (v n : Nat) :
    m.expand v (List.replicate n 0#8) = List.replicate ((m.fields.map (·.size)).sum + (n - presentSize v m.fields)) 0#8 := by
  obtain ⟨hfields, hrest⟩ := expandFields_replicate_zero v m.fields n
  simp [CatMsg.expand, hrep, hfields, hrest]

/-! ### Words written from PRM_JD0 up -/

/-- Words written to the registers from PRM_JD number `k` up. -/
def Core.putDescriptor (c : Core) (ws : List Word) (k : Nat) : Core :=
  (ws.zipIdx k).foldl (fun (c : Core) q => c.setReg (R.PRM_JD q.2) q.1) c

theorem Core.acqSubmit_eq (c : Core) (t : Clock) (p : List Byte) :
    c.acqSubmit t p =
      let c2 := (c.putDescriptor (wordsOf p) 0).prmGo t
      (c2, .ack (c2.fld F.PRM_SUBRES.CODE) (c2.fld F.PRM_SUBRES.TAG)) := rfl

theorem Core.putDescriptor_cons (c : Core) (w : Word) (ws : List Word) (k : Nat) :
    c.putDescriptor (w :: ws) k = (c.setReg (R.PRM_JD k) w).putDescriptor ws (k + 1) := rfl

theorem mapErase_eq_filter {β : Type} (m : AddrMap β) (a : Nat) : mapErase m a = m.filter fun x => x.1 ≠ a := by
  induction m with
  | nil => rfl
  | cons x m ih => by_cases h : x.1 = a <;> simp [mapErase, h, ih]

theorem RegMap.setReg_zero (m : RegMap) (a : Nat) : m.setReg a 0#32 = m.filter fun x => x.1 ≠ a := by
  rw [RegMap.setReg, mapPut, if_pos (by rfl), mapErase_eq_filter]

/-- An address that is none of the `n` registers from PRM_JD number `k` up. -/
def outsideDescriptor (k n a : Nat) : Bool := decide (a < R.PRM_JD k ∨ R.PRM_JD (k + n) ≤ a ∨ a % 4 ≠ 0)

theorem outsideDescriptor_zero (k a : Nat) : outsideDescriptor k 0 a = true := by
  simp only [outsideDescriptor, R.PRM_JD, decide_eq_true_eq]; omega

theorem outsideDescriptor_succ (k n a : Nat) :
    outsideDescriptor k (n + 1) a = (outsideDescriptor (k + 1) n a && decide (a ≠ R.PRM_JD k)) := by
  simp only [outsideDescriptor, R.PRM_JD, ← Bool.decide_and, decide_eq_decide]; omega

/-- Words of zero clear the registers they are written to. -/
theorem Core.putDescriptor_replicate_zero (c : Core) (n k : Nat) :
    c.putDescriptor (List.replicate n 0#32) k = { c with regs := c.regs.filter fun x => outsideDescriptor k n x.1 } := by
  induction n generalizing c k with
  | zero => simp [outsideDescriptor_zero, Core.putDescriptor]
  | succ n ih =>
    rw [List.replicate_succ, Core.putDescriptor_cons, ih, Core.setReg, RegMap.setReg_zero]
    simp only [List.filter_filter, outsideDescriptor_succ]

/-! ### A request that a session takes -/

/-- The device as a request finds it: its frame has left the link's receive bytes, and is activity (R356, R437). -/
def Core.hearing (c : Core) (t : Clock) (h : TwineHead) (crc : Word) (cls id : Nat) : Core :=
  (c.onLink h.link.val fun k => { k with rx := (huntFrame cls id h.seq.toNat crc k.rx).getD k.rx }).activity t

/-- A device that takes requests on a link with an open session, which serves the message as `m` says and has nothing in its retry
memory and nothing waiting (R440, R444 to R446). -/
structure Core.Admits (c : Core) (h : TwineHead) (cls id : Nat) (m : CatMsg) : Prop where
  stage : 8 ≤ c.fld F.SYS_BOOT.STAGE
  opened : (c.link h.link.val).opened = true
  memory : (c.link h.link.val).memory = []
  waiting : (c.link h.link.val).waiting = []
  entry : (c.link h.link.val).entry h cls id = some m

/-- A request admitted is done, and what does it gives its answer. -/
theorem Core.requestWith_admitted {c c1 : Core} {t : Clock} {h : TwineHead} {crc : Word} {cls id code detail : Nat} {m : CatMsg}
    {g : Core → Core × Answer} (hold : h.old = none) (hserves : c.distaffServes = true)
    (hadmits : (c.hearing t h crc cls id).Admits h cls id m) (hg : g (c.hearing t h crc cls id) = (c1, .ack code detail)) :
    c.requestWith t h crc cls id g = c1.answer h.link.val h.seq.toNat crc cls id (.ack code detail) := by
  obtain ⟨hstage, hopened, hmemory, hwaiting, hentry⟩ := hadmits
  have hframe : h.frameId cls id = (cls, id) := by rw [TwineHead.frameId, hold]
  rw [Core.hearing] at hstage hopened hmemory hwaiting hentry hg
  simp [Core.requestWith, hframe, hserves, Nat.not_lt.mpr hstage, hopened, hmemory, hwaiting, hentry, hg]

/-- Its payload, of a length that the catalogue allows, is brought to the catalogue's layout first (R443). -/
theorem Core.request_admitted {c c1 : Core} {t : Clock} {h : TwineHead} {cls id code detail : Nat} {m : CatMsg} {p : List Byte}
    {f : Core → List Byte → Core × Answer} (hold : h.old = none) (hserves : c.distaffServes = true) (hshort : p.length ≤ 4096) :
    let c0 := c.hearing t h (frameCrc cls id h.seq.toNat p) cls id
    let v := (c0.link h.link.val).version
    c0.Admits h cls id m → m.lengthOk v p.length = true → f c0 (m.expand v p) = (c1, .ack code detail) →
    c.request t h cls id p f = c1.answer h.link.val h.seq.toNat (frameCrc cls id h.seq.toNat p) cls id (.ack code detail) := by
  intro c0 v hadmits hlength hf
  have hframe : h.frameId cls id = (cls, id) := by rw [TwineHead.frameId, hold]
  simp only [Core.request, hframe, Nat.not_lt.mpr hshort, if_false]
  refine Core.requestWith_admitted hold hserves hadmits ?_
  have hentry := hadmits.entry
  simp only [c0, v] at hentry hlength hf ⊢
  simp [hentry, hlength, hold, hf]

end Sys2Proof.Machine

namespace Sys2Proof.Claims
open Sys2Proof.Machine

/-! ### A catalogue that appends fields to ACQ_SUBMIT -/

/-- A catalogue of version 1.1: ACQ_SUBMIT with the 64 bytes of its descriptor and seven fields of 4,096 bytes that minor 1 appends. -/
def appendingCatalogue : List Byte :=
  [1, 1, 0xFF, 0xFF] ++ leBytes 2 1 ++ leBytes 2 8 ++ List.replicate 8 0 ++
    ([6, 1, 2, 0, 1, 0, 0, 0] ++ leBytes 2 0 ++ leBytes 2 8 ++ List.replicate 4 0) ++
    (leBytes 2 64 ++ [1, 0, 0, 0, 0xFF, 0xFF]) ++ (List.replicate 7 (leBytes 2 4096 ++ [1, 1, 0, 0, 0xFF, 0xFF])).flatten

/-- Its one message. -/
def appendedSubmit : CatMsg := catMsgAt appendingCatalogue 1 0

/-- The catalogue is in order (R442), and a HELLO for major 1 opens a session of version 1.1 under it (R74). -/
theorem appendingCatalogue_served : catOk appendingCatalogue = true ∧ (catOf appendingCatalogue).negotiate 1 1 = some (1, 1) := by
  decide +kernel

/-- The first power-up once epochs run, with a session of version 1.1 open on UART0 under that catalogue. -/
def appendingSession : State :=
  { State.reset with core := (coreReset.setFld F.SYS_BOOT.STAGE 10).onLink 0 fun k =>
      { k with opened := true, major := 1, minor := 1, cat := some appendingCatalogue } }

/-- The session's first request, and a payload as long as a descriptor: it ends before the appended fields, as R443 allows. -/
def firstRequest : TwineHead := { link := 0, seq := 0, old := none }
def shortPayload : List Byte := List.replicate 64 0#8
def shortCrc : Word := frameCrc 6 1 0 shortPayload

def appendingSessionHearing : Core := appendingSession.core.hearing appendingSession.clk firstRequest shortCrc 6 1

theorem appendingSessionHearing_admits : appendingSessionHearing.Admits firstRequest 6 1 appendedSubmit :=
  ⟨by decide +kernel, by decide +kernel, by decide +kernel, by decide +kernel, by decide +kernel⟩

theorem appendedSubmit_lengthOk : appendedSubmit.lengthOk (appendingSessionHearing.link 0).version shortPayload.length = true := by
  decide +kernel

/-- The catalogue's layout has 28,736 bytes: 7,184 words. -/
theorem wordsOf_expand_shortPayload :
    wordsOf (appendedSubmit.expand (appendingSessionHearing.link 0).version shortPayload) = List.replicate 7184 0#32 := by
  have hrep : appendedSubmit.rep = false := by decide +kernel
  have hsize : (appendedSubmit.fields.map (·.size)).sum +
      (64 - presentSize (appendingSessionHearing.link 0).version appendedSubmit.fields) = 28736 := by decide +kernel
  rw [shortPayload, CatMsg.expand_replicate_zero hrep, hsize, wordsOf_replicate_zero]

/-- The device with those words written, from PRM_JD0 to beyond WHL_TRUST, and the descriptor submitted. -/
def overwritten : Core :=
  ({ appendingSessionHearing with regs := appendingSessionHearing.regs.filter fun x => outsideDescriptor 0 7184 x.1 } : Core).prmGo
    appendingSession.clk

theorem acqSubmit_shortPayload :
    appendingSessionHearing.acqSubmit appendingSession.clk
        (appendedSubmit.expand (appendingSessionHearing.link 0).version shortPayload) =
      (overwritten, .ack (overwritten.fld F.PRM_SUBRES.CODE) (overwritten.fld F.PRM_SUBRES.TAG)) := by
  rw [Core.acqSubmit_eq, wordsOf_expand_shortPayload, Core.putDescriptor_replicate_zero, overwritten]

/-- The same with the request answered. -/
def overwrittenAnswered : Core :=
  (overwritten.answer 0 0 shortCrc 6 1 (.ack (overwritten.fld F.PRM_SUBRES.CODE) (overwritten.fld F.PRM_SUBRES.TAG))).sendDones

theorem exec_acqSubmit_appendingSession :
    exec (.acqSubmit firstRequest shortPayload) appendingSession = .next (appendingSession.put overwrittenAnswered) := by
  have hon : appendingSession.core.coreOn = true := by decide +kernel
  have hserves : appendingSession.core.distaffServes = true := by decide +kernel
  have hdone : appendingSession.core.request appendingSession.clk firstRequest 6 1 shortPayload
        (fun c p => c.acqSubmit appendingSession.clk p) =
      overwritten.answer 0 0 shortCrc 6 1 (.ack (overwritten.fld F.PRM_SUBRES.CODE) (overwritten.fld F.PRM_SUBRES.TAG)) :=
    Core.request_admitted (h := firstRequest) rfl hserves (by decide) appendingSessionHearing_admits appendedSubmit_lengthOk
      acqSubmit_shortPayload
  rw [exec_acqSubmit, State.run_on _ hon, hdone, overwrittenAnswered]

theorem overwrittenAnswered_sum : appendingSession.core.fld F.WHL_TRUST.SUM = 2 ∧ overwrittenAnswered.fld F.WHL_TRUST.SUM = 0 := by
  decide +kernel

theorem overwrittenAnswered_irq : overwrittenAnswered.fld F.WHL_IRQ.TRUST = 0 := by decide +kernel

/-- Refutes O52: ACQ_SUBMIT, a single command, clears WHL_TRUST and so takes SUM from 2 to 0, and WHL_IRQ.TRUST stays 0. -/
theorem not_trustSummaryFollowsTheFlags : ¬ Obligations.TrustSummaryFollowsTheFlags := by
  rintro ⟨-, -, -, hraises, -⟩
  obtain ⟨hbefore, hafter⟩ := overwrittenAnswered_sum
  have hchanged : overwrittenAnswered.fld F.WHL_TRUST.SUM ≠ appendingSession.core.fld F.WHL_TRUST.SUM := by
    rw [hbefore, hafter]; decide
  have hraised : overwrittenAnswered.fld F.WHL_IRQ.TRUST = 1 := hraises _ _ _ id exec_acqSubmit_appendingSession hchanged
  rw [overwrittenAnswered_irq] at hraised
  exact absurd hraised (by decide)

end Sys2Proof.Claims
end
